-- ==== Sys2Proof/Word.lean ====
section
/-!
DEFINITION. The machine's words: the data sizes of R4, little-endian bit order of R3.
-/
namespace Sys2Proof

/-- A 64-bit scalar register or dword (R4). -/
abbrev Word := BitVec 64
/-- A byte (R4). -/
abbrev Byte := BitVec 8
/-- An instruction word (R102). -/
abbrev IWord := BitVec 32
/-- The pc: bits [54:0] of a virtual address (R54). -/
abbrev Pc := BitVec 55
/-- A vector register's byte image at the greatest grant, 4,096 bytes (R55). -/
abbrev VImg := BitVec 32768
/-- One poison bit per 8-byte lane slot of a vector register (R78). -/
abbrev SlotPsn := BitVec 512
/-- A mask register (R59). -/
abbrev MaskReg := BitVec 4096
/-- An accumulator: 1,024 cells of 64 bits, cell (i, j) at bit 64·(32·i + j) (R61). -/
abbrev AccImg := BitVec 65536
/-- One poison bit per accumulator cell (R61). -/
abbrev CellPsn := BitVec 1024
/-- A 64-byte line or granule (R78, R278). -/
abbrev Line := BitVec 512

end Sys2Proof
end

