-- ==== Sys2Proof/Syntax.lean ====
section
/-!
DEFINITION. The instructions and events of spec/opcode_table.json, one constructor a row, each with the fields its row names, in the row's order.
-/
namespace Sys2Proof

/-- One step of the device. The 218 encoded rows carry their fields (R104–R129); the 91 events have none: which occurrence an event concerns is for State.pick to say. -/
inductive Instr where
  /-- ADD (R142). Writes the 64-bit wrapped sum of two scalar registers. -/
  | add (d : BitVec 5) (a : BitVec 5) (b : BitVec 5)
  /-- SUB (R142). Writes the 64-bit wrapped difference of two scalar registers. -/
  | sub (d : BitVec 5) (a : BitVec 5) (b : BitVec 5)
  /-- AND (R142). Writes the bitwise AND of two scalar registers. -/
  | and (d : BitVec 5) (a : BitVec 5) (b : BitVec 5)
  /-- OR (R142). Writes the bitwise OR of two scalar registers. -/
  | or (d : BitVec 5) (a : BitVec 5) (b : BitVec 5)
  /-- XOR (R142). Writes the bitwise XOR of two scalar registers. -/
  | xor (d : BitVec 5) (a : BitVec 5) (b : BitVec 5)
  /-- SLL (R142). Shifts a scalar register left by s[b] mod 64. -/
  | sll (d : BitVec 5) (a : BitVec 5) (b : BitVec 5)
  /-- SRL (R142). Shifts a scalar register right logically by s[b] mod 64. -/
  | srl (d : BitVec 5) (a : BitVec 5) (b : BitVec 5)
  /-- SRA (R142). Shifts a scalar register right arithmetically by s[b] mod 64. -/
  | sra (d : BitVec 5) (a : BitVec 5) (b : BitVec 5)
  /-- MUL (R142). Writes the low 64 bits of the product of two scalar registers. -/
  | mul (d : BitVec 5) (a : BitVec 5) (b : BitVec 5)
  /-- MULH (R142). Writes bits 127:64 of the signed product. -/
  | mulh (d : BitVec 5) (a : BitVec 5) (b : BitVec 5)
  /-- MULHN (R142). Writes bits 127:64 of the unsigned product. -/
  | mulhn (d : BitVec 5) (a : BitVec 5) (b : BitVec 5)
  /-- DIV (R142). Writes the signed quotient truncated towards zero, per R84. -/
  | div (d : BitVec 5) (a : BitVec 5) (b : BitVec 5)
  /-- DIVN (R142). Writes the unsigned quotient, per R84. -/
  | divn (d : BitVec 5) (a : BitVec 5) (b : BitVec 5)
  /-- REM (R142). Writes the signed remainder, per R84. -/
  | rem (d : BitVec 5) (a : BitVec 5) (b : BitVec 5)
  /-- REMN (R142). Writes the unsigned remainder, per R84. -/
  | remn (d : BitVec 5) (a : BitVec 5) (b : BitVec 5)
  /-- SLT (R142). Writes 1 if s[a] is less than s[b] signed, else 0. -/
  | slt (d : BitVec 5) (a : BitVec 5) (b : BitVec 5)
  /-- SLTN (R142). Writes 1 if s[a] is less than s[b] unsigned, else 0. -/
  | sltn (d : BitVec 5) (a : BitVec 5) (b : BitVec 5)
  /-- MIN (R142). Writes the signed lesser of two scalar registers. -/
  | min (d : BitVec 5) (a : BitVec 5) (b : BitVec 5)
  /-- MAX (R142). Writes the signed greater of two scalar registers. -/
  | max (d : BitVec 5) (a : BitVec 5) (b : BitVec 5)
  /-- MINN (R142). Writes the unsigned lesser of two scalar registers. -/
  | minn (d : BitVec 5) (a : BitVec 5) (b : BitVec 5)
  /-- MAXN (R142). Writes the unsigned greater of two scalar registers. -/
  | maxn (d : BitVec 5) (a : BitVec 5) (b : BitVec 5)
  /-- CLZ (R142). Writes the count of leading zero bits of s[a], 64 for zero. -/
  | clz (d : BitVec 5) (a : BitVec 5)
  /-- CTZ (R142). Writes the count of trailing zero bits of s[a], 64 for zero. -/
  | ctz (d : BitVec 5) (a : BitVec 5)
  /-- POPC (R142). Writes the number of 1 bits of s[a]. -/
  | popc (d : BitVec 5) (a : BitVec 5)
  /-- CLMUL (R142). Writes bits 63:0 of the carry-less product. -/
  | clmul (d : BitVec 5) (a : BitVec 5) (b : BitVec 5)
  /-- CLMULH (R142). Writes bits 127:64 of the carry-less product. -/
  | clmulh (d : BitVec 5) (a : BitVec 5) (b : BitVec 5)
  /-- ADDI (R143). Adds a sign-extended 15-bit immediate to a scalar register. -/
  | addi (d : BitVec 5) (a : BitVec 5) (i : BitVec 15)
  /-- ANDI (R143). ANDs a scalar register with a sign-extended immediate. -/
  | andi (d : BitVec 5) (a : BitVec 5) (i : BitVec 15)
  /-- ORI (R143). ORs a scalar register with a sign-extended immediate. -/
  | ori (d : BitVec 5) (a : BitVec 5) (i : BitVec 15)
  /-- XORI (R143). XORs a scalar register with a sign-extended immediate. -/
  | xori (d : BitVec 5) (a : BitVec 5) (i : BitVec 15)
  /-- SLLI (R143). Shifts a scalar register left by an immediate amount. -/
  | slli (d : BitVec 5) (a : BitVec 5) (s : BitVec 6)
  /-- SRLI (R143). Shifts a scalar register right logically by an immediate amount. -/
  | srli (d : BitVec 5) (a : BitVec 5) (s : BitVec 6)
  /-- SRAI (R143). Shifts a scalar register right arithmetically by an immediate amount. -/
  | srai (d : BitVec 5) (a : BitVec 5) (s : BitVec 6)
  /-- SLTI (R143). Writes 1 if s[a] is signed-less than the sign-extended immediate. -/
  | slti (d : BitVec 5) (a : BitVec 5) (i : BitVec 15)
  /-- SLTNI (R143). Writes 1 if s[a] is unsigned-less than the sign-extended immediate. -/
  | sltni (d : BitVec 5) (a : BitVec 5) (i : BitVec 15)
  /-- MOVW (R144). Writes the sign-extended 20-bit immediate shifted left by 12. -/
  | movw (d : BitVec 5) (i : BitVec 20)
  /-- ADRP (R144). Writes pc plus the sign-extended immediate shifted left by 12. -/
  | adrp (d : BitVec 5) (i : BitVec 20)
  /-- MOVK (R144). Replaces one 16-bit field of s[d], keeping the other bits. -/
  | movk (d : BitVec 5) (p : BitVec 2) (v : BitVec 16)
  /-- FADD (R146). Scalar FP add, rounded in KFCTL.RM. -/
  | fadd (d : BitVec 5) (a : BitVec 5) (b : BitVec 5) (f : BitVec 1)
  /-- FSUB (R146). Scalar FP subtract, rounded in KFCTL.RM. -/
  | fsub (d : BitVec 5) (a : BitVec 5) (b : BitVec 5) (f : BitVec 1)
  /-- FMUL (R146). Scalar FP multiply, rounded in KFCTL.RM. -/
  | fmul (d : BitVec 5) (a : BitVec 5) (b : BitVec 5) (f : BitVec 1)
  /-- FDIV (R146). Scalar FP divide, rounded in KFCTL.RM. -/
  | fdiv (d : BitVec 5) (a : BitVec 5) (b : BitVec 5) (f : BitVec 1)
  /-- FSQRT (R146). Scalar FP square root, rounded in KFCTL.RM. -/
  | fsqrt (d : BitVec 5) (a : BitVec 5) (f : BitVec 1)
  /-- FMA (R146). Scalar fused multiply-add into s[d], rounded once. -/
  | fma (d : BitVec 5) (a : BitVec 5) (b : BitVec 5) (f : BitVec 1)
  /-- FMIN (R146). Scalar minimumNumber of two FP values. -/
  | fmin (d : BitVec 5) (a : BitVec 5) (b : BitVec 5) (f : BitVec 1)
  /-- FMAX (R146). Scalar maximumNumber of two FP values. -/
  | fmax (d : BitVec 5) (a : BitVec 5) (b : BitVec 5) (f : BitVec 1)
  /-- FCVT (R147). Converts between FP and integer or between FP formats by the code in b. -/
  | fcvt (d : BitVec 5) (a : BitVec 5) (c : BitVec 5) (f : BitVec 1)
  /-- FCLASS (R149). Writes a one-hot class of the FP value in s[a]. -/
  | fclass (d : BitVec 5) (a : BitVec 5) (f : BitVec 1)
  /-- FCMP (R148). Writes 1 when the FP condition in mk holds between two values. -/
  | fcmp (d : BitVec 5) (a : BitVec 5) (b : BitVec 5) (c : BitVec 3) (f : BitVec 1)
  /-- BEQ (R150). Branches when two scalar registers are equal. -/
  | beq (a : BitVec 5) (b : BitVec 5) (o : BitVec 12)
  /-- BNE (R150). Branches when two scalar registers differ. -/
  | bne (a : BitVec 5) (b : BitVec 5) (o : BitVec 12)
  /-- BLT (R150). Branches when s[a] is signed-less than s[b]. -/
  | blt (a : BitVec 5) (b : BitVec 5) (o : BitVec 12)
  /-- BGE (R150). Branches when s[a] is signed-greater-or-equal to s[b]. -/
  | bge (a : BitVec 5) (b : BitVec 5) (o : BitVec 12)
  /-- BLTN (R150). Branches when s[a] is unsigned-less than s[b]. -/
  | bltn (a : BitVec 5) (b : BitVec 5) (o : BitVec 12)
  /-- BGEN (R150). Branches when s[a] is unsigned-greater-or-equal to s[b]. -/
  | bgen (a : BitVec 5) (b : BitVec 5) (o : BitVec 12)
  /-- JAL (R151). Links pc+4 into s1 and jumps by a 25-bit word offset. -/
  | jal (o : BitVec 25)
  /-- JALR (R152). Checks the register target, links pc+4 into s[d] and jumps. -/
  | jalr (d : BitVec 5) (a : BitVec 5) (i : BitVec 15)
  /-- LDB (R155). Loads a sign-extended byte after the checks of R155. -/
  | ldb (d : BitVec 5) (b : BitVec 5) (o : BitVec 12)
  /-- LDH (R155). Loads a sign-extended half. -/
  | ldh (d : BitVec 5) (b : BitVec 5) (o : BitVec 12)
  /-- LDW (R155). Loads a sign-extended word. -/
  | ldw (d : BitVec 5) (b : BitVec 5) (o : BitVec 12)
  /-- LDD (R155). Loads a dword. -/
  | ldd (d : BitVec 5) (b : BitVec 5) (o : BitVec 12)
  /-- LDBN (R155). Loads a zero-extended byte. -/
  | ldbn (d : BitVec 5) (b : BitVec 5) (o : BitVec 12)
  /-- LDHN (R155). Loads a zero-extended half. -/
  | ldhn (d : BitVec 5) (b : BitVec 5) (o : BitVec 12)
  /-- LDWN (R155). Loads a zero-extended word. -/
  | ldwn (d : BitVec 5) (b : BitVec 5) (o : BitVec 12)
  /-- STB (R155). Stores the low byte of a scalar register. -/
  | stb (s : BitVec 5) (b : BitVec 5) (o : BitVec 12)
  /-- STH (R155). Stores the low half of a scalar register. -/
  | sth (s : BitVec 5) (b : BitVec 5) (o : BitVec 12)
  /-- STW (R155). Stores the low word of a scalar register. -/
  | stw (s : BitVec 5) (b : BitVec 5) (o : BitVec 12)
  /-- STD (R155). Stores a scalar register dword. -/
  | std (s : BitVec 5) (b : BitVec 5) (o : BitVec 12)
  /-- LDX (R155). Indexed scalar load at s[a] plus scaled s[b], with the size code in fn. -/
  | ldx (d : BitVec 5) (a : BitVec 5) (b : BitVec 5) (s : BitVec 2) (z : BitVec 3)
  /-- STX (R155). Indexed scalar store at s[a] plus scaled s[b]. -/
  | stx (d : BitVec 5) (a : BitVec 5) (b : BitVec 5) (s : BitVec 2) (z : BitVec 2)
  /-- AMOADD (R160). Atomically adds the operand at its owner and returns the old value. -/
  | amoadd (d : BitVec 5) (a : BitVec 5) (b : BitVec 5) (w : BitVec 1) (q : BitVec 1) (r : BitVec 1) (s : BitVec 3)
  /-- AMOAND (R160). Atomic AND returning the old value. -/
  | amoand (d : BitVec 5) (a : BitVec 5) (b : BitVec 5) (w : BitVec 1) (q : BitVec 1) (r : BitVec 1) (s : BitVec 3)
  /-- AMOOR (R160). Atomic OR returning the old value. -/
  | amoor (d : BitVec 5) (a : BitVec 5) (b : BitVec 5) (w : BitVec 1) (q : BitVec 1) (r : BitVec 1) (s : BitVec 3)
  /-- AMOXOR (R160). Atomic XOR returning the old value. -/
  | amoxor (d : BitVec 5) (a : BitVec 5) (b : BitVec 5) (w : BitVec 1) (q : BitVec 1) (r : BitVec 1) (s : BitVec 3)
  /-- AMOMIN (R160). Atomic signed minimum returning the old value. -/
  | amomin (d : BitVec 5) (a : BitVec 5) (b : BitVec 5) (w : BitVec 1) (q : BitVec 1) (r : BitVec 1) (s : BitVec 3)
  /-- AMOMAX (R160). Atomic signed maximum returning the old value. -/
  | amomax (d : BitVec 5) (a : BitVec 5) (b : BitVec 5) (w : BitVec 1) (q : BitVec 1) (r : BitVec 1) (s : BitVec 3)
  /-- AMOMINN (R160). Atomic unsigned minimum returning the old value. -/
  | amominn (d : BitVec 5) (a : BitVec 5) (b : BitVec 5) (w : BitVec 1) (q : BitVec 1) (r : BitVec 1) (s : BitVec 3)
  /-- AMOMAXN (R160). Atomic unsigned maximum returning the old value. -/
  | amomaxn (d : BitVec 5) (a : BitVec 5) (b : BitVec 5) (w : BitVec 1) (q : BitVec 1) (r : BitVec 1) (s : BitVec 3)
  /-- AMOSWP (R160). Atomic swap returning the old value. -/
  | amoswp (d : BitVec 5) (a : BitVec 5) (b : BitVec 5) (w : BitVec 1) (q : BitVec 1) (r : BitVec 1) (s : BitVec 3)
  /-- AMOCAS (R160). Atomic compare-and-swap against the expected value in s[d]. -/
  | amocas (d : BitVec 5) (a : BitVec 5) (b : BitVec 5) (w : BitVec 1) (q : BitVec 1) (r : BitVec 1) (s : BitVec 3)
  /-- FENCE (R205). Holds commit until every earlier access of the pred classes is performed at the scope. -/
  | fence (p : BitVec 5) (s : BitVec 5) (c : BitVec 3)
  /-- SETVL (R174). Sets KVTYPE from a register image and VL from the requested count. -/
  | setvl (d : BitVec 5) (a : BitVec 5) (b : BitVec 5)
  /-- LIVE (R175). Loads KLM from a scalar register. -/
  | live (a : BitVec 5)
  /-- SETVLI (R174). Sets KVTYPE from an immediate image and VL from the requested count. -/
  | setvli (d : BitVec 5) (a : BitVec 5) (x : BitVec 1) (s : BitVec 1) (r : BitVec 2) (g : BitVec 3) (t : BitVec 4) (w : BitVec 2)
  /-- VADD_VV (R177). Element-wise integer add of two vectors. -/
  | vaddVV (d : BitVec 5) (a : BitVec 5) (b : BitVec 5) (m : BitVec 3)
  /-- VADD_VS (R177). Element-wise integer add of a vector and a scalar. -/
  | vaddVS (d : BitVec 5) (a : BitVec 5) (b : BitVec 5) (m : BitVec 3)
  /-- VSUB_VV (R177). Element-wise integer subtract of two vectors. -/
  | vsubVV (d : BitVec 5) (a : BitVec 5) (b : BitVec 5) (m : BitVec 3)
  /-- VSUB_VS (R177). Element-wise integer subtract of a scalar. -/
  | vsubVS (d : BitVec 5) (a : BitVec 5) (b : BitVec 5) (m : BitVec 3)
  /-- VMUL_VV (R177). Element-wise integer multiply of two vectors. -/
  | vmulVV (d : BitVec 5) (a : BitVec 5) (b : BitVec 5) (m : BitVec 3)
  /-- VMUL_VS (R177). Element-wise integer multiply by a scalar. -/
  | vmulVS (d : BitVec 5) (a : BitVec 5) (b : BitVec 5) (m : BitVec 3)
  /-- VMULH_VV (R177). Element-wise high half of the signed product of two vectors. -/
  | vmulhVV (d : BitVec 5) (a : BitVec 5) (b : BitVec 5) (m : BitVec 3)
  /-- VMULH_VS (R177). Element-wise high half of the signed product with a scalar. -/
  | vmulhVS (d : BitVec 5) (a : BitVec 5) (b : BitVec 5) (m : BitVec 3)
  /-- VMULHN_VV (R177). Element-wise high half of the unsigned product of two vectors. -/
  | vmulhnVV (d : BitVec 5) (a : BitVec 5) (b : BitVec 5) (m : BitVec 3)
  /-- VMULHN_VS (R177). Element-wise high half of the unsigned product with a scalar. -/
  | vmulhnVS (d : BitVec 5) (a : BitVec 5) (b : BitVec 5) (m : BitVec 3)
  /-- VAND_VV (R177). Element-wise AND of two vectors. -/
  | vandVV (d : BitVec 5) (a : BitVec 5) (b : BitVec 5) (m : BitVec 3)
  /-- VAND_VS (R177). Element-wise AND with a scalar. -/
  | vandVS (d : BitVec 5) (a : BitVec 5) (b : BitVec 5) (m : BitVec 3)
  /-- VOR_VV (R177). Element-wise OR of two vectors. -/
  | vorVV (d : BitVec 5) (a : BitVec 5) (b : BitVec 5) (m : BitVec 3)
  /-- VOR_VS (R177). Element-wise OR with a scalar. -/
  | vorVS (d : BitVec 5) (a : BitVec 5) (b : BitVec 5) (m : BitVec 3)
  /-- VXOR_VV (R177). Element-wise XOR of two vectors. -/
  | vxorVV (d : BitVec 5) (a : BitVec 5) (b : BitVec 5) (m : BitVec 3)
  /-- VXOR_VS (R177). Element-wise XOR with a scalar. -/
  | vxorVS (d : BitVec 5) (a : BitVec 5) (b : BitVec 5) (m : BitVec 3)
  /-- VSLL_VV (R177). Element-wise shift left by vector amounts. -/
  | vsllVV (d : BitVec 5) (a : BitVec 5) (b : BitVec 5) (m : BitVec 3)
  /-- VSLL_VS (R177). Element-wise shift left by a scalar amount. -/
  | vsllVS (d : BitVec 5) (a : BitVec 5) (b : BitVec 5) (m : BitVec 3)
  /-- VSRL_VV (R177). Element-wise logical shift right by vector amounts. -/
  | vsrlVV (d : BitVec 5) (a : BitVec 5) (b : BitVec 5) (m : BitVec 3)
  /-- VSRL_VS (R177). Element-wise logical shift right by a scalar amount. -/
  | vsrlVS (d : BitVec 5) (a : BitVec 5) (b : BitVec 5) (m : BitVec 3)
  /-- VSRA_VV (R177). Element-wise arithmetic shift right by vector amounts. -/
  | vsraVV (d : BitVec 5) (a : BitVec 5) (b : BitVec 5) (m : BitVec 3)
  /-- VSRA_VS (R177). Element-wise arithmetic shift right by a scalar amount. -/
  | vsraVS (d : BitVec 5) (a : BitVec 5) (b : BitVec 5) (m : BitVec 3)
  /-- VMIN_VV (R177). Element-wise signed minimum of two vectors. -/
  | vminVV (d : BitVec 5) (a : BitVec 5) (b : BitVec 5) (m : BitVec 3)
  /-- VMIN_VS (R177). Element-wise signed minimum with a scalar. -/
  | vminVS (d : BitVec 5) (a : BitVec 5) (b : BitVec 5) (m : BitVec 3)
  /-- VMAX_VV (R177). Element-wise signed maximum of two vectors. -/
  | vmaxVV (d : BitVec 5) (a : BitVec 5) (b : BitVec 5) (m : BitVec 3)
  /-- VMAX_VS (R177). Element-wise signed maximum with a scalar. -/
  | vmaxVS (d : BitVec 5) (a : BitVec 5) (b : BitVec 5) (m : BitVec 3)
  /-- VMINN_VV (R177). Element-wise unsigned minimum of two vectors. -/
  | vminnVV (d : BitVec 5) (a : BitVec 5) (b : BitVec 5) (m : BitVec 3)
  /-- VMINN_VS (R177). Element-wise unsigned minimum with a scalar. -/
  | vminnVS (d : BitVec 5) (a : BitVec 5) (b : BitVec 5) (m : BitVec 3)
  /-- VMAXN_VV (R177). Element-wise unsigned maximum of two vectors. -/
  | vmaxnVV (d : BitVec 5) (a : BitVec 5) (b : BitVec 5) (m : BitVec 3)
  /-- VMAXN_VS (R177). Element-wise unsigned maximum with a scalar. -/
  | vmaxnVS (d : BitVec 5) (a : BitVec 5) (b : BitVec 5) (m : BitVec 3)
  /-- VSADD_VV (R177). Element-wise saturating add of two vectors. -/
  | vsaddVV (d : BitVec 5) (a : BitVec 5) (b : BitVec 5) (m : BitVec 3)
  /-- VSADD_VS (R177). Element-wise saturating add with a scalar. -/
  | vsaddVS (d : BitVec 5) (a : BitVec 5) (b : BitVec 5) (m : BitVec 3)
  /-- VSSUB_VV (R177). Element-wise saturating subtract of two vectors. -/
  | vssubVV (d : BitVec 5) (a : BitVec 5) (b : BitVec 5) (m : BitVec 3)
  /-- VSSUB_VS (R177). Element-wise saturating subtract of a scalar. -/
  | vssubVS (d : BitVec 5) (a : BitVec 5) (b : BitVec 5) (m : BitVec 3)
  /-- VMERGE_VV (R177). Bitwise merge of va into vd under a vector bit mask. -/
  | vmergeVV (d : BitVec 5) (a : BitVec 5) (b : BitVec 5) (m : BitVec 3)
  /-- VMERGE_VS (R177). Bitwise merge of va into vd under a scalar bit mask. -/
  | vmergeVS (d : BitVec 5) (a : BitVec 5) (b : BitVec 5) (m : BitVec 3)
  /-- VFADD_VV (R178). Element-wise FP add of two vectors. -/
  | vfaddVV (d : BitVec 5) (a : BitVec 5) (b : BitVec 5) (m : BitVec 3)
  /-- VFADD_VS (R178). Element-wise FP add of a scalar. -/
  | vfaddVS (d : BitVec 5) (a : BitVec 5) (b : BitVec 5) (m : BitVec 3)
  /-- VFSUB_VV (R178). Element-wise FP subtract of two vectors. -/
  | vfsubVV (d : BitVec 5) (a : BitVec 5) (b : BitVec 5) (m : BitVec 3)
  /-- VFSUB_VS (R178). Element-wise FP subtract of a scalar. -/
  | vfsubVS (d : BitVec 5) (a : BitVec 5) (b : BitVec 5) (m : BitVec 3)
  /-- VFMUL_VV (R178). Element-wise FP multiply of two vectors. -/
  | vfmulVV (d : BitVec 5) (a : BitVec 5) (b : BitVec 5) (m : BitVec 3)
  /-- VFMUL_VS (R178). Element-wise FP multiply by a scalar. -/
  | vfmulVS (d : BitVec 5) (a : BitVec 5) (b : BitVec 5) (m : BitVec 3)
  /-- VFDIV_VV (R178). Element-wise FP divide of two vectors. -/
  | vfdivVV (d : BitVec 5) (a : BitVec 5) (b : BitVec 5) (m : BitVec 3)
  /-- VFDIV_VS (R178). Element-wise FP divide by a scalar. -/
  | vfdivVS (d : BitVec 5) (a : BitVec 5) (b : BitVec 5) (m : BitVec 3)
  /-- VFSQRT (R178). Element-wise FP square root. -/
  | vfsqrt (d : BitVec 5) (a : BitVec 5) (m : BitVec 3)
  /-- VFMA_VV (R178). Element-wise fused multiply-add of two vectors into vd. -/
  | vfmaVV (d : BitVec 5) (a : BitVec 5) (b : BitVec 5) (m : BitVec 3)
  /-- VFMA_VS (R178). Element-wise fused multiply-add by a scalar into vd. -/
  | vfmaVS (d : BitVec 5) (a : BitVec 5) (b : BitVec 5) (m : BitVec 3)
  /-- VFNMS_VV (R178). Element-wise fused negated multiply plus vd, vector operand. -/
  | vfnmsVV (d : BitVec 5) (a : BitVec 5) (b : BitVec 5) (m : BitVec 3)
  /-- VFNMS_VS (R178). Element-wise fused negated multiply plus vd, scalar operand. -/
  | vfnmsVS (d : BitVec 5) (a : BitVec 5) (b : BitVec 5) (m : BitVec 3)
  /-- VFMIN_VV (R178). Element-wise FP minimumNumber of two vectors. -/
  | vfminVV (d : BitVec 5) (a : BitVec 5) (b : BitVec 5) (m : BitVec 3)
  /-- VFMIN_VS (R178). Element-wise FP minimumNumber with a scalar. -/
  | vfminVS (d : BitVec 5) (a : BitVec 5) (b : BitVec 5) (m : BitVec 3)
  /-- VFMAX_VV (R178). Element-wise FP maximumNumber of two vectors. -/
  | vfmaxVV (d : BitVec 5) (a : BitVec 5) (b : BitVec 5) (m : BitVec 3)
  /-- VFMAX_VS (R178). Element-wise FP maximumNumber with a scalar. -/
  | vfmaxVS (d : BitVec 5) (a : BitVec 5) (b : BitVec 5) (m : BitVec 3)
  /-- VFCVT (R179). Converts elements from the source type in b to KVTYPE.ET, with MX scales per R180. -/
  | vfcvt (d : BitVec 5) (a : BitVec 5) (t : BitVec 4) (m : BitVec 3)
  /-- VFEXP2 (R100). Element-wise correctly rounded 2^x. -/
  | vfexp2 (d : BitVec 5) (a : BitVec 5) (m : BitVec 3)
  /-- VCMP_VV (R181). Integer compare of two vectors into a mask register. -/
  | vcmpVV (d : BitVec 3) (a : BitVec 5) (b : BitVec 5) (m : BitVec 3) (c : BitVec 3)
  /-- VCMP_VS (R181). Integer compare of a vector with a scalar into a mask register. -/
  | vcmpVS (d : BitVec 3) (a : BitVec 5) (b : BitVec 5) (m : BitVec 3) (c : BitVec 3)
  /-- VFCMP_VV (R182). FP compare of two vectors into a mask register. -/
  | vfcmpVV (d : BitVec 3) (a : BitVec 5) (b : BitVec 5) (m : BitVec 3) (c : BitVec 3)
  /-- VFCMP_VS (R182). FP compare of a vector with a scalar into a mask register. -/
  | vfcmpVS (d : BitVec 3) (a : BitVec 5) (b : BitVec 5) (m : BitVec 3) (c : BitVec 3)
  /-- MAND (R183). Bitwise AND of two mask registers for active bits. -/
  | mand (d : BitVec 3) (a : BitVec 3) (b : BitVec 3) (m : BitVec 3)
  /-- MOR (R183). Bitwise OR of two mask registers for active bits. -/
  | mor (d : BitVec 3) (a : BitVec 3) (b : BitVec 3) (m : BitVec 3)
  /-- MXOR (R183). Bitwise XOR of two mask registers for active bits. -/
  | mxor (d : BitVec 3) (a : BitVec 3) (b : BitVec 3) (m : BitVec 3)
  /-- MPOPC (R183). Writes the count of active set mask bits to a scalar register. -/
  | mpopc (d : BitVec 5) (a : BitVec 3) (m : BitVec 3)
  /-- MFIRST (R183). Writes the index of the first active set mask bit, or all ones. -/
  | mfirst (d : BitVec 5) (a : BitVec 3) (m : BitVec 3)
  /-- MTOV (R183). Packs mask bits into vector elements. -/
  | mtov (d : BitVec 5) (a : BitVec 3) (m : BitVec 3)
  /-- VTOM (R183). Unpacks bits of vector elements into a mask register. -/
  | vtom (d : BitVec 3) (a : BitVec 5) (m : BitVec 3)
  /-- VSLUP (R185). Slides vector elements up by a scalar offset. -/
  | vslup (d : BitVec 5) (a : BitVec 5) (b : BitVec 5) (m : BitVec 3)
  /-- VSLDN (R185). Slides vector elements down by a scalar offset, filling with 0. -/
  | vsldn (d : BitVec 5) (a : BitVec 5) (b : BitVec 5) (m : BitVec 3)
  /-- VRGATH (R186). Gathers vector elements by a vector of indices. -/
  | vrgath (d : BitVec 5) (a : BitVec 5) (b : BitVec 5) (m : BitVec 3)
  /-- VCOMP (R187). Compacts the active elements to the front of vd. -/
  | vcomp (d : BitVec 5) (a : BitVec 5) (m : BitVec 3)
  /-- VIOTA (R187). Writes to each active element the count of earlier set mask bits. -/
  | viota (d : BitVec 5) (a : BitVec 3) (m : BitVec 3)
  /-- VEXT (R188). Moves one vector element to a scalar register. -/
  | vext (d : BitVec 5) (a : BitVec 5) (b : BitVec 5) (m : BitVec 3)
  /-- VINS (R188). Moves a scalar value into one vector element. -/
  | vins (d : BitVec 5) (a : BitVec 5) (b : BitVec 5) (m : BitVec 3)
  /-- VBCST (R188). Broadcasts a scalar value to the active elements. -/
  | vbcst (d : BitVec 5) (a : BitVec 5) (m : BitVec 3)
  /-- VRED (R190). Reduces active elements by the fixed tree into element 0 of vd. -/
  | vred (d : BitVec 5) (a : BitVec 5) (m : BitVec 3) (o : BitVec 4)
  /-- VSCAN (R99). Writes the running ascending scan of active elements. -/
  | vscan (d : BitVec 5) (a : BitVec 5) (m : BitVec 3) (o : BitVec 4)
  /-- VCLMUL_VV (R191). Element-wise low half of the carry-less product of two vectors. -/
  | vclmulVV (d : BitVec 5) (a : BitVec 5) (b : BitVec 5) (m : BitVec 3)
  /-- VCLMUL_VS (R191). Element-wise low half of the carry-less product with a scalar. -/
  | vclmulVS (d : BitVec 5) (a : BitVec 5) (b : BitVec 5) (m : BitVec 3)
  /-- VCLMULH_VV (R191). Element-wise high half of the carry-less product of two vectors. -/
  | vclmulhVV (d : BitVec 5) (a : BitVec 5) (b : BitVec 5) (m : BitVec 3)
  /-- VCLMULH_VS (R191). Element-wise high half of the carry-less product with a scalar. -/
  | vclmulhVS (d : BitVec 5) (a : BitVec 5) (b : BitVec 5) (m : BitVec 3)
  /-- VLD (R193). Unit-stride vector load, checked group by group. -/
  | vld (d : BitVec 5) (a : BitVec 5) (m : BitVec 3) (h : BitVec 1)
  /-- VLDS (R193). Strided vector load. -/
  | vlds (d : BitVec 5) (a : BitVec 5) (b : BitVec 5) (m : BitVec 3) (h : BitVec 1)
  /-- VLDX (R193). Indexed vector gather load. -/
  | vldx (d : BitVec 5) (a : BitVec 5) (b : BitVec 5) (m : BitVec 3) (h : BitVec 1)
  /-- VLDFF (R198). First-fault vector load that trims VL at a later failing element. -/
  | vldff (d : BitVec 5) (a : BitVec 5) (m : BitVec 3) (h : BitVec 1)
  /-- VLDXP (R199). Peer-address vector load recording failures in a fault mask. -/
  | vldxp (d : BitVec 5) (a : BitVec 5) (b : BitVec 5) (m : BitVec 3) (f : BitVec 3) (h : BitVec 1)
  /-- VST (R193). Unit-stride vector store. -/
  | vst (d : BitVec 5) (a : BitVec 5) (m : BitVec 3) (h : BitVec 1)
  /-- VSTS (R193). Strided vector store. -/
  | vsts (d : BitVec 5) (a : BitVec 5) (b : BitVec 5) (m : BitVec 3) (h : BitVec 1)
  /-- VSTX (R193). Indexed vector scatter store, unordered among elements. -/
  | vstx (d : BitVec 5) (a : BitVec 5) (b : BitVec 5) (m : BitVec 3) (h : BitVec 1)
  /-- VSTXO (R196). Indexed vector scatter store in ascending element order. -/
  | vstxo (d : BitVec 5) (a : BitVec 5) (b : BitVec 5) (m : BitVec 3) (h : BitVec 1)
  /-- VSTXP (R199). Peer-address vector store recording failures in a fault mask. -/
  | vstxp (d : BitVec 5) (a : BitVec 5) (b : BitVec 5) (m : BitVec 3) (f : BitVec 3) (h : BitVec 1)
  /-- VSCA (R202). Scatter-accumulate: sorts, segments and sends combined updates per group. -/
  | vsca (d : BitVec 5) (a : BitVec 5) (b : BitVec 5) (m : BitVec 3) (o : BitVec 2)
  /-- TLDF (R211). Loads full tiles and empties them, trimming VL or suspending when the first is empty. -/
  | tldf (d : BitVec 5) (a : BitVec 5) (m : BitVec 3)
  /-- TSTF (R213). Filling store of tiles to peer addresses with a fault mask. -/
  | tstf (d : BitVec 5) (a : BitVec 5) (m : BitVec 3) (f : BitVec 3)
  /-- TWAIT (R212). Waits, suspending if needed, until a tile is full and unarmed. -/
  | twait (a : BitVec 5)
  /-- TSTAT (R209). Returns a tile's tag word. -/
  | tstat (d : BitVec 5) (a : BitVec 5)
  /-- TSET (R210). Sets a tile's FULL, disarms it and binds or unbinds a token. -/
  | tset (a : BitVec 5) (b : BitVec 5)
  /-- TARM (R215). Arms an empty tile as a combining target with a count and operator. -/
  | tarm (a : BitVec 5) (b : BitVec 5)
  /-- TCMB (R216). Sends 256 bytes as one contribution to a slot of a combining tile. -/
  | tcmb (d : BitVec 5) (a : BitVec 5) (b : BitVec 5) (m : BitVec 3) (f : BitVec 3)
  /-- TKNEW (R223). Allocates a token on the own core, or resets an own token after pending reaches 0. -/
  | tknew (d : BitVec 5) (a : BitVec 5)
  /-- TKFREE (R224). Frees an own token once pending is 0. -/
  | tkfree (a : BitVec 5)
  /-- TKARM (R225). Arms a token to forward one signal when its count reaches a threshold. -/
  | tkarm (a : BitVec 5) (b : BitVec 5)
  /-- TKSIG (R226). Sends a contribution to any token after a release of earlier accesses. -/
  | tksig (a : BitVec 5) (b : BitVec 5)
  /-- TKRD (R227). Reads an own token's count, pending and LATE as an acquire. -/
  | tkrd (d : BitVec 5) (a : BitVec 5)
  /-- AWAIT (R39). Compares a token count with a threshold and suspends with a live set when not met. -/
  | await (d : BitVec 5) (a : BitVec 5) (b : BitVec 5)
  /-- YIELD (R228). Saves the context with a live set and makes the strand Runnable. -/
  | yield (d : BitVec 5)
  /-- CPY (R231). Checks and queues a linear copy that completes into a token. -/
  | cpy (d : BitVec 5) (a : BitVec 5) (b : BitVec 5) (f : BitVec 3) (t : BitVec 5)
  /-- CPY2D (R232). Checks and queues a two-dimensional copy. -/
  | cpy2d (d : BitVec 5) (a : BitVec 5) (b : BitVec 5) (f : BitVec 3) (t : BitVec 5)
  /-- CPYG (R235). Issues a group load whose pieces are matched on the porch. -/
  | cpyg (d : BitVec 5) (a : BitVec 5) (b : BitVec 5) (t : BitVec 5)
  /-- GJOIN (R234). Enrols the strand in a group through the command processor. -/
  | gjoin (a : BitVec 5) (i : BitVec 12)
  /-- GLEAVE (R234). Withdraws the strand from a group and re-tests porch loads. -/
  | gleave (a : BitVec 5) (i : BitVec 12)
  /-- BAR (R237). Arrives at the gang barrier, with a token or suspending. -/
  | bar (a : BitVec 5)
  /-- SPAWN (R239). Hands a LAUNCH packet to the scheduler and returns a status. -/
  | spawn (d : BitVec 5) (a : BitVec 5)
  /-- SEXIT (R240). Drains, leaves groups and barrier count, and moves the strand to Exited. -/
  | sexit
  /-- SID (R241). Writes rank, gang size, core, device or ASID by selector. -/
  | sid (d : BitVec 5) (s : BitVec 4)
  /-- MOPA (R248). Adds an outer product into the enabled cells of an accumulator. -/
  | mopa (c : BitVec 3) (a : BitVec 5) (b : BitVec 5) (r : BitVec 3) (k : BitVec 3)
  /-- MOPS (R248). Subtracts an outer product from the enabled cells of an accumulator. -/
  | mops (c : BitVec 3) (a : BitVec 5) (b : BitVec 5) (r : BitVec 3) (k : BitVec 3)
  /-- MZERO (R250). Writes +0 to every enabled cell and clears its poison. -/
  | mzero (c : BitVec 3) (r : BitVec 3) (k : BitVec 3)
  /-- MRD (R251). Reads one accumulator row or column into a vector register. -/
  | mrd (c : BitVec 3) (o : BitVec 1) (a : BitVec 5) (b : BitVec 5) (r : BitVec 3) (k : BitVec 3)
  /-- MWR (R251). Writes one accumulator row or column from a vector register. -/
  | mwr (c : BitVec 3) (o : BitVec 1) (a : BitVec 5) (b : BitVec 5) (r : BitVec 3) (k : BitVec 3)
  /-- MLDT (R253). Loads the enabled cells of an accumulator from memory. -/
  | mldt (c : BitVec 3) (o : BitVec 1) (a : BitVec 5) (b : BitVec 5) (r : BitVec 3) (k : BitVec 3)
  /-- MSTT (R253). Stores the enabled cells of an accumulator to memory. -/
  | mstt (c : BitVec 3) (o : BitVec 1) (a : BitVec 5) (b : BitVec 5) (r : BitVec 3) (k : BitVec 3)
  /-- MPATCH (R252). Replaces or adds into one accumulator row from a vector register. -/
  | mpatch (c : BitVec 3) (o : BitVec 1) (a : BitVec 5) (b : BitVec 5) (r : BitVec 3) (k : BitVec 3)
  /-- WSET (R256). Writes a watch register whole from four scalar registers. -/
  | wset (n : BitVec 3) (a : BitVec 5)
  /-- WCLR (R256). Clears all four registers of a watch register. -/
  | wclr (n : BitVec 3)
  /-- BRK (R259). Drains the vector queue and traps with cause 0x0B. -/
  | brk (c : BitVec 12)
  /-- CALLK (R261). Drains the vector queue and traps with cause 0x20 to the supervisor. -/
  | callk (n : BitVec 12)
  /-- ERET (R262). Returns from a handler and resumes the trapped instruction at its group. -/
  | eret
  /-- KRD (R263). Reads a K-register after the vector queue drains. -/
  | krd (d : BitVec 5) (k : BitVec 12)
  /-- KWR (R263). Writes a K-register after the vector queue drains. -/
  | kwr (a : BitVec 5) (k : BitVec 12)
  /-- TLBINV_ALL (R264). Invalidates every translation entry of the device and waits for users. -/
  | tlbinvAll
  /-- TLBINV_ASID (R264). Invalidates every translation entry of one ASID. -/
  | tlbinvAsid (d : BitVec 5)
  /-- TLBINV_PAGE (R264). Invalidates the entries of one ASID covering one address. -/
  | tlbinvPage (d : BitVec 5) (a : BitVec 5)
  /-- MDEAD (R265). Declares a global range dead, discarding lines and clearing poison. -/
  | mdead (d : BitVec 5) (a : BitVec 5)
  /-- SFLUSH (R266). Drains the store buffer and invalidates one or all scalar L1 lines. -/
  | sflush (a : BitVec 5)
  /-- DEFERRED_TRAP (R429). Takes a deferred cause at the first quiet instruction boundary or cancels a wait. -/
  | deferredTrap
  /-- CONTAINMENT (R395). Stops the gang or strand, ends its transfers and writes fault records. -/
  | containment
  /-- ISSUE_ROTATION (R48). After 16,384 cycles saves the whole state of the Running strand for an equal or higher strand. -/
  | issueRotation
  /-- AGEING (R340). Raises a passed-over Runnable strand's boost every 4,096 cycles. -/
  | ageing
  /-- CONTEXT_SAVE_END (R46). Ends a context save, refills a larder slot and lets the selector choose. -/
  | contextSaveEnd
  /-- CONTEXT_RESTORE_END (R46). Ends a restore, zeroing non-live state, and makes the strand Running. -/
  | contextRestoreEnd
  /-- TOKEN_COMPLETION (R36). Applies a completion to a token's count and pending. -/
  | tokenCompletion
  /-- REMOTE_REPLY (R42). Writes a remote reply into the register or saved context and clears its mark. -/
  | remoteReply
  /-- STORE_SEND (R301). Sends the oldest store-buffer entry once earlier entries to other destinations are acknowledged. -/
  | storeSend
  /-- L1_FILL (R280). Fills a scalar L1 line from its slice and sets the presence bit. -/
  | l1Fill
  /-- INVALIDATION_ACK (R280). An L1 acknowledgement; the last lets the slice acknowledge the write. -/
  | invalidationAck
  /-- PAGE_WALK (R274). Walks the page tables on a hub walker and fills the translation caches. -/
  | pageWalk
  /-- COPY_ACCEPT (R231). Accepts a queued copy when the front end and interlock table have room, raising pending. -/
  | copyAccept
  /-- COPY_COMPLETE (R231). Completes a copy when every byte has landed, contributing to its token. -/
  | copyComplete
  /-- FILL (R214). A fill write lands at a tile it owns, or waits in the overrun queue. -/
  | fill
  /-- FILL_RETRY (R432). Retries a refused filling write after 512 fabric cycles, ending after 2,048 refusals. -/
  | fillRetry
  /-- FILL_END (R214). Ends a fill's tile ownership before its last beat when its sender stops. -/
  | fillEnd
  /-- COMBINE (R216). A contribution reaches a combining tile and is held, refused or kept waiting. -/
  | combine
  /-- PORCH_REQUEST (R236). A CPYG piece arrives at its slice and joins or creates a porch entry. -/
  | porchRequest
  /-- HOLD_EXPIRY (R236). The hold counter of a porch entry expires and releases it. -/
  | holdExpiry
  /-- RELEASED_ENTRY_EXPIRY (R236). A released porch entry's hold period ends and the entry is gone. -/
  | releasedEntryExpiry
  /-- GROUP_CHANGE_ACK (R234). The command processor acknowledges a GJOIN or GLEAVE after updating slices and routers. -/
  | groupChangeAck
  /-- GANG_COMPLETE (R51). When all strands have exited and pending is 0, frees the gang's resources. -/
  | gangComplete
  /-- PACKET_COMPLETE (R332). Decrements the completion signal and sends a host message if asked. -/
  | packetComplete
  /-- NOTIFY (R327). A write to NOTIFY makes the command processor examine the queue. -/
  | notify
  /-- QUEUE_SCAN (R327). The periodic examination of every enabled queue at least every 64 µs. -/
  | queueScan
  /-- QUEUE_ENABLE (R325). A QCTL write setting EN starts the queue if QSIZE is in range. -/
  | queueEnable
  /-- QUEUE_DISABLE (R325). A QCTL write clearing EN stops the reading of packets. -/
  | queueDisable
  /-- ERR_CLEAR (R325). Clearing QCTL.ERR restarts the queue at packet QRD. -/
  | errClear
  /-- LAUNCH (R333). Checks a LAUNCH packet and puts its gang on the waiting list. -/
  | launch
  /-- SIGNAL_PACKET (R334). Lowers a signal's COUNT by an amount and completes. -/
  | signalPacket
  /-- WAIT_PACKET (R334). Starts waiting for a watched signal's COUNT to fall to a value. -/
  | waitPacket
  /-- WAIT_PACKET_POLL (R334). Re-tests a WAIT packet's signal every 64 µs. -/
  | waitPacketPoll
  /-- COPY_PACKET (R334). Starts a copy through the command processor's transfer unit. -/
  | copyPacket
  /-- TABLE_PACKET (R334). Sets a group's hold counter and loads switch multicast tables. -/
  | tablePacket
  /-- GANG_PLACE (R338). The scheduler places a waiting gang whole at the first grant that fits. -/
  | gangPlace
  /-- GANG_REPLACE (R50). Re-places a parked gang on its own cores with its own grant. -/
  | gangReplace
  /-- PREEMPT (R342). Marks a victim parking and stops its Running strands. -/
  | preempt
  /-- PREEMPT_SAVE (R342). After in-flight fills land, saves the victim, frees its places and places the newcomer. -/
  | preemptSave
  /-- GRANT_REDUCTION (R344). Marks a reduction pending on the cores of a reduction set. -/
  | grantReduction
  /-- GRANT_REDUCTION_TIMEOUT (R440). After 262,144 cycles pre-empts laggards or gives them deferred cause 0x12. -/
  | grantReductionTimeout
  /-- FLIT_RECEIVE (R356). Corrects, CRC-checks and accepts or NAKs a received flit. -/
  | flitReceive
  /-- ACK_TIMER (R356). Sends an acknowledgement when 200 ns pass without one. -/
  | ackTimer
  /-- REPLAY_LIMIT (R448). Declares a destination unreachable after 16 resends or 100 µs and fences it. -/
  | replayLimit
  /-- SCORE_HALVING (R444). Halves each lane's health score every 2^24 blocks. -/
  | scoreHalving
  /-- READ (R360). A remote read request performed at its completer. -/
  | read
  /-- WRITE (R360). A remote write request performed at its completer. -/
  | write
  /-- ATOMIC (R360). A remote atomic performed whole at its completer. -/
  | atomic
  /-- READ_DATA (R360). The response to a READ or GFORWARD. -/
  | readData
  /-- DONE (R360). The response to a WRITE, FILL, COMBINE or SPAWN request. -/
  | done
  /-- ATOMIC_DATA (R360). The old value returned for an ATOMIC. -/
  | atomicData
  /-- SIGNAL (R361). A token signal arriving across the fabric, with DEC lowering pending. -/
  | signal
  /-- INCREMENT (R361). Raises a remote token's pending and REMOTE at acceptance. -/
  | increment
  /-- GFORWARD (R365). Reads a porch piece at the owning device for a remote group load. -/
  | gforward
  /-- SPAWN_REQUEST (R366). A SPAWN arriving at the target device's command processor. -/
  | spawnRequest
  /-- HOSTMSG (R370). The bridge writes a host message to the host ring or holds or drops it. -/
  | hostmsg
  /-- HOST_REQUEST (R368). The bridge carries a host request to its member in arrival order. -/
  | hostRequest
  /-- MANAGEMENT_REQUEST (R348). A service-port request with address bit 51 reaches the device's control space. -/
  | managementRequest
  /-- HMCTL_ENABLE (R370). Setting HMCTL.EN with HSIZE in range clears the message counters. -/
  | hmctlEnable
  /-- MECTL_ENABLE (R417). Setting MECTL.EN with MSIZE in range clears the log counters. -/
  | mectlEnable
  /-- FFSET (R454). Fences a device: ends requests to it and settles tokens. -/
  | ffset
  /-- FJOIN (R457). Accepts a join write from a fenced device and lifts its fence. -/
  | fjoin
  /-- JOIN_RESEND (R457). Resends an unanswered join every 10 µs. -/
  | joinResend
  /-- FDEVID (R348). Sets KDEV, restarts link state and invalidates all translations. -/
  | fdevid
  /-- FBRIDGE (R458). Names the host group's bridge and flushes held host messages to it. -/
  | fbridge
  /-- QUIESCE (R453). Sets or clears FCTL.QUIESCE, stopping or resuming all flit sending. -/
  | quiesce
  /-- FCTL_CLR (R451). Clears FLINK, FDISC and every PDIS. -/
  | fctlClr
  /-- HFLUSH (R474). Writes back every dirty HBM cache frame and clears stale stamps. -/
  | hflush
  /-- KEY_LOAD (R475). Loads a key slot from KEYDATA into every capacity engine. -/
  | keyLoad
  /-- KEY_CLEAR (R475). Clears a key slot in every capacity engine. -/
  | keyClear
  /-- REGISTER_WRITE (R272). A write to a control-space register that has no row of its own. -/
  | registerWrite
  /-- UNCORRECTABLE_ERROR (R409). An uncorrectable error poisons its unit or meets the fate of R412. -/
  | uncorrectableError
  /-- PATROL_READ (R410). Reads and corrects one live line every 65,536 fabric cycles. -/
  | patrolRead
  /-- CAPACITY_LINK_LOSS (R423). A capacity port loses its link and retrains. -/
  | capacityLinkLoss
  /-- CAPACITY_PORT_DOWN (R423). After 100 ms without link the port is down and kind 7 is logged. -/
  | capacityPortDown
  /-- CAPACITY_PORT_RESTORED (R423). A down port returns, logs kind 8 and resumes service. -/
  | capacityPortRestored
  /-- POWER_GOOD (R472). Starts seedling mode and verifies the firmware signature and version. -/
  | powerGood
  /-- CONFIGURATION (R471). Reads the boot configuration record fixing HBM mode, cellar and ports. -/
  | configuration
  /-- MEMORY_TRAINING (R471). Trains HBM and capacity links and resets frames and dead bits. -/
  | memoryTraining
  /-- FULL_MODE (R471). Releases the cores, joins the planes and starts the command processor and SVC0. -/
  | fullMode
  /-- QUOTE (R473). Signs M, a host nonce and KDEV with the identity key. -/
  | quote
  /-- OPERATING_POINT_MOVE (R476). Moves a core one point on the voltage-clock curve. -/
  | operatingPointMove
  /-- POWER_WINDOW (R477). Each 1 ms window moves balancing cores down when PWR exceeds PLIM. -/
  | powerWindow
  /-- THERMAL_THROTTLE (R478). At 95 °C moves every core down one point every 100 µs. -/
  | thermalThrottle
  /-- THERMAL_TRIP (R478). At 110 °C removes the core rail and sets FAIL 4. -/
  | thermalTrip
  /-- ILLEGAL_ENCODING (R402). A committed word that selects no instruction traps with cause 0x01 or 0x02. -/
  | illegalEncoding
  /-- FETCH_FAULT (R403). A fetch at pc that is untranslated, not executable or poisoned traps at pc before any word is decoded. -/
  | fetchFault
  /-- CORRECTABLE_ERROR (R410). A correctable error in a protected holder is corrected silently and counted in MECE. -/
  | correctableError
  /-- CAPACITY_LINK_RETRAINED (R423). A capacity port's link returns within 100 ms of its loss and the port resumes without being down. -/
  | capacityLinkRetrained
  /-- POWER_LOSS (R285). Power is removed from the device; dirty HBM cache frames are lost and their capacity lines stay stamped stale. -/
  | powerLoss
  /-- GROUP_ROLLBACK (R439). During rotation or pre-emption, a group still waiting for a remote answer after 4,096 cycles is rolled back. -/
  | groupRollback
  deriving DecidableEq, Repr

end Sys2Proof
end

