-- ==== Sys2Proof/WellFormed.lean ====
section
/-!
DEFINITION. Which terms of Instr are instructions: the field values that check 2 of R400 and the scopes of R114 and R115 leave. An event has no fields and is always well formed.
-/
namespace Sys2Proof

/-- Whether every field of an instruction takes an assigned value. -/
def WellFormed : Instr → Bool
  | .add _ _ _ => true
  | .sub _ _ _ => true
  | .and _ _ _ => true
  | .or _ _ _ => true
  | .xor _ _ _ => true
  | .sll _ _ _ => true
  | .srl _ _ _ => true
  | .sra _ _ _ => true
  | .mul _ _ _ => true
  | .mulh _ _ _ => true
  | .mulhn _ _ _ => true
  | .div _ _ _ => true
  | .divn _ _ _ => true
  | .rem _ _ _ => true
  | .remn _ _ _ => true
  | .slt _ _ _ => true
  | .sltn _ _ _ => true
  | .min _ _ _ => true
  | .max _ _ _ => true
  | .minn _ _ _ => true
  | .maxn _ _ _ => true
  | .clz _ _ => true
  | .ctz _ _ => true
  | .popc _ _ => true
  | .clmul _ _ _ => true
  | .clmulh _ _ _ => true
  | .addi _ _ _ => true
  | .andi _ _ _ => true
  | .ori _ _ _ => true
  | .xori _ _ _ => true
  | .slli _ _ _ => true
  | .srli _ _ _ => true
  | .srai _ _ _ => true
  | .slti _ _ _ => true
  | .sltni _ _ _ => true
  | .movw _ _ => true
  | .adrp _ _ => true
  | .movk _ _ _ => true
  | .fadd _ _ _ _ => true
  | .fsub _ _ _ _ => true
  | .fmul _ _ _ _ => true
  | .fdiv _ _ _ _ => true
  | .fsqrt _ _ _ => true
  | .fma _ _ _ _ => true
  | .fmin _ _ _ _ => true
  | .fmax _ _ _ _ => true
  | .fcvt _ _ c _ => c.toNat ≤ 4
  | .fclass _ _ _ => true
  | .fcmp _ _ _ c _ => c.toNat ≤ 3
  | .beq _ _ _ => true
  | .bne _ _ _ => true
  | .blt _ _ _ => true
  | .bge _ _ _ => true
  | .bltn _ _ _ => true
  | .bgen _ _ _ => true
  | .jal _ => true
  | .jalr _ _ _ => true
  | .ldb _ _ _ => true
  | .ldh _ _ _ => true
  | .ldw _ _ _ => true
  | .ldd _ _ _ => true
  | .ldbn _ _ _ => true
  | .ldhn _ _ _ => true
  | .ldwn _ _ _ => true
  | .stb _ _ _ => true
  | .sth _ _ _ => true
  | .stw _ _ _ => true
  | .std _ _ _ => true
  | .ldx _ _ _ _ z => z.toNat ≤ 6
  | .stx _ _ _ _ _ => true
  | .amoadd _ _ _ _ _ _ s => s.toNat ≤ 4
  | .amoand _ _ _ _ _ _ s => s.toNat ≤ 4
  | .amoor _ _ _ _ _ _ s => s.toNat ≤ 4
  | .amoxor _ _ _ _ _ _ s => s.toNat ≤ 4
  | .amomin _ _ _ _ _ _ s => s.toNat ≤ 4
  | .amomax _ _ _ _ _ _ s => s.toNat ≤ 4
  | .amominn _ _ _ _ _ _ s => s.toNat ≤ 4
  | .amomaxn _ _ _ _ _ _ s => s.toNat ≤ 4
  | .amoswp _ _ _ _ _ _ s => s.toNat ≤ 4
  | .amocas _ _ _ _ _ _ s => s.toNat ≤ 4
  | .fence _ _ c => c.toNat ≤ 4
  | .setvl _ _ _ => true
  | .live _ => true
  | .setvli _ _ _ _ _ _ _ _ => true
  | .vaddVV _ _ _ _ => true
  | .vaddVS _ _ _ _ => true
  | .vsubVV _ _ _ _ => true
  | .vsubVS _ _ _ _ => true
  | .vmulVV _ _ _ _ => true
  | .vmulVS _ _ _ _ => true
  | .vmulhVV _ _ _ _ => true
  | .vmulhVS _ _ _ _ => true
  | .vmulhnVV _ _ _ _ => true
  | .vmulhnVS _ _ _ _ => true
  | .vandVV _ _ _ _ => true
  | .vandVS _ _ _ _ => true
  | .vorVV _ _ _ _ => true
  | .vorVS _ _ _ _ => true
  | .vxorVV _ _ _ _ => true
  | .vxorVS _ _ _ _ => true
  | .vsllVV _ _ _ _ => true
  | .vsllVS _ _ _ _ => true
  | .vsrlVV _ _ _ _ => true
  | .vsrlVS _ _ _ _ => true
  | .vsraVV _ _ _ _ => true
  | .vsraVS _ _ _ _ => true
  | .vminVV _ _ _ _ => true
  | .vminVS _ _ _ _ => true
  | .vmaxVV _ _ _ _ => true
  | .vmaxVS _ _ _ _ => true
  | .vminnVV _ _ _ _ => true
  | .vminnVS _ _ _ _ => true
  | .vmaxnVV _ _ _ _ => true
  | .vmaxnVS _ _ _ _ => true
  | .vsaddVV _ _ _ _ => true
  | .vsaddVS _ _ _ _ => true
  | .vssubVV _ _ _ _ => true
  | .vssubVS _ _ _ _ => true
  | .vmergeVV _ _ _ _ => true
  | .vmergeVS _ _ _ _ => true
  | .vfaddVV _ _ _ _ => true
  | .vfaddVS _ _ _ _ => true
  | .vfsubVV _ _ _ _ => true
  | .vfsubVS _ _ _ _ => true
  | .vfmulVV _ _ _ _ => true
  | .vfmulVS _ _ _ _ => true
  | .vfdivVV _ _ _ _ => true
  | .vfdivVS _ _ _ _ => true
  | .vfsqrt _ _ _ => true
  | .vfmaVV _ _ _ _ => true
  | .vfmaVS _ _ _ _ => true
  | .vfnmsVV _ _ _ _ => true
  | .vfnmsVS _ _ _ _ => true
  | .vfminVV _ _ _ _ => true
  | .vfminVS _ _ _ _ => true
  | .vfmaxVV _ _ _ _ => true
  | .vfmaxVS _ _ _ _ => true
  | .vfcvt _ _ t _ => t.toNat ≤ 8
  | .vfexp2 _ _ _ => true
  | .vcmpVV _ _ _ _ c => c.toNat ≤ 5
  | .vcmpVS _ _ _ _ c => c.toNat ≤ 5
  | .vfcmpVV _ _ _ _ c => c.toNat ≤ 5
  | .vfcmpVS _ _ _ _ c => c.toNat ≤ 5
  | .mand _ _ _ _ => true
  | .mor _ _ _ _ => true
  | .mxor _ _ _ _ => true
  | .mpopc _ _ _ => true
  | .mfirst _ _ _ => true
  | .mtov _ _ _ => true
  | .vtom _ _ _ => true
  | .vslup _ _ _ _ => true
  | .vsldn _ _ _ _ => true
  | .vrgath _ _ _ _ => true
  | .vcomp _ _ _ => true
  | .viota _ _ _ => true
  | .vext _ _ _ _ => true
  | .vins _ _ _ _ => true
  | .vbcst _ _ _ => true
  | .vred _ _ _ o => o.toNat ≤ 7
  | .vscan _ _ _ o => o.toNat ≤ 7
  | .vclmulVV _ _ _ _ => true
  | .vclmulVS _ _ _ _ => true
  | .vclmulhVV _ _ _ _ => true
  | .vclmulhVS _ _ _ _ => true
  | .vld _ _ _ _ => true
  | .vlds _ _ _ _ _ => true
  | .vldx _ _ _ _ _ => true
  | .vldff _ _ _ _ => true
  | .vldxp _ _ _ _ _ _ => true
  | .vst _ _ _ _ => true
  | .vsts _ _ _ _ _ => true
  | .vstx _ _ _ _ _ => true
  | .vstxo _ _ _ _ _ => true
  | .vstxp _ _ _ _ _ _ => true
  | .vsca _ _ _ _ o => o.toNat ≤ 2
  | .tldf _ _ _ => true
  | .tstf _ _ _ _ => true
  | .twait _ => true
  | .tstat _ _ => true
  | .tset _ _ => true
  | .tarm _ _ => true
  | .tcmb _ _ _ _ _ => true
  | .tknew _ _ => true
  | .tkfree _ => true
  | .tkarm _ _ => true
  | .tksig _ _ => true
  | .tkrd _ _ => true
  | .await _ _ _ => true
  | .yield _ => true
  | .cpy _ _ _ _ _ => true
  | .cpy2d d _ _ _ _ => d.toNat ≤ 30
  | .cpyg _ _ _ _ => true
  | .gjoin _ _ => true
  | .gleave _ _ => true
  | .bar _ => true
  | .spawn _ _ => true
  | .sexit => true
  | .sid _ s => s.toNat ≤ 4
  | .mopa _ _ _ _ _ => true
  | .mops _ _ _ _ _ => true
  | .mzero _ _ _ => true
  | .mrd _ _ _ _ _ _ => true
  | .mwr _ _ _ _ _ _ => true
  | .mldt _ _ _ _ _ _ => true
  | .mstt _ _ _ _ _ _ => true
  | .mpatch _ _ _ _ _ _ => true
  | .wset _ a => a.toNat ≤ 28
  | .wclr _ => true
  | .brk _ => true
  | .callk _ => true
  | .eret => true
  | .krd _ _ => true
  | .kwr _ _ => true
  | .tlbinvAll => true
  | .tlbinvAsid _ => true
  | .tlbinvPage _ _ => true
  | .mdead _ _ => true
  | .sflush _ => true
  | .deferredTrap => true
  | .containment => true
  | .issueRotation => true
  | .ageing => true
  | .contextSaveEnd => true
  | .contextRestoreEnd => true
  | .tokenCompletion => true
  | .remoteReply => true
  | .storeSend => true
  | .l1Fill => true
  | .invalidationAck => true
  | .pageWalk => true
  | .copyAccept => true
  | .copyComplete => true
  | .fill => true
  | .fillRetry => true
  | .fillEnd => true
  | .combine => true
  | .porchRequest => true
  | .holdExpiry => true
  | .releasedEntryExpiry => true
  | .groupChangeAck => true
  | .gangComplete => true
  | .packetComplete => true
  | .notify => true
  | .queueScan => true
  | .queueEnable => true
  | .queueDisable => true
  | .errClear => true
  | .launch => true
  | .signalPacket => true
  | .waitPacket => true
  | .waitPacketPoll => true
  | .copyPacket => true
  | .tablePacket => true
  | .gangPlace => true
  | .gangReplace => true
  | .preempt => true
  | .preemptSave => true
  | .grantReduction => true
  | .grantReductionTimeout => true
  | .flitReceive => true
  | .ackTimer => true
  | .replayLimit => true
  | .scoreHalving => true
  | .read => true
  | .write => true
  | .atomic => true
  | .readData => true
  | .done => true
  | .atomicData => true
  | .signal => true
  | .increment => true
  | .gforward => true
  | .spawnRequest => true
  | .hostmsg => true
  | .hostRequest => true
  | .managementRequest => true
  | .hmctlEnable => true
  | .mectlEnable => true
  | .ffset => true
  | .fjoin => true
  | .joinResend => true
  | .fdevid => true
  | .fbridge => true
  | .quiesce => true
  | .fctlClr => true
  | .hflush => true
  | .keyLoad => true
  | .keyClear => true
  | .registerWrite => true
  | .uncorrectableError => true
  | .patrolRead => true
  | .capacityLinkLoss => true
  | .capacityPortDown => true
  | .capacityPortRestored => true
  | .powerGood => true
  | .configuration => true
  | .memoryTraining => true
  | .fullMode => true
  | .quote => true
  | .operatingPointMove => true
  | .powerWindow => true
  | .thermalThrottle => true
  | .thermalTrip => true
  | .illegalEncoding => true
  | .fetchFault => true
  | .correctableError => true
  | .capacityLinkRetrained => true
  | .powerLoss => true
  | .groupRollback => true

end Sys2Proof
end

