-- ==== Sys2Proof/Decode.lean ====
section
/-!
DEFINITION. Reading an instruction word (R102–R129, R400 checks 2 and 3), and writing one. Total on every word: a word that selects no instruction is rejected with the cause its trap takes.
-/
namespace Sys2Proof

/-- What a word is: an instruction, or the cause of the trap that it raises (R400). -/
inductive Decoded where
  | instr (i : Instr)
  | illegal (cause : BitVec 8)
  deriving DecidableEq, Repr

/-- Check 3 of R400: the fields that must be zero are. -/
def need (ok : Bool) (i : Instr) : Decoded := if ok then .instr i else .illegal 0x02

/-- The fields of R104. -/
def fMo (w : IWord) : BitVec 7 := w.extractLsb' 25 7
def fD (w : IWord) : BitVec 5 := w.extractLsb' 20 5
def fA (w : IWord) : BitVec 5 := w.extractLsb' 15 5
def fB (w : IWord) : BitVec 5 := w.extractLsb' 10 5
def fMk (w : IWord) : BitVec 3 := w.extractLsb' 7 3
def fFn (w : IWord) : BitVec 7 := w.extractLsb' 0 7
def fImm (w : IWord) : BitVec 15 := w.extractLsb' 0 15
def fImm20 (w : IWord) : BitVec 20 := w.extractLsb' 0 20
def fSz (w : IWord) : BitVec 3 := w.extractLsb' 12 3
def fOff (w : IWord) : BitVec 12 := w.extractLsb' 0 12
def fOff25 (w : IWord) : BitVec 25 := w.extractLsb' 0 25
def fFn10 (w : IWord) : BitVec 10 := w.extractLsb' 0 10
def fAcc (w : IWord) : BitVec 3 := w.extractLsb' 22 3
def fOp2 (w : IWord) : BitVec 2 := w.extractLsb' 20 2
def fMc (w : IWord) : BitVec 3 := w.extractLsb' 4 3

/-- Scalar ALU, MO 0x01 (R109, R139). -/
def decAlu (w : IWord) : Decoded :=
  match (fFn w).toNat with
  | 0 => need (fMk w == 0) (.add (fD w) (fA w) (fB w))
  | 1 => need (fMk w == 0) (.sub (fD w) (fA w) (fB w))
  | 2 => need (fMk w == 0) (.and (fD w) (fA w) (fB w))
  | 3 => need (fMk w == 0) (.or (fD w) (fA w) (fB w))
  | 4 => need (fMk w == 0) (.xor (fD w) (fA w) (fB w))
  | 5 => need (fMk w == 0) (.sll (fD w) (fA w) (fB w))
  | 6 => need (fMk w == 0) (.srl (fD w) (fA w) (fB w))
  | 7 => need (fMk w == 0) (.sra (fD w) (fA w) (fB w))
  | 8 => need (fMk w == 0) (.mul (fD w) (fA w) (fB w))
  | 9 => need (fMk w == 0) (.mulh (fD w) (fA w) (fB w))
  | 10 => need (fMk w == 0) (.mulhn (fD w) (fA w) (fB w))
  | 11 => need (fMk w == 0) (.div (fD w) (fA w) (fB w))
  | 12 => need (fMk w == 0) (.divn (fD w) (fA w) (fB w))
  | 13 => need (fMk w == 0) (.rem (fD w) (fA w) (fB w))
  | 14 => need (fMk w == 0) (.remn (fD w) (fA w) (fB w))
  | 15 => need (fMk w == 0) (.slt (fD w) (fA w) (fB w))
  | 16 => need (fMk w == 0) (.sltn (fD w) (fA w) (fB w))
  | 17 => need (fMk w == 0) (.min (fD w) (fA w) (fB w))
  | 18 => need (fMk w == 0) (.max (fD w) (fA w) (fB w))
  | 19 => need (fMk w == 0) (.minn (fD w) (fA w) (fB w))
  | 20 => need (fMk w == 0) (.maxn (fD w) (fA w) (fB w))
  | 21 => need (fMk w == 0 && fB w == 0) (.clz (fD w) (fA w))
  | 22 => need (fMk w == 0 && fB w == 0) (.ctz (fD w) (fA w))
  | 23 => need (fMk w == 0 && fB w == 0) (.popc (fD w) (fA w))
  | 24 => need (fMk w == 0) (.clmul (fD w) (fA w) (fB w))
  | 25 => need (fMk w == 0) (.clmulh (fD w) (fA w) (fB w))
  | _ => .illegal 0x01

/-- Shifts by an immediate, MO 0x06 (R110, R407). -/
def decShift (w : IWord) : Decoded :=
  match (fImm w).extractLsb' 6 2 with
  | 0 => need ((fImm w).extractLsb' 8 7 == 0) (.slli (fD w) (fA w) ((fImm w).extractLsb' 0 6))
  | 1 => need ((fImm w).extractLsb' 8 7 == 0) (.srli (fD w) (fA w) ((fImm w).extractLsb' 0 6))
  | 2 => need ((fImm w).extractLsb' 8 7 == 0) (.srai (fD w) (fA w) ((fImm w).extractLsb' 0 6))
  | _ => .illegal 0x01

/-- Scalar FP, MO 0x0C (R111, R139). -/
def decFp (w : IWord) : Decoded :=
  match (fFn w).extractLsb' 0 6 |>.toNat with
  | 0 => need (fMk w == 0) (.fadd (fD w) (fA w) (fB w) ((fFn w).extractLsb' 6 1))
  | 1 => need (fMk w == 0) (.fsub (fD w) (fA w) (fB w) ((fFn w).extractLsb' 6 1))
  | 2 => need (fMk w == 0) (.fmul (fD w) (fA w) (fB w) ((fFn w).extractLsb' 6 1))
  | 3 => need (fMk w == 0) (.fdiv (fD w) (fA w) (fB w) ((fFn w).extractLsb' 6 1))
  | 4 => need (fMk w == 0 && fB w == 0) (.fsqrt (fD w) (fA w) ((fFn w).extractLsb' 6 1))
  | 5 => need (fMk w == 0) (.fma (fD w) (fA w) (fB w) ((fFn w).extractLsb' 6 1))
  | 6 => need (fMk w == 0) (.fmin (fD w) (fA w) (fB w) ((fFn w).extractLsb' 6 1))
  | 7 => need (fMk w == 0) (.fmax (fD w) (fA w) (fB w) ((fFn w).extractLsb' 6 1))
  | 8 => if 4 < (fB w).toNat then .illegal 0x01 else need (fMk w == 0) (.fcvt (fD w) (fA w) (fB w) ((fFn w).extractLsb' 6 1))
  | 9 => need (fMk w == 0 && fB w == 0) (.fclass (fD w) (fA w) ((fFn w).extractLsb' 6 1))
  | 10 => if 3 < (fMk w).toNat then .illegal 0x01 else .instr (.fcmp (fD w) (fA w) (fB w) (fMk w) ((fFn w).extractLsb' 6 1))
  | _ => .illegal 0x01

/-- Compare-and-branch, MO 0x10 (R112). -/
def decBranch (w : IWord) : Decoded :=
  match (fSz w).toNat with
  | 0 => .instr (.beq (fD w) (fA w) (fOff w))
  | 1 => .instr (.bne (fD w) (fA w) (fOff w))
  | 2 => .instr (.blt (fD w) (fA w) (fOff w))
  | 3 => .instr (.bge (fD w) (fA w) (fOff w))
  | 4 => .instr (.bltn (fD w) (fA w) (fOff w))
  | 5 => .instr (.bgen (fD w) (fA w) (fOff w))
  | _ => .illegal 0x01

/-- LD, MO 0x18 (R113). -/
def decLoad (w : IWord) : Decoded :=
  match (fSz w).toNat with
  | 0 => .instr (.ldb (fD w) (fA w) (fOff w))
  | 1 => .instr (.ldh (fD w) (fA w) (fOff w))
  | 2 => .instr (.ldw (fD w) (fA w) (fOff w))
  | 3 => .instr (.ldd (fD w) (fA w) (fOff w))
  | 4 => .instr (.ldbn (fD w) (fA w) (fOff w))
  | 5 => .instr (.ldhn (fD w) (fA w) (fOff w))
  | 6 => .instr (.ldwn (fD w) (fA w) (fOff w))
  | _ => .illegal 0x01

/-- ST, MO 0x19 (R113). -/
def decStore (w : IWord) : Decoded :=
  match (fSz w).toNat with
  | 0 => .instr (.stb (fD w) (fA w) (fOff w))
  | 1 => .instr (.sth (fD w) (fA w) (fOff w))
  | 2 => .instr (.stw (fD w) (fA w) (fOff w))
  | 3 => .instr (.std (fD w) (fA w) (fOff w))
  | _ => .illegal 0x01

/-- LDX, MO 0x1A (R113). -/
def decLdx (w : IWord) : Decoded :=
  if (fFn w).extractLsb' 0 3 == 7 then .illegal 0x01
  else need ((fFn w).extractLsb' 5 2 == 0 && fMk w == 0) (.ldx (fD w) (fA w) (fB w) ((fFn w).extractLsb' 3 2) ((fFn w).extractLsb' 0 3))

/-- STX, MO 0x1B (R113). -/
def decStx (w : IWord) : Decoded :=
  if (fFn w).extractLsb' 2 1 == 1 then .illegal 0x01
  else need ((fFn w).extractLsb' 5 2 == 0 && fMk w == 0) (.stx (fD w) (fA w) (fB w) ((fFn w).extractLsb' 3 2) ((fFn w).extractLsb' 0 2))

/-- AMO, MO 0x1C (R114, R139). -/
def decAmo (w : IWord) : Decoded :=
  match ((fFn10 w).extractLsb' 0 4).toNat with
  | 0 => need (((fFn10 w).extractLsb' 4 3).toNat ≤ 4) (.amoadd (fD w) (fA w) (fB w) ((fFn10 w).extractLsb' 9 1) ((fFn10 w).extractLsb' 8 1) ((fFn10 w).extractLsb' 7 1) ((fFn10 w).extractLsb' 4 3))
  | 1 => need (((fFn10 w).extractLsb' 4 3).toNat ≤ 4) (.amoand (fD w) (fA w) (fB w) ((fFn10 w).extractLsb' 9 1) ((fFn10 w).extractLsb' 8 1) ((fFn10 w).extractLsb' 7 1) ((fFn10 w).extractLsb' 4 3))
  | 2 => need (((fFn10 w).extractLsb' 4 3).toNat ≤ 4) (.amoor (fD w) (fA w) (fB w) ((fFn10 w).extractLsb' 9 1) ((fFn10 w).extractLsb' 8 1) ((fFn10 w).extractLsb' 7 1) ((fFn10 w).extractLsb' 4 3))
  | 3 => need (((fFn10 w).extractLsb' 4 3).toNat ≤ 4) (.amoxor (fD w) (fA w) (fB w) ((fFn10 w).extractLsb' 9 1) ((fFn10 w).extractLsb' 8 1) ((fFn10 w).extractLsb' 7 1) ((fFn10 w).extractLsb' 4 3))
  | 4 => need (((fFn10 w).extractLsb' 4 3).toNat ≤ 4) (.amomin (fD w) (fA w) (fB w) ((fFn10 w).extractLsb' 9 1) ((fFn10 w).extractLsb' 8 1) ((fFn10 w).extractLsb' 7 1) ((fFn10 w).extractLsb' 4 3))
  | 5 => need (((fFn10 w).extractLsb' 4 3).toNat ≤ 4) (.amomax (fD w) (fA w) (fB w) ((fFn10 w).extractLsb' 9 1) ((fFn10 w).extractLsb' 8 1) ((fFn10 w).extractLsb' 7 1) ((fFn10 w).extractLsb' 4 3))
  | 6 => need (((fFn10 w).extractLsb' 4 3).toNat ≤ 4) (.amominn (fD w) (fA w) (fB w) ((fFn10 w).extractLsb' 9 1) ((fFn10 w).extractLsb' 8 1) ((fFn10 w).extractLsb' 7 1) ((fFn10 w).extractLsb' 4 3))
  | 7 => need (((fFn10 w).extractLsb' 4 3).toNat ≤ 4) (.amomaxn (fD w) (fA w) (fB w) ((fFn10 w).extractLsb' 9 1) ((fFn10 w).extractLsb' 8 1) ((fFn10 w).extractLsb' 7 1) ((fFn10 w).extractLsb' 4 3))
  | 8 => need (((fFn10 w).extractLsb' 4 3).toNat ≤ 4) (.amoswp (fD w) (fA w) (fB w) ((fFn10 w).extractLsb' 9 1) ((fFn10 w).extractLsb' 8 1) ((fFn10 w).extractLsb' 7 1) ((fFn10 w).extractLsb' 4 3))
  | 9 => need (((fFn10 w).extractLsb' 4 3).toNat ≤ 4) (.amocas (fD w) (fA w) (fB w) ((fFn10 w).extractLsb' 9 1) ((fFn10 w).extractLsb' 8 1) ((fFn10 w).extractLsb' 7 1) ((fFn10 w).extractLsb' 4 3))
  | _ => .illegal 0x01

/-- FENCE, MO 0x1D (R115, R204). -/
def decFence (w : IWord) : Decoded :=
  need (fD w == 0 && fA w == 0 && (fImm w).extractLsb' 13 2 == 0 && decide (((fImm w).extractLsb' 0 3).toNat ≤ 4))
    (.fence ((fImm w).extractLsb' 8 5) ((fImm w).extractLsb' 3 5) ((fImm w).extractLsb' 0 3))

/-- Vector configuration, MO 0x20 (R116, R166). -/
def decConfig (w : IWord) : Decoded :=
  if w.extractLsb' 0 1 == 1 then
    need ((fImm w).extractLsb' 14 1 == 0) (.setvli (fD w) (fA w) ((fImm w).extractLsb' 13 1) ((fImm w).extractLsb' 12 1)
      ((fImm w).extractLsb' 10 2) ((fImm w).extractLsb' 7 3) ((fImm w).extractLsb' 3 4) ((fImm w).extractLsb' 1 2))
  else match ((fFn10 w).extractLsb' 1 9).toNat with
  | 0 => .instr (.setvl (fD w) (fA w) (fB w))
  | 1 => need (fD w == 0 && fB w == 0) (.live (fA w))
  | _ => .illegal 0x01

/-- Vector integer, MO 0x21 (R117, R166). -/
def decVecIntVV (w : IWord) : Decoded :=
  match (fFn w).toNat with
  | 0 => .instr (.vaddVV (fD w) (fA w) (fB w) (fMk w))
  | 1 => .instr (.vsubVV (fD w) (fA w) (fB w) (fMk w))
  | 2 => .instr (.vmulVV (fD w) (fA w) (fB w) (fMk w))
  | 3 => .instr (.vmulhVV (fD w) (fA w) (fB w) (fMk w))
  | 4 => .instr (.vmulhnVV (fD w) (fA w) (fB w) (fMk w))
  | 5 => .instr (.vandVV (fD w) (fA w) (fB w) (fMk w))
  | 6 => .instr (.vorVV (fD w) (fA w) (fB w) (fMk w))
  | 7 => .instr (.vxorVV (fD w) (fA w) (fB w) (fMk w))
  | 8 => .instr (.vsllVV (fD w) (fA w) (fB w) (fMk w))
  | 9 => .instr (.vsrlVV (fD w) (fA w) (fB w) (fMk w))
  | 10 => .instr (.vsraVV (fD w) (fA w) (fB w) (fMk w))
  | 11 => .instr (.vminVV (fD w) (fA w) (fB w) (fMk w))
  | 12 => .instr (.vmaxVV (fD w) (fA w) (fB w) (fMk w))
  | 13 => .instr (.vminnVV (fD w) (fA w) (fB w) (fMk w))
  | 14 => .instr (.vmaxnVV (fD w) (fA w) (fB w) (fMk w))
  | 15 => .instr (.vsaddVV (fD w) (fA w) (fB w) (fMk w))
  | 16 => .instr (.vssubVV (fD w) (fA w) (fB w) (fMk w))
  | 17 => .instr (.vmergeVV (fD w) (fA w) (fB w) (fMk w))
  | _ => .illegal 0x01

/-- Vector integer, MO 0x22 (R117, R166). -/
def decVecIntVS (w : IWord) : Decoded :=
  match (fFn w).toNat with
  | 0 => .instr (.vaddVS (fD w) (fA w) (fB w) (fMk w))
  | 1 => .instr (.vsubVS (fD w) (fA w) (fB w) (fMk w))
  | 2 => .instr (.vmulVS (fD w) (fA w) (fB w) (fMk w))
  | 3 => .instr (.vmulhVS (fD w) (fA w) (fB w) (fMk w))
  | 4 => .instr (.vmulhnVS (fD w) (fA w) (fB w) (fMk w))
  | 5 => .instr (.vandVS (fD w) (fA w) (fB w) (fMk w))
  | 6 => .instr (.vorVS (fD w) (fA w) (fB w) (fMk w))
  | 7 => .instr (.vxorVS (fD w) (fA w) (fB w) (fMk w))
  | 8 => .instr (.vsllVS (fD w) (fA w) (fB w) (fMk w))
  | 9 => .instr (.vsrlVS (fD w) (fA w) (fB w) (fMk w))
  | 10 => .instr (.vsraVS (fD w) (fA w) (fB w) (fMk w))
  | 11 => .instr (.vminVS (fD w) (fA w) (fB w) (fMk w))
  | 12 => .instr (.vmaxVS (fD w) (fA w) (fB w) (fMk w))
  | 13 => .instr (.vminnVS (fD w) (fA w) (fB w) (fMk w))
  | 14 => .instr (.vmaxnVS (fD w) (fA w) (fB w) (fMk w))
  | 15 => .instr (.vsaddVS (fD w) (fA w) (fB w) (fMk w))
  | 16 => .instr (.vssubVS (fD w) (fA w) (fB w) (fMk w))
  | 17 => .instr (.vmergeVS (fD w) (fA w) (fB w) (fMk w))
  | _ => .illegal 0x01

/-- Vector FP, MO 0x23 (R117, R166). -/
def decVecFpVV (w : IWord) : Decoded :=
  match (fFn w).toNat with
  | 0 => .instr (.vfaddVV (fD w) (fA w) (fB w) (fMk w))
  | 1 => .instr (.vfsubVV (fD w) (fA w) (fB w) (fMk w))
  | 2 => .instr (.vfmulVV (fD w) (fA w) (fB w) (fMk w))
  | 3 => .instr (.vfdivVV (fD w) (fA w) (fB w) (fMk w))
  | 4 => need (fB w == 0) (.vfsqrt (fD w) (fA w) (fMk w))
  | 5 => .instr (.vfmaVV (fD w) (fA w) (fB w) (fMk w))
  | 6 => .instr (.vfnmsVV (fD w) (fA w) (fB w) (fMk w))
  | 7 => .instr (.vfminVV (fD w) (fA w) (fB w) (fMk w))
  | 8 => .instr (.vfmaxVV (fD w) (fA w) (fB w) (fMk w))
  | 9 => if 8 < ((fB w).extractLsb' 0 4).toNat then .illegal 0x01 else need ((fB w).extractLsb' 4 1 == 0) (.vfcvt (fD w) (fA w) ((fB w).extractLsb' 0 4) (fMk w))
  | 10 => need (fB w == 0) (.vfexp2 (fD w) (fA w) (fMk w))
  | _ => .illegal 0x01

/-- Vector FP, MO 0x24 (R117, R166). -/
def decVecFpVS (w : IWord) : Decoded :=
  match (fFn w).toNat with
  | 0 => .instr (.vfaddVS (fD w) (fA w) (fB w) (fMk w))
  | 1 => .instr (.vfsubVS (fD w) (fA w) (fB w) (fMk w))
  | 2 => .instr (.vfmulVS (fD w) (fA w) (fB w) (fMk w))
  | 3 => .instr (.vfdivVS (fD w) (fA w) (fB w) (fMk w))
  | 5 => .instr (.vfmaVS (fD w) (fA w) (fB w) (fMk w))
  | 6 => .instr (.vfnmsVS (fD w) (fA w) (fB w) (fMk w))
  | 7 => .instr (.vfminVS (fD w) (fA w) (fB w) (fMk w))
  | 8 => .instr (.vfmaxVS (fD w) (fA w) (fB w) (fMk w))
  | _ => .illegal 0x01

/-- Compares, MO 0x25 (R118, R166). -/
def decCmp (w : IWord) : Decoded :=
  if 5 < ((fFn w).extractLsb' 0 3).toNat then .illegal 0x01
  else if (fFn w).extractLsb' 3 2 != 0 || (fD w).extractLsb' 3 2 != 0 then .illegal 0x02
  else match ((fFn w).extractLsb' 5 2).toNat with
  | 0 => .instr (.vcmpVV ((fD w).extractLsb' 0 3) (fA w) (fB w) (fMk w) ((fFn w).extractLsb' 0 3))
  | 1 => .instr (.vfcmpVV ((fD w).extractLsb' 0 3) (fA w) (fB w) (fMk w) ((fFn w).extractLsb' 0 3))
  | 2 => .instr (.vcmpVS ((fD w).extractLsb' 0 3) (fA w) (fB w) (fMk w) ((fFn w).extractLsb' 0 3))
  | _ => .instr (.vfcmpVS ((fD w).extractLsb' 0 3) (fA w) (fB w) (fMk w) ((fFn w).extractLsb' 0 3))

/-- Mask operations, MO 0x26 (R119, R166). -/
def decMask (w : IWord) : Decoded :=
  match (fFn w).toNat with
  | 0 => need ((fD w).extractLsb' 3 2 == 0 && (fA w).extractLsb' 3 2 == 0 && (fB w).extractLsb' 3 2 == 0) (.mand ((fD w).extractLsb' 0 3) ((fA w).extractLsb' 0 3) ((fB w).extractLsb' 0 3) (fMk w))
  | 1 => need ((fD w).extractLsb' 3 2 == 0 && (fA w).extractLsb' 3 2 == 0 && (fB w).extractLsb' 3 2 == 0) (.mor ((fD w).extractLsb' 0 3) ((fA w).extractLsb' 0 3) ((fB w).extractLsb' 0 3) (fMk w))
  | 2 => need ((fD w).extractLsb' 3 2 == 0 && (fA w).extractLsb' 3 2 == 0 && (fB w).extractLsb' 3 2 == 0) (.mxor ((fD w).extractLsb' 0 3) ((fA w).extractLsb' 0 3) ((fB w).extractLsb' 0 3) (fMk w))
  | 3 => need ((fA w).extractLsb' 3 2 == 0 && fB w == 0) (.mpopc (fD w) ((fA w).extractLsb' 0 3) (fMk w))
  | 4 => need ((fA w).extractLsb' 3 2 == 0 && fB w == 0) (.mfirst (fD w) ((fA w).extractLsb' 0 3) (fMk w))
  | 5 => need ((fA w).extractLsb' 3 2 == 0 && fB w == 0) (.mtov (fD w) ((fA w).extractLsb' 0 3) (fMk w))
  | 6 => need ((fD w).extractLsb' 3 2 == 0 && fB w == 0) (.vtom ((fD w).extractLsb' 0 3) (fA w) (fMk w))
  | _ => .illegal 0x01

/-- Permutation, MO 0x27 (R120, R166). -/
def decPerm (w : IWord) : Decoded :=
  match (fFn w).toNat with
  | 0 => .instr (.vslup (fD w) (fA w) (fB w) (fMk w))
  | 1 => .instr (.vsldn (fD w) (fA w) (fB w) (fMk w))
  | 2 => .instr (.vrgath (fD w) (fA w) (fB w) (fMk w))
  | 3 => need (fB w == 0) (.vcomp (fD w) (fA w) (fMk w))
  | 4 => need (fB w == 0 && (fA w).extractLsb' 3 2 == 0) (.viota (fD w) ((fA w).extractLsb' 0 3) (fMk w))
  | 5 => .instr (.vext (fD w) (fA w) (fB w) (fMk w))
  | 6 => .instr (.vins (fD w) (fA w) (fB w) (fMk w))
  | 7 => need (fB w == 0) (.vbcst (fD w) (fA w) (fMk w))
  | _ => .illegal 0x01

/-- Reduce and scan, MO 0x28 (R121, R166). -/
def decReduce (w : IWord) : Decoded :=
  if 7 < ((fFn w).extractLsb' 0 4).toNat then .illegal 0x01
  else if (fFn w).extractLsb' 4 2 != 0 || fB w != 0 then .illegal 0x02
  else if (fFn w).extractLsb' 6 1 == 0 then .instr (.vred (fD w) (fA w) (fMk w) ((fFn w).extractLsb' 0 4))
  else .instr (.vscan (fD w) (fA w) (fMk w) ((fFn w).extractLsb' 0 4))

/-- Carry-less multiply, MO 0x29 (R121, R191). -/
def decClmul (w : IWord) : Decoded :=
  if (fFn w).extractLsb' 1 5 != 0 then .illegal 0x02
  else match (fFn w).extractLsb' 6 1, (fFn w).extractLsb' 0 1 with
  | 0, 0 => .instr (.vclmulVV (fD w) (fA w) (fB w) (fMk w))
  | 0, _ => .instr (.vclmulhVV (fD w) (fA w) (fB w) (fMk w))
  | _, 0 => .instr (.vclmulVS (fD w) (fA w) (fB w) (fMk w))
  | _, _ => .instr (.vclmulhVS (fD w) (fA w) (fB w) (fMk w))

/-- Vector loads, MO 0x30 (R122, R200). -/
def decVLoad (w : IWord) : Decoded :=
  match ((fFn w).extractLsb' 0 3).toNat with
  | 0 => need ((fFn w).extractLsb' 4 3 == 0 && fB w == 0) (.vld (fD w) (fA w) (fMk w) ((fFn w).extractLsb' 3 1))
  | 1 => need ((fFn w).extractLsb' 4 3 == 0) (.vlds (fD w) (fA w) (fB w) (fMk w) ((fFn w).extractLsb' 3 1))
  | 2 => need ((fFn w).extractLsb' 4 3 == 0) (.vldx (fD w) (fA w) (fB w) (fMk w) ((fFn w).extractLsb' 3 1))
  | 3 => need ((fFn w).extractLsb' 4 3 == 0 && fB w == 0) (.vldff (fD w) (fA w) (fMk w) ((fFn w).extractLsb' 3 1))
  | 4 => .instr (.vldxp (fD w) (fA w) (fB w) (fMk w) ((fFn w).extractLsb' 4 3) ((fFn w).extractLsb' 3 1))
  | _ => .illegal 0x01

/-- Vector stores, MO 0x31 (R122, R200). -/
def decVStore (w : IWord) : Decoded :=
  match ((fFn w).extractLsb' 0 3).toNat with
  | 0 => need ((fFn w).extractLsb' 4 3 == 0 && fB w == 0) (.vst (fD w) (fA w) (fMk w) ((fFn w).extractLsb' 3 1))
  | 1 => need ((fFn w).extractLsb' 4 3 == 0) (.vsts (fD w) (fA w) (fB w) (fMk w) ((fFn w).extractLsb' 3 1))
  | 2 => need ((fFn w).extractLsb' 4 3 == 0) (.vstx (fD w) (fA w) (fB w) (fMk w) ((fFn w).extractLsb' 3 1))
  | 3 => need ((fFn w).extractLsb' 4 3 == 0) (.vstxo (fD w) (fA w) (fB w) (fMk w) ((fFn w).extractLsb' 3 1))
  | 4 => .instr (.vstxp (fD w) (fA w) (fB w) (fMk w) ((fFn w).extractLsb' 4 3) ((fFn w).extractLsb' 3 1))
  | _ => .illegal 0x01

/-- VSCA, MO 0x32 (R122, R200). -/
def decVsca (w : IWord) : Decoded :=
  if (fFn w).extractLsb' 0 2 == 3 then .illegal 0x01
  else need ((fFn w).extractLsb' 2 5 == 0) (.vsca (fD w) (fA w) (fB w) (fMk w) ((fFn w).extractLsb' 0 2))

/-- Tile, MO 0x33 (R123, R206). -/
def decTileF (w : IWord) : Decoded :=
  if (fFn w).extractLsb' 0 3 == 7 then .illegal 0x01
  else if (fFn w).extractLsb' 3 1 != 0 then .illegal 0x02
  else match ((fFn w).extractLsb' 0 3).toNat with
  | 0 => need (fB w == 0 && (fFn w).extractLsb' 4 3 == 0) (.tldf (fD w) (fA w) (fMk w))
  | 1 => need (fB w == 0) (.tstf (fD w) (fA w) (fMk w) ((fFn w).extractLsb' 4 3))
  | 2 => need (fD w == 0 && fB w == 0 && fMk w == 0 && (fFn w).extractLsb' 4 3 == 0) (.twait (fA w))
  | 3 => need (fB w == 0 && fMk w == 0 && (fFn w).extractLsb' 4 3 == 0) (.tstat (fD w) (fA w))
  | 4 => need (fD w == 0 && fMk w == 0 && (fFn w).extractLsb' 4 3 == 0) (.tset (fA w) (fB w))
  | 5 => need (fD w == 0 && fMk w == 0 && (fFn w).extractLsb' 4 3 == 0) (.tarm (fA w) (fB w))
  | _ => .instr (.tcmb (fD w) (fA w) (fB w) (fMk w) ((fFn w).extractLsb' 4 3))

/-- Token, MO 0x38 (R124, R220). -/
def decTokenF (w : IWord) : Decoded :=
  match (fFn w).toNat with
  | 0 => need (fMk w == 0 && fB w == 0) (.tknew (fD w) (fA w))
  | 1 => need (fMk w == 0 && fD w == 0 && fB w == 0) (.tkfree (fA w))
  | 2 => need (fMk w == 0 && fD w == 0) (.tkarm (fA w) (fB w))
  | 3 => need (fMk w == 0 && fD w == 0) (.tksig (fA w) (fB w))
  | 4 => need (fMk w == 0 && fB w == 0) (.tkrd (fD w) (fA w))
  | _ => .illegal 0x01

/-- AWAIT and YIELD, MO 0x39 (R124, R220). -/
def decWait (w : IWord) : Decoded :=
  match (fFn w).toNat with
  | 0 => need (fMk w == 0) (.await (fD w) (fA w) (fB w))
  | 1 => need (fMk w == 0 && fA w == 0 && fB w == 0) (.yield (fD w))
  | _ => .illegal 0x01

/-- Copy, MO 0x3B (R125, R220, R229). -/
def decCopy (w : IWord) : Decoded :=
  match ((fFn10 w).extractLsb' 8 2).toNat with
  | 0 => .instr (.cpy (fD w) (fA w) (fB w) ((fFn10 w).extractLsb' 5 3) ((fFn10 w).extractLsb' 0 5))
  | 1 => if fD w == 31 then .illegal 0x01
         else .instr (.cpy2d (fD w) (fA w) (fB w) ((fFn10 w).extractLsb' 5 3) ((fFn10 w).extractLsb' 0 5))
  | 2 => need ((fFn10 w).extractLsb' 5 3 == 0) (.cpyg (fD w) (fA w) (fB w) ((fFn10 w).extractLsb' 0 5))
  | _ => .illegal 0x01

/-- Group, MO 0x3C (R126, R220). -/
def decGroupF (w : IWord) : Decoded :=
  match (fSz w).toNat with
  | 0 => need (fD w == 0) (.gjoin (fA w) (fOff w))
  | 1 => need (fD w == 0) (.gleave (fA w) (fOff w))
  | _ => .illegal 0x01

/-- BAR, MO 0x3D (R126, R220). -/
def decBarF (w : IWord) : Decoded :=
  if fFn w != 0 then .illegal 0x01
  else need (fD w == 0 && fB w == 0 && fMk w == 0) (.bar (fA w))

/-- Strand, MO 0x3E (R126, R220). -/
def decStrandF (w : IWord) : Decoded :=
  match (fSz w).toNat with
  | 0 => need (fOff w == 0) (.spawn (fD w) (fA w))
  | 1 => need (fD w == 0 && fA w == 0 && fOff w == 0) .sexit
  | 2 => if 4 < ((fOff w).extractLsb' 0 4).toNat then .illegal 0x01
         else need (fA w == 0 && (fOff w).extractLsb' 4 8 == 0) (.sid (fD w) ((fOff w).extractLsb' 0 4))
  | _ => .illegal 0x01

/-- Matrix, MO 0x40 (R127, R243). -/
def decMatrix (w : IWord) : Decoded :=
  match ((fFn w).extractLsb' 0 4).toNat with
  | 0 => need (fOp2 w == 0) (.mopa (fAcc w) (fA w) (fB w) (fMk w) (fMc w))
  | 1 => need (fOp2 w == 0) (.mops (fAcc w) (fA w) (fB w) (fMk w) (fMc w))
  | 2 => need (fOp2 w == 0 && fA w == 0 && fB w == 0) (.mzero (fAcc w) (fMk w) (fMc w))
  | 3 => if (fOp2 w).extractLsb' 1 1 == 1 then .illegal 0x01 else .instr (.mrd (fAcc w) ((fOp2 w).extractLsb' 0 1) (fA w) (fB w) (fMk w) (fMc w))
  | 4 => if (fOp2 w).extractLsb' 1 1 == 1 then .illegal 0x01 else .instr (.mwr (fAcc w) ((fOp2 w).extractLsb' 0 1) (fA w) (fB w) (fMk w) (fMc w))
  | 5 => if (fOp2 w).extractLsb' 1 1 == 1 then .illegal 0x01 else .instr (.mldt (fAcc w) ((fOp2 w).extractLsb' 0 1) (fA w) (fB w) (fMk w) (fMc w))
  | 6 => if (fOp2 w).extractLsb' 1 1 == 1 then .illegal 0x01 else .instr (.mstt (fAcc w) ((fOp2 w).extractLsb' 0 1) (fA w) (fB w) (fMk w) (fMc w))
  | 7 => if (fOp2 w).extractLsb' 1 1 == 1 then .illegal 0x01 else .instr (.mpatch (fAcc w) ((fOp2 w).extractLsb' 0 1) (fA w) (fB w) (fMk w) (fMc w))
  | _ => .illegal 0x01

/-- Debug, MO 0x48 (R128, R255). -/
def decDebug (w : IWord) : Decoded :=
  match (fSz w).toNat with
  | 0 => if 28 < (fA w).toNat then .illegal 0x01
         else need ((fD w).extractLsb' 3 2 == 0 && fOff w == 0) (.wset ((fD w).extractLsb' 0 3) (fA w))
  | 1 => need ((fD w).extractLsb' 3 2 == 0 && fA w == 0 && fOff w == 0) (.wclr ((fD w).extractLsb' 0 3))
  | 2 => need (fD w == 0 && fA w == 0) (.brk (fOff w))
  | _ => .illegal 0x01

/-- System, MO 0x50 (R129, R260). A K-register number is looked up by KRD and KWR themselves (R71). -/
def decSystem (w : IWord) : Decoded :=
  match (fSz w).toNat with
  | 0 => need (fD w == 0 && fA w == 0) (.callk (fOff w))
  | 1 => need (fD w == 0 && fA w == 0 && fOff w == 0) .eret
  | 2 => need (fA w == 0) (.krd (fD w) (fOff w))
  | 3 => need (fD w == 0) (.kwr (fA w) (fOff w))
  | 4 => match ((fOff w).extractLsb' 0 2).toNat with
    | 0 => need (fD w == 0 && fA w == 0 && (fOff w).extractLsb' 2 10 == 0) .tlbinvAll
    | 1 => need (fA w == 0 && (fOff w).extractLsb' 2 10 == 0) (.tlbinvAsid (fD w))
    | 2 => need ((fOff w).extractLsb' 2 10 == 0) (.tlbinvPage (fD w) (fA w))
    | _ => .illegal 0x01
  | 5 => need (fOff w == 0) (.mdead (fD w) (fA w))
  | 6 => need (fD w == 0 && fOff w == 0) (.sflush (fA w))
  | _ => .illegal 0x01

/-- The instruction a word selects, by its major opcode (R108, R402). -/
def decodeWord (w : IWord) : Decoded :=
  match (fMo w).toNat with
  | 1 => decAlu w
  | 2 => .instr (.addi (fD w) (fA w) (fImm w))
  | 3 => .instr (.andi (fD w) (fA w) (fImm w))
  | 4 => .instr (.ori (fD w) (fA w) (fImm w))
  | 5 => .instr (.xori (fD w) (fA w) (fImm w))
  | 6 => decShift w
  | 7 => .instr (.slti (fD w) (fA w) (fImm w))
  | 8 => .instr (.sltni (fD w) (fA w) (fImm w))
  | 9 => .instr (.movw (fD w) (fImm20 w))
  | 10 => .instr (.adrp (fD w) (fImm20 w))
  | 11 => need ((fImm20 w).extractLsb' 16 2 == 0) (.movk (fD w) ((fImm20 w).extractLsb' 18 2) ((fImm20 w).extractLsb' 0 16))
  | 12 => decFp w
  | 16 => decBranch w
  | 18 => .instr (.jal (fOff25 w))
  | 19 => .instr (.jalr (fD w) (fA w) (fImm w))
  | 24 => decLoad w
  | 25 => decStore w
  | 26 => decLdx w
  | 27 => decStx w
  | 28 => decAmo w
  | 29 => decFence w
  | 32 => decConfig w
  | 33 => decVecIntVV w
  | 34 => decVecIntVS w
  | 35 => decVecFpVV w
  | 36 => decVecFpVS w
  | 37 => decCmp w
  | 38 => decMask w
  | 39 => decPerm w
  | 40 => decReduce w
  | 41 => decClmul w
  | 48 => decVLoad w
  | 49 => decVStore w
  | 50 => decVsca w
  | 51 => decTileF w
  | 56 => decTokenF w
  | 57 => decWait w
  | 59 => decCopy w
  | 60 => decGroupF w
  | 61 => decBarF w
  | 62 => decStrandF w
  | 64 => decMatrix w
  | 72 => decDebug w
  | 80 => decSystem w
  | _ => .illegal 0x01

/-- The eight formats of R104; format C, and the sub-coded rows of formats I and M, share one layout. -/
def wordA (mo : BitVec 7) (d a b : BitVec 5) (mk : BitVec 3) (fn : BitVec 7) : IWord := mo ++ d ++ a ++ b ++ mk ++ fn
def wordI (mo : BitVec 7) (d a : BitVec 5) (imm : BitVec 15) : IWord := mo ++ d ++ a ++ imm
def wordW (mo : BitVec 7) (d : BitVec 5) (imm : BitVec 20) : IWord := mo ++ d ++ imm
def wordJ (mo : BitVec 7) (off : BitVec 25) : IWord := mo ++ off
def wordM (mo : BitVec 7) (d a : BitVec 5) (sz : BitVec 3) (off : BitVec 12) : IWord := mo ++ d ++ a ++ sz ++ off
def wordX (acc : BitVec 3) (op2 : BitVec 2) (a b : BitVec 5) (mr mc : BitVec 3) (fn4 : BitVec 4) : IWord := 0x40#7 ++ acc ++ op2 ++ a ++ b ++ mr ++ mc ++ fn4
def wordY (mo : BitVec 7) (d a b : BitVec 5) (fn10 : BitVec 10) : IWord := mo ++ d ++ a ++ b ++ fn10

/-- The word of an instruction, from the same tables; none for an event, which has no word. -/
def encode : Instr → Option IWord
  | .add d a b => some (wordA 0x01 d a b 0 0x00)
  | .sub d a b => some (wordA 0x01 d a b 0 0x01)
  | .and d a b => some (wordA 0x01 d a b 0 0x02)
  | .or d a b => some (wordA 0x01 d a b 0 0x03)
  | .xor d a b => some (wordA 0x01 d a b 0 0x04)
  | .sll d a b => some (wordA 0x01 d a b 0 0x05)
  | .srl d a b => some (wordA 0x01 d a b 0 0x06)
  | .sra d a b => some (wordA 0x01 d a b 0 0x07)
  | .mul d a b => some (wordA 0x01 d a b 0 0x08)
  | .mulh d a b => some (wordA 0x01 d a b 0 0x09)
  | .mulhn d a b => some (wordA 0x01 d a b 0 0x0A)
  | .div d a b => some (wordA 0x01 d a b 0 0x0B)
  | .divn d a b => some (wordA 0x01 d a b 0 0x0C)
  | .rem d a b => some (wordA 0x01 d a b 0 0x0D)
  | .remn d a b => some (wordA 0x01 d a b 0 0x0E)
  | .slt d a b => some (wordA 0x01 d a b 0 0x0F)
  | .sltn d a b => some (wordA 0x01 d a b 0 0x10)
  | .min d a b => some (wordA 0x01 d a b 0 0x11)
  | .max d a b => some (wordA 0x01 d a b 0 0x12)
  | .minn d a b => some (wordA 0x01 d a b 0 0x13)
  | .maxn d a b => some (wordA 0x01 d a b 0 0x14)
  | .clz d a => some (wordA 0x01 d a 0 0 0x15)
  | .ctz d a => some (wordA 0x01 d a 0 0 0x16)
  | .popc d a => some (wordA 0x01 d a 0 0 0x17)
  | .clmul d a b => some (wordA 0x01 d a b 0 0x18)
  | .clmulh d a b => some (wordA 0x01 d a b 0 0x19)
  | .addi d a i => some (wordI 0x02 d a i)
  | .andi d a i => some (wordI 0x03 d a i)
  | .ori d a i => some (wordI 0x04 d a i)
  | .xori d a i => some (wordI 0x05 d a i)
  | .slli d a s => some (wordI 0x06 d a (0#7 ++ 0#2 ++ s))
  | .srli d a s => some (wordI 0x06 d a (0#7 ++ 1#2 ++ s))
  | .srai d a s => some (wordI 0x06 d a (0#7 ++ 2#2 ++ s))
  | .slti d a i => some (wordI 0x07 d a i)
  | .sltni d a i => some (wordI 0x08 d a i)
  | .movw d i => some (wordW 0x09 d i)
  | .adrp d i => some (wordW 0x0A d i)
  | .movk d p v => some (wordW 0x0B d (p ++ 0#2 ++ v))
  | .fadd d a b f => some (wordA 0x0C d a b 0 (f ++ 0#6))
  | .fsub d a b f => some (wordA 0x0C d a b 0 (f ++ 1#6))
  | .fmul d a b f => some (wordA 0x0C d a b 0 (f ++ 2#6))
  | .fdiv d a b f => some (wordA 0x0C d a b 0 (f ++ 3#6))
  | .fsqrt d a f => some (wordA 0x0C d a 0 0 (f ++ 4#6))
  | .fma d a b f => some (wordA 0x0C d a b 0 (f ++ 5#6))
  | .fmin d a b f => some (wordA 0x0C d a b 0 (f ++ 6#6))
  | .fmax d a b f => some (wordA 0x0C d a b 0 (f ++ 7#6))
  | .fcvt d a c f => some (wordA 0x0C d a c 0 (f ++ 8#6))
  | .fclass d a f => some (wordA 0x0C d a 0 0 (f ++ 9#6))
  | .fcmp d a b c f => some (wordA 0x0C d a b c (f ++ 10#6))
  | .beq a b o => some (wordM 0x10 a b 0 o)
  | .bne a b o => some (wordM 0x10 a b 1 o)
  | .blt a b o => some (wordM 0x10 a b 2 o)
  | .bge a b o => some (wordM 0x10 a b 3 o)
  | .bltn a b o => some (wordM 0x10 a b 4 o)
  | .bgen a b o => some (wordM 0x10 a b 5 o)
  | .jal o => some (wordJ 0x12 o)
  | .jalr d a i => some (wordI 0x13 d a i)
  | .ldb d b o => some (wordM 0x18 d b 0 o)
  | .ldh d b o => some (wordM 0x18 d b 1 o)
  | .ldw d b o => some (wordM 0x18 d b 2 o)
  | .ldd d b o => some (wordM 0x18 d b 3 o)
  | .ldbn d b o => some (wordM 0x18 d b 4 o)
  | .ldhn d b o => some (wordM 0x18 d b 5 o)
  | .ldwn d b o => some (wordM 0x18 d b 6 o)
  | .stb s b o => some (wordM 0x19 s b 0 o)
  | .sth s b o => some (wordM 0x19 s b 1 o)
  | .stw s b o => some (wordM 0x19 s b 2 o)
  | .std s b o => some (wordM 0x19 s b 3 o)
  | .ldx d a b s z => some (wordA 0x1A d a b 0 (0#2 ++ s ++ z))
  | .stx d a b s z => some (wordA 0x1B d a b 0 (0#2 ++ s ++ 0#1 ++ z))
  | .amoadd d a b w q r s => some (wordY 0x1C d a b (w ++ q ++ r ++ s ++ 0#4))
  | .amoand d a b w q r s => some (wordY 0x1C d a b (w ++ q ++ r ++ s ++ 1#4))
  | .amoor d a b w q r s => some (wordY 0x1C d a b (w ++ q ++ r ++ s ++ 2#4))
  | .amoxor d a b w q r s => some (wordY 0x1C d a b (w ++ q ++ r ++ s ++ 3#4))
  | .amomin d a b w q r s => some (wordY 0x1C d a b (w ++ q ++ r ++ s ++ 4#4))
  | .amomax d a b w q r s => some (wordY 0x1C d a b (w ++ q ++ r ++ s ++ 5#4))
  | .amominn d a b w q r s => some (wordY 0x1C d a b (w ++ q ++ r ++ s ++ 6#4))
  | .amomaxn d a b w q r s => some (wordY 0x1C d a b (w ++ q ++ r ++ s ++ 7#4))
  | .amoswp d a b w q r s => some (wordY 0x1C d a b (w ++ q ++ r ++ s ++ 8#4))
  | .amocas d a b w q r s => some (wordY 0x1C d a b (w ++ q ++ r ++ s ++ 9#4))
  | .fence p s c => some (wordI 0x1D 0 0 (0#2 ++ p ++ s ++ c))
  | .setvl d a b => some (wordY 0x20 d a b 0)
  | .live a => some (wordY 0x20 0 a 0 2)
  | .setvli d a x s r g t w => some (wordI 0x20 d a (0#1 ++ x ++ s ++ r ++ g ++ t ++ w ++ 1#1))
  | .vaddVV d a b m => some (wordA 0x21 d a b m 0x00)
  | .vaddVS d a b m => some (wordA 0x22 d a b m 0x00)
  | .vsubVV d a b m => some (wordA 0x21 d a b m 0x01)
  | .vsubVS d a b m => some (wordA 0x22 d a b m 0x01)
  | .vmulVV d a b m => some (wordA 0x21 d a b m 0x02)
  | .vmulVS d a b m => some (wordA 0x22 d a b m 0x02)
  | .vmulhVV d a b m => some (wordA 0x21 d a b m 0x03)
  | .vmulhVS d a b m => some (wordA 0x22 d a b m 0x03)
  | .vmulhnVV d a b m => some (wordA 0x21 d a b m 0x04)
  | .vmulhnVS d a b m => some (wordA 0x22 d a b m 0x04)
  | .vandVV d a b m => some (wordA 0x21 d a b m 0x05)
  | .vandVS d a b m => some (wordA 0x22 d a b m 0x05)
  | .vorVV d a b m => some (wordA 0x21 d a b m 0x06)
  | .vorVS d a b m => some (wordA 0x22 d a b m 0x06)
  | .vxorVV d a b m => some (wordA 0x21 d a b m 0x07)
  | .vxorVS d a b m => some (wordA 0x22 d a b m 0x07)
  | .vsllVV d a b m => some (wordA 0x21 d a b m 0x08)
  | .vsllVS d a b m => some (wordA 0x22 d a b m 0x08)
  | .vsrlVV d a b m => some (wordA 0x21 d a b m 0x09)
  | .vsrlVS d a b m => some (wordA 0x22 d a b m 0x09)
  | .vsraVV d a b m => some (wordA 0x21 d a b m 0x0A)
  | .vsraVS d a b m => some (wordA 0x22 d a b m 0x0A)
  | .vminVV d a b m => some (wordA 0x21 d a b m 0x0B)
  | .vminVS d a b m => some (wordA 0x22 d a b m 0x0B)
  | .vmaxVV d a b m => some (wordA 0x21 d a b m 0x0C)
  | .vmaxVS d a b m => some (wordA 0x22 d a b m 0x0C)
  | .vminnVV d a b m => some (wordA 0x21 d a b m 0x0D)
  | .vminnVS d a b m => some (wordA 0x22 d a b m 0x0D)
  | .vmaxnVV d a b m => some (wordA 0x21 d a b m 0x0E)
  | .vmaxnVS d a b m => some (wordA 0x22 d a b m 0x0E)
  | .vsaddVV d a b m => some (wordA 0x21 d a b m 0x0F)
  | .vsaddVS d a b m => some (wordA 0x22 d a b m 0x0F)
  | .vssubVV d a b m => some (wordA 0x21 d a b m 0x10)
  | .vssubVS d a b m => some (wordA 0x22 d a b m 0x10)
  | .vmergeVV d a b m => some (wordA 0x21 d a b m 0x11)
  | .vmergeVS d a b m => some (wordA 0x22 d a b m 0x11)
  | .vfaddVV d a b m => some (wordA 0x23 d a b m 0x00)
  | .vfaddVS d a b m => some (wordA 0x24 d a b m 0x00)
  | .vfsubVV d a b m => some (wordA 0x23 d a b m 0x01)
  | .vfsubVS d a b m => some (wordA 0x24 d a b m 0x01)
  | .vfmulVV d a b m => some (wordA 0x23 d a b m 0x02)
  | .vfmulVS d a b m => some (wordA 0x24 d a b m 0x02)
  | .vfdivVV d a b m => some (wordA 0x23 d a b m 0x03)
  | .vfdivVS d a b m => some (wordA 0x24 d a b m 0x03)
  | .vfsqrt d a m => some (wordA 0x23 d a 0 m 0x04)
  | .vfmaVV d a b m => some (wordA 0x23 d a b m 0x05)
  | .vfmaVS d a b m => some (wordA 0x24 d a b m 0x05)
  | .vfnmsVV d a b m => some (wordA 0x23 d a b m 0x06)
  | .vfnmsVS d a b m => some (wordA 0x24 d a b m 0x06)
  | .vfminVV d a b m => some (wordA 0x23 d a b m 0x07)
  | .vfminVS d a b m => some (wordA 0x24 d a b m 0x07)
  | .vfmaxVV d a b m => some (wordA 0x23 d a b m 0x08)
  | .vfmaxVS d a b m => some (wordA 0x24 d a b m 0x08)
  | .vfcvt d a t m => some (wordA 0x23 d a (0#1 ++ t) m 0x09)
  | .vfexp2 d a m => some (wordA 0x23 d a 0 m 0x0A)
  | .vcmpVV d a b m c => some (wordA 0x25 (0#2 ++ d) a b m (0#2 ++ 0#2 ++ c))
  | .vcmpVS d a b m c => some (wordA 0x25 (0#2 ++ d) a b m (2#2 ++ 0#2 ++ c))
  | .vfcmpVV d a b m c => some (wordA 0x25 (0#2 ++ d) a b m (1#2 ++ 0#2 ++ c))
  | .vfcmpVS d a b m c => some (wordA 0x25 (0#2 ++ d) a b m (3#2 ++ 0#2 ++ c))
  | .mand d a b m => some (wordA 0x26 (0#2 ++ d) (0#2 ++ a) (0#2 ++ b) m 0)
  | .mor d a b m => some (wordA 0x26 (0#2 ++ d) (0#2 ++ a) (0#2 ++ b) m 1)
  | .mxor d a b m => some (wordA 0x26 (0#2 ++ d) (0#2 ++ a) (0#2 ++ b) m 2)
  | .mpopc d a m => some (wordA 0x26 d (0#2 ++ a) 0 m 3)
  | .mfirst d a m => some (wordA 0x26 d (0#2 ++ a) 0 m 4)
  | .mtov d a m => some (wordA 0x26 d (0#2 ++ a) 0 m 5)
  | .vtom d a m => some (wordA 0x26 (0#2 ++ d) a 0 m 6)
  | .vslup d a b m => some (wordA 0x27 d a b m 0)
  | .vsldn d a b m => some (wordA 0x27 d a b m 1)
  | .vrgath d a b m => some (wordA 0x27 d a b m 2)
  | .vcomp d a m => some (wordA 0x27 d a 0 m 3)
  | .viota d a m => some (wordA 0x27 d (0#2 ++ a) 0 m 4)
  | .vext d a b m => some (wordA 0x27 d a b m 5)
  | .vins d a b m => some (wordA 0x27 d a b m 6)
  | .vbcst d a m => some (wordA 0x27 d a 0 m 7)
  | .vred d a m o => some (wordA 0x28 d a 0 m (0#1 ++ 0#2 ++ o))
  | .vscan d a m o => some (wordA 0x28 d a 0 m (1#1 ++ 0#2 ++ o))
  | .vclmulVV d a b m => some (wordA 0x29 d a b m (0#1 ++ 0#5 ++ 0#1))
  | .vclmulVS d a b m => some (wordA 0x29 d a b m (1#1 ++ 0#5 ++ 0#1))
  | .vclmulhVV d a b m => some (wordA 0x29 d a b m (0#1 ++ 0#5 ++ 1#1))
  | .vclmulhVS d a b m => some (wordA 0x29 d a b m (1#1 ++ 0#5 ++ 1#1))
  | .vld d a m h => some (wordA 0x30 d a 0 m (0#3 ++ h ++ 0#3))
  | .vlds d a b m h => some (wordA 0x30 d a b m (0#3 ++ h ++ 1#3))
  | .vldx d a b m h => some (wordA 0x30 d a b m (0#3 ++ h ++ 2#3))
  | .vldff d a m h => some (wordA 0x30 d a 0 m (0#3 ++ h ++ 3#3))
  | .vldxp d a b m f h => some (wordA 0x30 d a b m (f ++ h ++ 4#3))
  | .vst d a m h => some (wordA 0x31 d a 0 m (0#3 ++ h ++ 0#3))
  | .vsts d a b m h => some (wordA 0x31 d a b m (0#3 ++ h ++ 1#3))
  | .vstx d a b m h => some (wordA 0x31 d a b m (0#3 ++ h ++ 2#3))
  | .vstxo d a b m h => some (wordA 0x31 d a b m (0#3 ++ h ++ 3#3))
  | .vstxp d a b m f h => some (wordA 0x31 d a b m (f ++ h ++ 4#3))
  | .vsca d a b m o => some (wordA 0x32 d a b m (0#5 ++ o))
  | .tldf d a m => some (wordA 0x33 d a 0 m 0)
  | .tstf d a m f => some (wordA 0x33 d a 0 m (f ++ 1#4))
  | .twait a => some (wordA 0x33 0 a 0 0 2)
  | .tstat d a => some (wordA 0x33 d a 0 0 3)
  | .tset a b => some (wordA 0x33 0 a b 0 4)
  | .tarm a b => some (wordA 0x33 0 a b 0 5)
  | .tcmb d a b m f => some (wordA 0x33 d a b m (f ++ 6#4))
  | .tknew d a => some (wordA 0x38 d a 0 0 0)
  | .tkfree a => some (wordA 0x38 0 a 0 0 1)
  | .tkarm a b => some (wordA 0x38 0 a b 0 2)
  | .tksig a b => some (wordA 0x38 0 a b 0 3)
  | .tkrd d a => some (wordA 0x38 d a 0 0 4)
  | .await d a b => some (wordA 0x39 d a b 0 0)
  | .yield d => some (wordA 0x39 d 0 0 0 1)
  | .cpy d a b f t => some (wordY 0x3B d a b (0#2 ++ f ++ t))
  | .cpy2d d a b f t => some (wordY 0x3B d a b (1#2 ++ f ++ t))
  | .cpyg d a b t => some (wordY 0x3B d a b (2#2 ++ 0#3 ++ t))
  | .gjoin a i => some (wordM 0x3C 0 a 0 i)
  | .gleave a i => some (wordM 0x3C 0 a 1 i)
  | .bar a => some (wordA 0x3D 0 a 0 0 0)
  | .spawn d a => some (wordM 0x3E d a 0 0)
  | .sexit => some (wordM 0x3E 0 0 1 0)
  | .sid d s => some (wordM 0x3E d 0 2 (0#8 ++ s))
  | .mopa c a b r k => some (wordX c 0 a b r k 0)
  | .mops c a b r k => some (wordX c 0 a b r k 1)
  | .mzero c r k => some (wordX c 0 0 0 r k 2)
  | .mrd c o a b r k => some (wordX c (0#1 ++ o) a b r k 3)
  | .mwr c o a b r k => some (wordX c (0#1 ++ o) a b r k 4)
  | .mldt c o a b r k => some (wordX c (0#1 ++ o) a b r k 5)
  | .mstt c o a b r k => some (wordX c (0#1 ++ o) a b r k 6)
  | .mpatch c o a b r k => some (wordX c (0#1 ++ o) a b r k 7)
  | .wset n a => some (wordM 0x48 (0#2 ++ n) a 0 0)
  | .wclr n => some (wordM 0x48 (0#2 ++ n) 0 1 0)
  | .brk c => some (wordM 0x48 0 0 2 c)
  | .callk n => some (wordM 0x50 0 0 0 n)
  | .eret => some (wordM 0x50 0 0 1 0)
  | .krd d k => some (wordM 0x50 d 0 2 k)
  | .kwr a k => some (wordM 0x50 0 a 3 k)
  | .tlbinvAll => some (wordM 0x50 0 0 4 0)
  | .tlbinvAsid d => some (wordM 0x50 d 0 4 1)
  | .tlbinvPage d a => some (wordM 0x50 d a 4 2)
  | .mdead d a => some (wordM 0x50 d a 5 0)
  | .sflush a => some (wordM 0x50 0 a 6 0)
  | .deferredTrap => none
  | .containment => none
  | .issueRotation => none
  | .ageing => none
  | .contextSaveEnd => none
  | .contextRestoreEnd => none
  | .tokenCompletion => none
  | .remoteReply => none
  | .storeSend => none
  | .l1Fill => none
  | .invalidationAck => none
  | .pageWalk => none
  | .copyAccept => none
  | .copyComplete => none
  | .fill => none
  | .fillRetry => none
  | .fillEnd => none
  | .combine => none
  | .porchRequest => none
  | .holdExpiry => none
  | .releasedEntryExpiry => none
  | .groupChangeAck => none
  | .gangComplete => none
  | .packetComplete => none
  | .notify => none
  | .queueScan => none
  | .queueEnable => none
  | .queueDisable => none
  | .errClear => none
  | .launch => none
  | .signalPacket => none
  | .waitPacket => none
  | .waitPacketPoll => none
  | .copyPacket => none
  | .tablePacket => none
  | .gangPlace => none
  | .gangReplace => none
  | .preempt => none
  | .preemptSave => none
  | .grantReduction => none
  | .grantReductionTimeout => none
  | .flitReceive => none
  | .ackTimer => none
  | .replayLimit => none
  | .scoreHalving => none
  | .read => none
  | .write => none
  | .atomic => none
  | .readData => none
  | .done => none
  | .atomicData => none
  | .signal => none
  | .increment => none
  | .gforward => none
  | .spawnRequest => none
  | .hostmsg => none
  | .hostRequest => none
  | .managementRequest => none
  | .hmctlEnable => none
  | .mectlEnable => none
  | .ffset => none
  | .fjoin => none
  | .joinResend => none
  | .fdevid => none
  | .fbridge => none
  | .quiesce => none
  | .fctlClr => none
  | .hflush => none
  | .keyLoad => none
  | .keyClear => none
  | .registerWrite => none
  | .uncorrectableError => none
  | .patrolRead => none
  | .capacityLinkLoss => none
  | .capacityPortDown => none
  | .capacityPortRestored => none
  | .powerGood => none
  | .configuration => none
  | .memoryTraining => none
  | .fullMode => none
  | .quote => none
  | .operatingPointMove => none
  | .powerWindow => none
  | .thermalThrottle => none
  | .thermalTrip => none
  | .illegalEncoding => none
  | .fetchFault => none
  | .correctableError => none
  | .capacityLinkRetrained => none
  | .powerLoss => none
  | .groupRollback => none

/-- The instruction's four bytes, the lowest address first (R3, R102). -/
def bytesOf (w : IWord) : List Byte := [w.extractLsb' 0 8, w.extractLsb' 8 8, w.extractLsb' 16 8, w.extractLsb' 24 8]

/-- A word from its bytes (R102). -/
def wordOf (b0 b1 b2 b3 : Byte) : IWord := b3 ++ b2 ++ b1 ++ b0

/-- Decoding from bytes: the instruction and the bytes that follow it; none where there are fewer than four bytes or the word selects no instruction. -/
def decode : List Byte → Option (Instr × List Byte)
  | b0 :: b1 :: b2 :: b3 :: rest =>
    match decodeWord (wordOf b0 b1 b2 b3) with
    | .instr i => some (i, rest)
    | .illegal _ => none
  | _ => none

/-- The instruction that the decoder reads from a word numbered as the opcode table numbers it; every instruction is one 32-bit word, stored little-endian (R102). -/
def decodeTableWord (_nbits w : Nat) : Option Instr :=
  (decode (bytesOf (BitVec.ofNat 32 w))).map (·.1)

end Sys2Proof
end

