-- ==== Sys2Proof/Config.lean ====
section
/-!
DEFINITION. What the device fixes (R1, R16) and the free values, which the spec leaves open.
-/
namespace Sys2Proof.Config

/-- Cores of the package (R1, R11). -/
def cores : Nat := 288
/-- Token-table entries of a core (R16). -/
def tokenSlots : Nat := 256
/-- Strand places of a core (R29). -/
def places : Nat := 64
/-- Larder slots of a core (R16, R44). -/
def larderSlots : Nat := 48
/-- Store-buffer entries (R16). -/
def storeEntries : Nat := 16
/-- Copies outstanding at one copy engine front end (R16, R231). -/
def copiesMax : Nat := 64
/-- Range interlock entries (R16). -/
def lockEntries : Nat := 16
/-- Overrun-queue entries (R16, R214). -/
def overrunMax : Nat := 16
/-- Armed tiles of a core (R215). -/
def armedMax : Nat := 8
/-- L2 slices (R1, R277). -/
def slices : Nat := 192
/-- Porch entries of a slice (R22). -/
def porchMax : Nat := 64
/-- Core TLB entries (R276). -/
def tlbEntries : Nat := 128
/-- Hub translation cache entries (R276). -/
def hubEntries : Nat := 8192
/-- Spawn intake (R336). -/
def intakeMax : Nat := 64
/-- Queues (R322). -/
def queues : Nat := 1024
/-- Planes (R347). -/
def planes : Nat := 36
/-- Go-back flits (R356). -/
def goBackMax : Nat := 64

/-- Instructions that the vector queue holds (R302). -/
def queueEntries : Nat := 32
/-- Instructions that a window holds (R391). -/
def windowMax : Nat := 4
/-- Scalar instructions provisional at once (R390). -/
def aheadMax : Nat := 64

/-- FREE VALUE (DESIGN CHOICE, log 8): which of several outcomes the spec allows; the argument is State.freeCtr. -/
opaque freeChoice : Nat → Nat
/-- FREE VALUE (DESIGN CHOICE, log 51): the bytes that a context saved in the save area has there (R43: the layout is internal to the device); the argument is State.freeCtr. -/
opaque imageBytes : Nat → Nat
/-- FREE VALUE (DESIGN CHOICE, log 6): the clock cycles of a core up to a time: core number and model clock. KCYCLE counts them from core release on (R70, R471, R480). -/
opaque coreCycles : Nat → Nat → Word
/-- FREE VALUE (PRESUMED, log 9): the SM2 signature of a 256-bit digest under the identity key (R473). -/
opaque sm2Sign : BitVec 256 → BitVec 512
/-- FREE VALUE (PRESUMED, log 9): the digest of the item of a bring-up stage, 0 seedling to 3 full mode (R473). -/
opaque stageDigest : Nat → BitVec 256

end Sys2Proof.Config
end

