-- ==== Sys2Proof/Machine/State.lean ====
section
/-!
DEFINITION. The state of one SHV-288A, as plain data, and State.reset. Every field names the rule of spec/ that gives it.
-/
namespace Sys2Proof.Machine

/-- Why the machine stops with a fault. Both are about the agenda, the model's own schedule, and no rule of the spec. -/
inductive Fault where
  /-- Raised by step when the agenda names a core number of 288 or more (R11). Safe: no such core exists. -/
  | noSuchCore
  /-- Raised by step when the agenda names an encoded instruction as an event. Safe: an instruction runs only when a strand fetches it. -/
  | notAnEvent
  deriving DecidableEq, Repr

/-- Why a step has no meaning. -/
inductive Refusal where
  /-- Raised by exec for a row without a meaning. Safe. -/
  | notModelled (mnemonic : String)
  deriving DecidableEq, Repr

/-- Memory: (address, byte) pairs, addresses strictly rising, no entry 0 (DESIGN CHOICE, log 2). -/
abbrev Memory := List Host.Cell

/-- A scalar register's mark: reply-pending (R42), poison (R80), lost with the STATUS and the address of the access (R430), awaited from the queued instruction of a number (R167). -/
inductive RegMark where
  | ok | pending | poisoned | lost (status : Nat) (addr : Word) | queued (id : Nat)
  deriving DecidableEq, Repr

/-- The strand states of R32, `stopped` of R33's last row, and `none` for an issue slot without a strand. -/
inductive Status where
  | none | runnable | running | waiting | parked | exited | stopped
  deriving DecidableEq, Repr

/-- The wait a strand has registered (R39, R211, R212, R237). A tile is named by its scratchpad tile number. -/
inductive Wait where
  | none | token (slot : Nat) (thr : Nat) | tile (idx : Nat) | barrier
  deriving DecidableEq, Repr

/-- A watch register (R68). -/
structure Watch where
  ctl : Word
  base : Word
  lim : Word
  str : Word
  deriving DecidableEq, Repr

/-- One level's trap registers (R70) with its resume depth (R392). -/
structure TrapRegs where
  cause : BitVec 8
  epc : Pc
  egrp : BitVec 4
  eval : Word
  depth : Nat
  deriving DecidableEq, Repr

/-- A deferred cause (R429). -/
structure Deferred where
  cause : BitVec 8
  eval : Word
  count : Nat
  deriving DecidableEq, Repr

/-- Where a saved context lies (R43–R45, R293): its length, whether a larder slot holds its first 2,048 bytes, the bytes in the strand's extent, the KiB of its core's cellar area by number, the KiB in its part of the save area; and the offset in it of a poisoned granule of its header or of a mask (R415). -/
structure Image where
  bytes : Nat
  larder : Bool
  ext : Nat
  kib : List Nat
  saveKiB : Nat
  bad : Option Nat
  deriving DecidableEq, Repr

/-- A copy instruction that stands in the vector queue until it is accepted (R231): kind 0 CPY, 1 CPY2D, 2 CPYG, with the operands captured at queue entry (R220). -/
structure VqEntry where
  pc : Pc
  kind : Nat
  src : Word
  dst : Word
  opnd : Word
  pitch : Word
  handle : Option (BitVec 32)
  mf : Nat
  deriving DecidableEq, Repr

/-- What came back for element or cell number idx of the vector instruction that waits (R361, R442): a value with its poison, or a STATUS. -/
structure Answer where
  idx : Nat
  status : Nat
  psn : Bool
  value : Word
  deriving DecidableEq, Repr

/-- A fill or a contribution on its way to a tile (R214, R216): the bytes of its tile that `mask` picks, with the last-beat flag; `toDev` is the other device it goes to, 0 for this one, `fromDev` the one it came from, `peer` the tile's peer address. -/
structure Arrival where
  combine : Bool
  gang : Nat
  rank : Nat
  off : Nat
  mask : BitVec 256
  data : BitVec 2048
  psn : BitVec 4
  last : Bool
  slot : Nat
  absent : Bool
  xfer : Nat
  toDev : Nat
  peer : Word
  /-- the destination's address as the instruction named it, for R431's KEVAL -/
  va : Word
  /-- further group loads of the same strand that this fill answers (R235) -/
  also : List Nat
  fromDev : Nat
  fromTag : Nat
  tries : Nat
  due : Nat
  /-- the issuer's address space -/
  asid : Nat
  /-- the runs of bytes (first byte, length) of this tile that follow, each sent when the one before has landed (R213, R214) -/
  rest : List (Nat × Nat)
  /-- the unit it comes from: a core, 300 plus a slice, 1000 plus a device (R14) -/
  unit : Nat
  /-- messages of one unit to one core arrive in this order (R14; DEDUCED, log 89) -/
  seq : Nat
  deriving DecidableEq, Repr

/-- A contribution held in a slot of an armed tile (R216). -/
structure Slot where
  k : Nat
  absent : Bool
  data : BitVec 2048
  psn : BitVec 4
  deriving DecidableEq, Repr

/-- A tile's tag word and what belongs to it (R209–R217). Its data and poison lie in the scratchpad. -/
structure Tile where
  idx : Nat
  full : Bool
  armed : Bool
  bound : Option (BitVec 32)
  op : Nat
  cnt0 : Nat
  cnt : Nat
  absent : BitVec 16
  slots : List Slot
  owner : Option (Nat × Nat)
  deriving DecidableEq, Repr

/-- A token-table entry (R35, R223–R227, R434, R483, R412). `gang` 0: allocated to no gang. -/
structure Token where
  slot : Nat
  gang : Nat
  count : Nat
  pend : Nat
  late : Bool
  arm : Option (BitVec 32 × Nat)
  remote : Nat
  source : Option Nat
  multi : Bool
  bad : Bool
  deriving DecidableEq, Repr

/-- A cached translation (R276): the page's tag and the leaf's content. -/
structure Xlat where
  asid : Nat
  page : Nat
  big : Bool
  frame : Nat
  /-- 0 for this device, decided at the walk -/
  dev : Nat
  capacity : Bool
  key : Nat
  u : Bool
  x : Bool
  w : Bool
  r : Bool
  deriving DecidableEq, Repr

/-- A store-buffer entry not yet sent (R158, R301): where it goes, its bytes, who stored it. Once sent, its acknowledgement is awaited in `invals`, `ctlWrites` or `reqs`. -/
structure SbEntry where
  gang : Nat
  rank : Nat
  /-- 0 slice, 1 control space, 2 scratchpad of core `unit`, 3 another device's address, 4 another device's rank -/
  kind : Nat
  unit : Nat
  addr : Nat
  key : Nat
  n : Nat
  value : Word
  psn : Bool
  /-- the strand's address space when it committed (R264) -/
  asid : Nat
  deriving DecidableEq, Repr

/-- Where an access ends (R194, R230): a slice of this device, control space, the core's own scratchpad, a rank's scratchpad on this device, another device's memory, another device's rank. Scratchpad offsets are absolute. -/
inductive Place where
  | slice (pa : Nat) (key : Nat)
  | ctl (pa : Nat)
  | local_ (off : Nat)
  | peer (gang : Nat) (rank : Nat) (core : Nat) (off : Nat)
  | farMem (dev : Nat) (pa : Nat) (key : Nat)
  | farPad (dev : Nat) (rank : Nat) (off : Nat)
  deriving DecidableEq, Repr

/-- An element (or cell) of a vector instruction that has passed its checks (R195, R425). -/
structure VEl where
  i : Nat
  grp : Nat
  va : Word
  p : Place
  x : Xlat
  deriving DecidableEq, Repr

/-- How far a vector instruction that has begun has come: the group in progress, and its elements as their pages were looked up, once (R391, R425). -/
structure Prog where
  grp : Nat
  els : List VEl
  /-- VLDFF's first failing element, where it has found one in this group (R198) -/
  trim : Option Nat
  deriving DecidableEq, Repr

/-- What a trap at a queued instruction restores (R390), and what the instruction carries with it (R165): the scalar state at its commit. -/
structure Ctx where
  pc : Pc
  regs : Vector Word 32
  marks : Vector RegMark 32
  vl : Nat
  kvtype : Word
  kfctl : Word
  klm : Word
  watchPass : Bool
  resFirst : Option Nat
  resG : Nat
  resN : Nat
  deriving DecidableEq, Repr

/-- An instruction in the vector queue (R302): its number, the scalar state at its commit, and what has committed behind it while it is not yet trap-free: the accesses held and the number of scalar instructions (R390). -/
structure QEntry where
  id : Nat
  instr : Instr
  ctx : Ctx
  held : List SbEntry
  ahead : Nat
  deriving DecidableEq, Repr

/-- The history buffer (R391): what the groups of the window's current row may overwrite, as it was before them. -/
structure Hist where
  v : Vector VImg 32
  vpsn : Vector SlotPsn 32
  masks : Vector MaskReg 8
  badMasks : BitVec 8
  kfctl : Word
  deriving DecidableEq, Repr

/-- A strand's architectural state, and what its suspension keeps (R40, R81). -/
structure Strand where
  /-- R32 -/
  status : Status
  /-- the number of its gang, 0 for none (R26) -/
  gang : Nat
  /-- KRANK (R27) -/
  rank : Nat
  /-- its place on the core (R29), KSTRAND (R481) -/
  place : Nat
  /-- R54 -/
  pc : Pc
  /-- s0 to s31 (R53) -/
  regs : Vector Word 32
  /-- their marks (R42, R80, R430) -/
  marks : Vector RegMark 32
  /-- VL (R31) -/
  vl : Nat
  /-- KVTYPE (R62) -/
  kvtype : Word
  /-- KFCTL (R75) -/
  kfctl : Word
  /-- KSR (R76) -/
  ksr : Word
  /-- KLM (R66) -/
  klm : Word
  /-- v0 to v31 (R55) -/
  v : Vector VImg 32
  /-- their poison, one bit per lane slot (R78) -/
  vpsn : Vector SlotPsn 32
  /-- m0 to m7 (R59) -/
  masks : Vector MaskReg 8
  /-- mask registers that an uncorrectable error has struck (R412) -/
  badMasks : BitVec 8
  /-- strand-scope K-registers that one has struck (R70, R412) -/
  badK : List Nat
  /-- acc0 to acc7 (R61) -/
  acc : Vector AccImg 8
  /-- their poison, one bit per cell (R78) -/
  accPsn : Vector CellPsn 8
  /-- w0 to w7 (R68) -/
  watch : Vector Watch 8
  /-- KUCAUSE, KUEPC, KUEGRP, KUEVAL (R70) -/
  user : TrapRegs
  /-- KCAUSE, KEPC, KEGRP, KEVAL (R70) -/
  super : TrapRegs
  /-- KSTATUS (R74) -/
  kstatus : Word
  /-- KSCRATCH (R70) -/
  kscratch : Word
  /-- the group from which the next instruction starts (R262), if ERET has named one -/
  resFirst : Option Nat
  /-- the group and number of later queue entries that also start at a group (R392) -/
  resG : Nat
  resN : Nat
  /-- the next instruction passes its watches (R258) -/
  watchPass : Bool
  /-- deferred causes, oldest first (R429) -/
  deferred : List Deferred
  /-- fence notes, bit 0 sl, 1 ss, 2 vl, 3 vs, 4 e (R437) -/
  notes : BitVec 5
  /-- the scratchpad allotment (R28): base offset in the core's scratchpad and size in bytes -/
  allotBase : Nat
  allotSize : Nat
  /-- log2 of the core grant that this strand sees (R57) -/
  grant : Nat
  /-- its last AMO had AQ 1: vector accesses and transfers wait for its reply (R162) -/
  acq : Bool
  /-- the registered wait (R39, R211, R237) -/
  wait : Wait
  /-- the pc of the instruction that waits -/
  waitPc : Pc
  /-- the live set of its suspension (R40) -/
  live : Word
  /-- registers outside the live set read 0 on resume (R41) -/
  zeroing : Bool
  /-- it waits in the issue slot, for want of room (R45) -/
  inPlace : Bool
  /-- for a parked strand, the state it returns to (R33) -/
  held : Status
  /-- where its context lies (R43) -/
  image : Image
  /-- the number of its 512-byte extent in its core's cellar area (R45) -/
  extent : Nat
  /-- its save has not ended (R39, R46) -/
  saving : Bool
  /-- the ageing boost (R340) -/
  boost : Nat
  /-- runnable since (R340) -/
  readyAt : Nat
  /-- the boost rises when 4,096 counted cycles have passed since this time (R340) -/
  agedAt : Nat
  /-- the copy that waits to be accepted (R231) -/
  vq : Option VqEntry
  /-- how far the vector instruction in progress has come (R391, R425, R439) -/
  prog : Option Prog
  /-- the vector queue, oldest first (R302) -/
  queue : List QEntry
  /-- the instructions in the window, 0 where none has started (R391), the row of groups in progress, and the next of them to do its group -/
  win : Nat
  row : Nat
  turn : Nat
  /-- the history buffer (R391) -/
  hist : Option Hist
  /-- accesses no longer provisional that have not entered the store buffer yet (R390) -/
  out : List SbEntry
  /-- answers collected for the vector instruction that waits (R439, R442) -/
  answers : List Answer
  /-- its requests have been sent -/
  asked : Bool
  /-- when they were -/
  askedAt : Nat
  /-- the word fetched from another device's page for a pc, and the pc for which it has been asked (R275, R403) -/
  code : Option (Pc × Answer)
  codeAsked : Option Pc
  /-- the instruction at the pc has passed checks 1 to 7 of R400: the model's own, set and used inside one step (DEDUCED, log 38) -/
  checked : Bool
  /-- the allotment's bytes, poisoned granules and tiles of a parked strand, offsets from the allotment's base (R49) -/
  padSaved : Memory
  padPsnSaved : List Nat
  tilesSaved : List Tile
  deriving DecidableEq, Repr

/-- A line of the scalar L1 or the L1 instruction cache (R281, R404): `line` is the line number, plus 2^48 times the key slot. -/
structure L1Line where
  line : Nat
  data : Line
  deriving DecidableEq, Repr

/-- A range interlock entry (R233): a strand's range in its own allotment, held by a transfer. -/
structure Lock where
  xfer : Nat
  gang : Nat
  rank : Nat
  lo : Nat
  hi : Nat
  dest : Bool
  deriving DecidableEq, Repr

/-- What a core's issue slot is doing (R46, R48). -/
inductive Phase where
  | idle | run | saving (till : Nat) | restoring (till : Nat)
  deriving DecidableEq, Repr

/-- A core (R16). -/
structure Core where
  /-- its physical number (R11), KCORE -/
  id : Nat
  /-- R46, R48 -/
  phase : Phase
  /-- the strand in the issue slot, or one of status none -/
  st : Strand
  /-- the other resident strands -/
  rest : List Strand
  /-- when the strand took the issue slot (R48) -/
  slotFrom : Nat
  /-- when the issue slot was last left -/
  freeFrom : Nat
  /-- log2 of the grant Gc (R29), and of the grant that formed the bank layout (R291) -/
  grant : Nat
  layout : Nat
  /-- a pending grant reduction (R344) -/
  reduceTo : Option Nat
  /-- the store buffer (R158) -/
  sb : List SbEntry
  /-- the scalar L1 (R281) -/
  l1 : List L1Line
  /-- the L1 instruction cache (R404; log 39) -/
  icache : List L1Line
  /-- the core TLB (R276) -/
  tlb : List Xlat
  /-- the scratchpad (R16) -/
  pad : Memory
  /-- its poisoned granules (R78) -/
  padPsn : List Nat
  /-- tiles whose tag is not empty (R209) -/
  tiles : List Tile
  /-- the overrun queue (R214) -/
  overrun : List Arrival
  /-- token-table entries in use or struck (R35) -/
  tokens : List Token
  /-- the range interlock table (R233) -/
  locks : List Lock
  /-- core-scope K-registers that an uncorrectable error has struck (R70, R412) -/
  badK : List Nat
  /-- the core voltage in mV (R476) -/
  mv : Nat
  /-- the core clock in MHz (R476) -/
  mhz : Nat
  /-- the return to 0.50 V and 3.0 GHz (R345) is withheld while up moves are (R477, R478) -/
  homing : Bool
  deriving DecidableEq, Repr

/-- What a LAUNCH packet asks for (R329) with its queue's supervisor context (R323). `farea` holds the fault area as runs of (device physical address, key slot, bytes), translated when the packet started (R330); `save` is SAVE, 0 for none (R333), and `saveAt` the save area's runs; `pkt` is the packet's number. -/
structure Task where
  queue : Nat
  pkt : Nat
  spawned : Bool
  c : Nat
  s : Nat
  grp : Nat
  gmin : Nat
  prio : Nat
  isolate : Bool
  code : Pc
  arg : Word
  spad : Nat
  farea : List (Nat × Nat × Nat)
  save : Word
  saveAt : List (Nat × Nat × Nat)
  asid : Nat
  ptbase : Nat
  stvec : Word
  deriving DecidableEq, Repr

/-- What becomes of a gang (R30, R49, R51, R395). -/
inductive GangState where
  | waiting | placed | parking | parked | contained | done
  deriving DecidableEq, Repr

/-- A strand that has exited, kept for its record (R398). -/
structure ExitRec where
  rank : Nat
  pc : Pc
  mode : Bool
  uin : Bool
  deriving DecidableEq, Repr

/-- One arrival at a barrier (R237): a rank, and its token's handle when it named one. -/
structure Arrived where
  rank : Nat
  handle : Option (BitVec 32)
  deriving DecidableEq, Repr

/-- A gang (R26–R28) with its gang-scope K-registers (R70). -/
structure Gang where
  /-- its number, KGANG (R26) -/
  id : Nat
  /-- what its packet asked for -/
  task : Task
  state : GangState
  /-- log2 of its grant (R338) -/
  grant : Nat
  /-- the rank table: core index to physical core (R27) -/
  cores : List Nat
  /-- when it joined the waiting list (R337) -/
  joined : Nat
  /-- when it was placed (R341) -/
  placedAt : Nat
  /-- KUTVEC (R70) -/
  kutvec : Word
  /-- KSTVEC (R70) -/
  kstvec : Word
  /-- KSTVEC as placement loaded it, for the gangs that it spawns (R333, R336) -/
  homeStvec : Word
  /-- KASID (R70) -/
  kasid : Nat
  /-- it is the pod-bound gang of its KASID (R362) -/
  bound : Bool
  /-- its gang-scope K-registers that an uncorrectable error has struck (R70, R412) -/
  badK : List Nat
  /-- the address spaces it has had before, for TLBINV (R264) -/
  pastAsids : List Nat
  /-- KPTBASE (R70) -/
  kptbase : Nat
  /-- KFREC (R70) -/
  kfrec : Nat
  /-- the block of the fault-record pool that it has been given (R333) -/
  block : Nat
  /-- the handler address before the last KWR, its time and the rank that wrote (R71) -/
  oldUtvec : Option (Word × Nat × Nat)
  oldStvec : Option (Word × Nat × Nat)
  /-- arrivals at the barrier (R237) -/
  arrived : List Arrived
  /-- cores in the order in which their last strand arrived (R345) -/
  coreOrder : List Nat
  /-- strands that have exited (R51) -/
  exited : List ExitRec
  /-- ranks stopped by containment (R395) -/
  contained : List Nat
  /-- tokens named by operations that containment stopped (R434) -/
  owed : List (BitVec 32)
  /-- the status its packet completes with (R331) -/
  status : Nat
  deriving DecidableEq, Repr

/-- An L2 line's state (R278); its bytes are in `mem` (DESIGN CHOICE, log 11). -/
structure L2Line where
  line : Nat
  dirty : Bool
  present : Bool
  psn : Bool
  key : Nat
  writer : Nat
  deriving DecidableEq, Repr

/-- An HBM cache frame (R284). -/
structure Frame where
  slice : Nat
  idx : Nat
  tag : Nat
  dirty : Bool
  key : Nat
  bad : Bool
  writer : Nat
  deriving DecidableEq, Repr

/-- A capacity port's link (R423). -/
structure Port where
  up : Bool
  lostAt : Option Nat
  down : Bool
  deriving DecidableEq, Repr

/-- A write whose invalidations are outstanding (R280, R296): the line, the cores left, and the strand and fence class of the issuer. Bit 7 of the class says that the strand has completed a FENCE with ss and vs in pred since (R398). -/
structure Inval where
  line : Nat
  left : List Nat
  gang : Nat
  rank : Nat
  cls : Nat
  deriving DecidableEq, Repr

/-- A line on its way to an L1 (R280). -/
structure L1Fill where
  core : Nat
  instr : Bool
  line : Nat
  data : Line
  deriving DecidableEq, Repr

/-- One side of a copy segment (R230): a slice address under a key slot, bytes of a rank's allotment on this device, another device's address, or another device's rank. -/
inductive Side where
  | mem (pa : Nat) (key : Nat)
  | pad (gang : Nat) (rank : Nat) (off : Nat)
  | farMem (dev : Nat) (pa : Nat) (key : Nat)
  | farPad (dev : Nat) (rank : Nat) (off : Nat)
  | cast (group : Nat) (off : Nat)
  deriving DecidableEq, Repr

/-- A run of bytes of a transfer (R231): `va` is the destination's virtual (or peer) address, for R431's KEVAL. -/
structure Seg where
  src : Side
  dst : Side
  va : Word
  len : Nat
  deriving DecidableEq, Repr

/-- An accepted transfer (R231, R213, R216): kind 0 CPY, 1 CPY2D, 2 CPYG, 3 TSTF, 4 TCMB, 5 COPY packet. -/
structure Xfer where
  id : Nat
  kind : Nat
  gang : Nat
  rank : Nat
  segs : List Seg
  total : Nat
  done : Nat
  handle : Option (BitVec 32)
  mf : Nat
  hasPeer : Bool
  filling : Bool
  group : Nat
  /-- fills or contributions, or remote requests, not yet answered -/
  waiting : Nat
  /-- fault-mask bits gathered (R213, R216) -/
  fbits : BitVec 16
  failed : Bool
  /-- nothing of it is sent any more; what is on its way elsewhere is awaited (R431, R432, R443) -/
  cut : Bool
  late : Bool
  /-- for a COPY packet, the (address space, 64 KiB page) of each translation it holds (R264); for a strand's copy, its (physical address, length) ranges in memory, another device's above 2^48 times one more than its number (R265) -/
  xlats : List (Nat × Nat)
  packet : Nat
  asid : Nat
  /-- for TSTF and CPYG, the pieces landed: tile, bytes, whether it ends its tile; and the tile at which the landing order begins (R231, R395) -/
  landed : List (Nat × Nat × Bool)
  base : Nat
  /-- a CPYG's destination address, for R431's KEVAL -/
  va : Word
  deriving DecidableEq, Repr

/-- A message to a token table (R36, R361): kind 0 increment, 1 completion, 2 signal. -/
structure TokMsg where
  kind : Nat
  handle : BitVec 32
  amount : Nat
  late : Bool
  source : Option Nat
  dec : Bool
  /-- the unit it comes from, as in Arrival, and its place among that unit's messages (R14; DEDUCED, log 89) -/
  unit : Nat
  seq : Nat
  /-- the engine transfer that it completes (R205, R233) -/
  xfer : Option Nat
  deriving DecidableEq, Repr

/-- A reply to a scalar register (R42, R430). -/
structure Reply where
  gang : Nat
  rank : Nat
  reg : Nat
  status : Nat
  psn : Bool
  value : Word
  addr : Word
  /-- the unit it comes from, as in Arrival, and its place among that unit's messages (R14; DEDUCED, log 89) -/
  unit : Nat
  seq : Nat
  deriving DecidableEq, Repr

/-- A multicast group (R234). -/
structure Group where
  g : Nat
  asid : Nat
  members : List (Nat × Nat)
  deriving DecidableEq, Repr

/-- A GJOIN or GLEAVE that waits for the command processor (R234). -/
structure GroupReq where
  join : Bool
  g : Nat
  gang : Nat
  rank : Nat
  deriving DecidableEq, Repr

/-- A CPYG piece on its way to its slice (R235, R282). -/
structure Piece where
  xfer : Nat
  gang : Nat
  rank : Nat
  group : Nat
  src : Side
  len : Nat
  off : Nat
  deriving DecidableEq, Repr

/-- A porch entry, live or released (R236). -/
structure Porch where
  slice : Nat
  group : Nat
  src : Side
  len : Nat
  off : Nat
  members : List (Nat × Nat × Nat)
  expiry : Nat
  released : Bool
  deriving DecidableEq, Repr

/-- A transaction packet (R359, R360). -/
structure Packet where
  typ : Nat
  dec : Bool
  len : Nat
  asid : Nat
  tag : Nat
  dst : Nat
  src : Nat
  mc : Bool
  vc : Nat
  d1 : Word
  payload : BitVec 2048
  /-- the SM4 key slot that travels with an access through a page (R275; log 14) -/
  key : Nat
  /-- a read that allocates in L2 where it misses, by the access it serves (R279, R361; log 14) -/
  alloc : Bool
  /-- the engine transfer of this device whose completion it carries (R205, R233; log 86) -/
  xfer : Option Nat
  deriving DecidableEq, Repr

/-- What the command processor sends to the plane switches (R364): an image for a group's shadow table, or the commit. The spec gives neither flit (DESIGN CHOICE, log 43). -/
inductive SwitchMsg where
  | load (g : Nat) (image : BitVec 512) | commit
  deriving DecidableEq, Repr

/-- What an outstanding request is for (R361, R430, R431, R442). -/
inductive ReqKind where
  /-- a scalar load into reg: bytes, sign-extend, address -/
  | load (reg : Nat) (n : Nat) (sgn : Bool) (addr : Word)
  /-- an instruction word for a pc -/
  | fetch (pc : Pc)
  | amo (reg : Nat) (n : Nat) (addr : Word)
  /-- a store of fence class cls, with bit 7 as in Inval -/
  | store (cls : Nat)
  /-- the datum of element or cell idx of a waiting vector instruction -/
  | vec (idx : Nat) (n : Nat)
  /-- a store's peer element, answered into the fault mask -/
  | vecStore (idx : Nat)
  /-- a copy's source read (true) or write of len bytes, and its destination's virtual address -/
  | xfer (id : Nat) (read : Bool) (len : Nat) (va : Word)
  /-- a fill or contribution sent to another device -/
  | fill (a : Arrival)
  | gforward (slice : Nat) (src : Nat) (off : Nat) (len : Nat) (members : List (Nat × Nat × Nat)) (dstOff : Nat) (group : Nat)
  | spawn (reg : Nat)
  | join
  | host (id : Nat)
  deriving DecidableEq, Repr

/-- An outstanding request (R359, R361). -/
structure Req where
  tag : Nat
  dst : Nat
  gang : Nat
  rank : Nat
  kind : ReqKind
  /-- one more than the pod multicast group that carried it; 0 for none -/
  mc : Nat
  deriving DecidableEq, Repr

/-- A flit as sent (R350–R356): its preamble, transaction area and link control dword. -/
structure Flit where
  dest : Nat
  mc : Bool
  vc : Nat
  area : BitVec 1920
  ctl : BitVec 32
  /-- the engine transfer whose completion it carries to a token of its destination (R36, R205; log 86) -/
  xfer : Option Nat
  deriving DecidableEq, Repr

/-- A flit as received: on each of 36 planes the eight preamble symbols as one 16-bit value, or none where the plane carries no preamble, and the 32 body words of 72 bits, with the planes and words as they came (R349, R447). `blockBad` is set when its block's burst code failed (R444). -/
structure RxFlit where
  pre : List (Option (BitVec 16))
  words : List (BitVec 72)
  blockBad : Bool
  /-- the device the flit comes from (DEDUCED, log 13) -/
  src : Nat
  deriving DecidableEq, Repr

/-- Fifteen flits: 72 lanes of 680 bits, plane p lane l at index 2p + l (R353). -/
structure RxBlock where
  lanes : List (BitVec 680)
  srcs : List Nat
  deriving DecidableEq, Repr

/-- Link state towards one device, or of a pod multicast group's flits (R354–R356, R448); `accepted` is 4,096 where no flit of a group has come yet (DEDUCED, log 27). -/
structure Pair where
  dev : Nat
  /-- the last SEQ sent, the last ACK received, the last SEQ accepted -/
  seq : Nat
  acked : Nat
  accepted : Nat
  goBack : List Flit
  resends : Nat
  heldSince : Nat
  sinceAck : Nat
  lastAckAt : Nat
  nakSent : Bool
  /-- a resend that QUIESCE has put off (R453) -/
  owing : Bool
  deriving DecidableEq, Repr

/-- A plane's registers (R444, R450). -/
structure Plane where
  score1 : Nat
  score0 : Nat
  pdis : Nat
  state : Nat
  blocks : Nat
  pdisAtHalving : Nat
  deriving DecidableEq, Repr

/-- A user-mode queue's registers (R323, R324). -/
structure Queue where
  q : Nat
  en : Bool
  err : Bool
  priv : Bool
  maxPrio : Nat
  estat : Nat
  qsize : Nat
  base : Word
  rd : Nat
  asid : Nat
  ptbase : Nat
  stvec : Word
  frbase : Nat
  frsize : Nat
  deriving DecidableEq, Repr

/-- A packet read from a queue, or taken from a strand, and not yet complete (R327, R330, R336, R337): `phase` 0 read, 3 its gang waits for a place, 1 started, 4 its commit is out (R364), 2 finished with `status`. `sig` and `target` are the device physical address and key slot of its completion signal, and of what a SIGNAL or WAIT names. `gang` is the gang of a LAUNCH. -/
structure Pkt where
  id : Nat
  queue : Nat
  spawned : Bool
  dwords : List Word
  phase : Nat
  status : Nat
  sig : Option (Nat × Nat)
  target : Option (Nat × Nat)
  gang : Nat
  deriving DecidableEq, Repr

/-- A SPAWNed packet at the intake, or one that has arrived from another device (R336, R366). -/
structure Spawn where
  dwords : List Word
  gang : Nat
  rank : Nat
  reg : Nat
  asid : Nat
  queue : Nat
  prio : Nat
  ptbase : Nat
  stvec : Word
  fromDev : Nat
  fromTag : Nat
  deriving DecidableEq, Repr

/-- A grant reduction (R344). -/
structure Reduction where
  grant : Nat
  cores : List Nat
  gangs : List Nat
  since : Nat
  /-- the time limit has passed and been acted on (R440) -/
  late : Bool
  deriving DecidableEq, Repr

/-- A write that has reached a control-space register (R272); `strand` tells who is acknowledged. -/
structure CtlWrite where
  addr : Nat
  n : Nat
  value : Word
  mgmt : Bool
  src : Nat
  gang : Nat
  rank : Nat
  /-- the request tag of a write from another device; a host request's number, 0 for none -/
  tag : Nat
  host : Nat
  /-- the strand has completed a FENCE with ss and vs in pred since (R398) -/
  covered : Bool
  deriving DecidableEq, Repr

/-- A host's request at a service port (R348, R368). -/
structure HostReq where
  id : Nat
  write : Bool
  addr : Word
  len : Nat
  data : BitVec 2048
  started : Bool
  /-- the service port it arrived on, 0 or 1 -/
  svc : Nat
  /-- for an atomic request, its operator and width as an fn10 of R114 (R367; log 95) -/
  atomic : Option Nat
  deriving DecidableEq, Repr

/-- What a host gets back (R368): data, done, or the UALink error response. -/
structure HostReply where
  id : Nat
  ok : Bool
  data : BitVec 2048
  deriving DecidableEq, Repr

/-- Where an error strikes (R409, R412): HBM by channel and address (R277), a scratchpad by bank and row (R291), the line buffer of the next AMO (R419). `asid` is the address space whose read finds it, 0xFFFF for none (R418). -/
inductive ErrorAt where
  | hbm (channel : Nat) (addr : Nat) (asid : Nat) | l2Data (line : Nat) (asid : Nat) | l2Tag (line : Nat) (both : Bool)
  | scratch (core : Nat) (bank : Nat) (row : Nat) (asid : Nat) | imageHeader (gang rank : Nat) | imageVec (gang rank : Nat) (v : Nat) (slot : Nat)
  | imageMask (gang rank : Nat) (m : Nat) (slot : Nat) | imageAcc (gang rank : Nat) (a : Nat) (cell : Nat)
  | front (gang rank : Nat) (v : Nat) (slot : Nat) | cell (gang rank : Nat) (a : Nat) (cell : Nat)
  | storeBuffer (core : Nat) (idx : Nat) | l1Data (core : Nat) (line : Nat) | l1Instr (core : Nat) (line : Nat)
  | tlb (core : Nat) (idx : Nat) | hubTlb (hub : Nat) (idx : Nat)
  | reg (gang rank : Nat) (r : Nat) | mask (gang rank : Nat) (m : Nat) | kreg (gang rank : Nat) (k : Nat)
  | token (core : Nat) (slot : Nat) | tag (core : Nat) (tile : Nat) | porch (idx : Nat)
  | frameTag (slice : Nat) (idx : Nat) | frameData (slice : Nat) (idx : Nat) (asid : Nat)
  | capacity (pa : Nat) | evictLine (line : Nat) | lineBuffer
  deriving DecidableEq, Repr

/-- The firmware image, its bytes as one number with the first most significant, and its boot configuration record (R471), with what the ROM checks: the security version, and the signature, which names the public key of the key pair that made it and the digest that it was made over (R472; DESIGN CHOICE, log 5). -/
structure BootRecord where
  image : Nat
  imageLen : Nat
  sigKey : BitVec 512
  sigDigest : BitVec 256
  version : Nat
  q : Nat
  cs : Nat
  w : Nat
  trains : Bool
  deriving DecidableEq, Repr

/-- Where bring-up stands (R471). -/
inductive Boot where
  | powerGood | seedling | configured | trained | full | failed | off
  deriving DecidableEq, Repr

/-- A containment asked for by a strand at its trap point (R393, R395). -/
structure Contain where
  gang : Nat
  rank : Nat
  cause : BitVec 8
  eval : Word
  grp : Nat
  depth : Nat
  psna : Option Nat
  deriving DecidableEq, Repr

/-- The model's schedule (DESIGN CHOICE, log 7): run a strand of core c; the same, but that a vector instruction stays in the queue (R302); a step of the core's vector unit, with a window of at most n instructions (R391); perform an event on its k-th occurrence; let n cycles pass. -/
inductive Move where
  | run (core : Nat) | queue (core : Nat) | vector (core : Nat) (n : Nat) | event (i : Instr) (k : Nat) | pass (n : Nat)
  deriving DecidableEq, Repr

/-- The device. -/
structure State where
  -- the model's own fields (logs 6, 7, 8)
  /-- the model's clock for the bounds that the spec gives in cycles (DESIGN CHOICE, log 6) -/
  now : Nat
  /-- the input that says which row comes next (DESIGN CHOICE, log 7) -/
  agenda : List Move
  /-- which occurrence of an event the agenda names, 0 the first (DESIGN CHOICE, log 7) -/
  pick : Nat
  /-- the input that supplies outcomes the spec leaves open (DESIGN CHOICE, log 8) -/
  choices : List Nat
  /-- the argument of the free values (DESIGN CHOICE, log 8) -/
  freeCtr : Nat
  /-- the next number of a transfer, packet or request (DESIGN CHOICE, log 7) -/
  nextId : Nat
  -- cores: the core in turn, and the others that differ from an untouched core
  /-- the core in turn (R16) -/
  core : Core
  /-- the other cores that are not as Core.fresh has them -/
  others : List Core
  -- gangs and the scheduler
  /-- the gangs not yet gone (R26 to R28) -/
  gangs : List Gang
  /-- gangs that wait for a place, in joining order (R337, R343) -/
  waiting : List Nat
  /-- the spawn intake (R336, R366) -/
  spawns : List Spawn
  /-- containments asked for (R395) -/
  contains : List Contain
  /-- grant reductions under way (R344) -/
  reductions : List Reduction
  -- memory
  /-- plaintext of flat HBM and of cached capacity lines (R271, R277; log 11) -/
  mem : Memory
  /-- poisoned 64-byte granules of them (R78, R411) -/
  memPsn : List Nat
  /-- dead 4,096-byte granules (R290) -/
  dead : List Nat
  /-- L2 lines, latest use first (R278) -/
  l2 : List L2Line
  /-- HBM cache frames that are not invalid (R284) -/
  frames : List Frame
  /-- ciphertext in the capacity devices (R288) -/
  port : Memory
  /-- lines with CXL poison (R287) -/
  portPsn : List Nat
  /-- capacity lines with a stale stamp (R285) -/
  stale : List Nat
  /-- links of CX0 to CX7 (R286, R423) -/
  ports : List Port
  /-- loaded SM4 key slots (R475) -/
  keys : List (Nat × BitVec 256)
  /-- KEYDATA (R474) -/
  keyData : BitVec 512
  /-- writes whose invalidations are outstanding (R280, R296) -/
  invals : List Inval
  /-- lines on their way to an L1 (R280) -/
  l1Fills : List L1Fill
  /-- translation cache of hub die 0 (R276) -/
  hub0 : List Xlat
  /-- translation cache of hub die 1 (R276) -/
  hub1 : List Xlat
  /-- translations that a walk has found, by core (R276) -/
  walks : List (Nat × Xlat)
  /-- flat quarters Q (R283) -/
  hbmQ : Nat
  /-- cellar area CS of a core, in KiB (R293) -/
  cellarKiB : Nat
  /-- populated capacity ports W (R286) -/
  portsW : Nat
  -- engines
  /-- accepted transfers (R231) -/
  xfers : List Xfer
  /-- messages to token tables (R36, R361) -/
  tokMsgs : List TokMsg
  /-- replies to scalar registers (R42) -/
  replies : List Reply
  /-- fills on their way to this device's tiles (R214) -/
  fills : List Arrival
  /-- contributions on their way (R216) -/
  combines : List Arrival
  /-- refused fills that wait to be sent again (R432) -/
  retries : List Arrival
  /-- owners of tiles whose fill has ended early (R214) -/
  fillEnds : List (Nat × Nat)
  /-- multicast groups (R234) -/
  groups : List Group
  /-- routers' egress entries that are not empty: router and group, and the ports north, south, east, west and core as bits 0 to 4 (R363) -/
  egress : List ((Nat × Nat) × BitVec 5)
  /-- hold counters that a TABLE packet set (R234, R334) -/
  holds : List (Nat × Nat)
  /-- joins and leaves that await the command processor (R234) -/
  groupReqs : List GroupReq
  /-- group-load pieces on their way to a slice (R235) -/
  pieces : List Piece
  /-- porch entries (R236) -/
  porch : List Porch
  -- command processor
  /-- queues that are not as Queue.fresh has them (R322 to R324) -/
  queues : List Queue
  /-- queues to examine (R326, R327) -/
  notified : List Nat
  /-- when every enabled queue is examined next (R327) -/
  scanAt : Nat
  /-- packets read and not complete (R327, R337) -/
  pkts : List Pkt
  /-- writes that have reached control space (R272, R325) -/
  ctlWrites : List CtlWrite
  -- host bridge
  /-- HMCTL.EN (R370) -/
  hmEn : Bool
  /-- HMCTL.HSIZE (R370; log 55) -/
  hmSize : Nat
  /-- HMBASE (R370) -/
  hmBase : Word
  /-- HMWR (R370) -/
  hmWr : Nat
  /-- HMRD (R370) -/
  hmRd : Nat
  /-- HMLOST (R370) -/
  hmLost : Nat
  /-- messages held by the member or the bridge (R370) -/
  hmKept : List (BitVec 256)
  /-- requests at the service ports, an input (R348, R368; DESIGN CHOICE, log 1) -/
  hostReqs : List HostReq
  /-- replies to hosts, an output (R368; log 1) -/
  hostOut : List HostReply
  /-- writes to host memory in the order made: address, bytes, value; an output (R370, R371; log 1) -/
  hostMem : List (Nat × Nat × BitVec 256)
  -- fabric
  /-- KDEV and FDEVID (R347, R348) -/
  kdev : Nat
  /-- FPLANE0 to FPLANE35 (R450) -/
  planes : List Plane
  /-- FLINK: flits resent, flits that failed CRC (R449) -/
  flink : Nat × Nat
  /-- FDISC: flits discarded, transactions of unknown TYPE (R449) -/
  fdisc : Nat × Nat
  /-- FCTL.QUIESCE (R451) -/
  quiesce : Bool
  /-- FBRIDGE (R449, R458) -/
  fbridge : BitVec 4
  /-- FFENCE0 to FFENCE7 (R449, R454) -/
  fence : BitVec 512
  /-- link state towards other devices and pod groups (R354 to R356) -/
  pairs : List Pair
  /-- packets that wait to be sent (R358) -/
  txq : List Packet
  /-- flits sent, an output (R350 to R356; log 1) -/
  sent : List Flit
  /-- those of them that await the rest of their block, and the blocks laid on the lanes, an output: 72 lanes of 680 bits each, plane p lane l at index 2p + l (R349, R353; log 1) -/
  txFlits : List Flit
  txBlocks : List (List (BitVec 680))
  /-- flits for which the plane switches have room, by channel (R354, R357) -/
  credit : List Nat
  /-- blocks received, an input (R353; log 1) -/
  rxBlocks : List RxBlock
  /-- flits received, an input (R349, R350; log 1) -/
  rxFlits : List RxFlit
  /-- packets that continue in a later flit of their destination, source and channel (R359): the first number is that of the flits' link state -/
  rxParts : List (Nat × Nat × Nat × Nat × BitVec 4096)
  /-- packets accepted and not yet performed (R361) -/
  rx : List Packet
  /-- outstanding requests (R359, R361) -/
  reqs : List Req
  /-- join handshakes without an answer: device and time last sent (R457) -/
  joins : List (Nat × Nat)
  /-- fewer working planes than the fabric needs (R445) -/
  fabricLost : Bool
  /-- live multicast tables of the plane switches (R364; DESIGN CHOICE, log 43) -/
  casts : List (Nat × BitVec 512)
  /-- their shadow tables (R364; log 43) -/
  shadowCasts : List (Nat × BitVec 512)
  /-- what has been sent to the plane switches, an output, and how many of them have acknowledged since the last commit, an input (R364; DESIGN CHOICE, log 43) -/
  switchOut : List SwitchMsg
  switchAcks : Nat
  -- management controller
  /-- the stage of bring-up (R471) -/
  boot : Boot
  /-- BOOTSTAT.STAGE (R474) -/
  stage : Nat
  /-- BOOTSTAT.FAIL (R474) -/
  fail : Nat
  /-- the firmware image and configuration record, an input (R471, R472; DESIGN CHOICE, log 5) -/
  record : BootRecord
  /-- the fuse counter of the security version (R472) -/
  fuseVersion : Nat
  /-- the vendor's public key in the fuses (R472) -/
  vendorKey : BitVec 512
  /-- the measurement register M (R473) -/
  measure : BitVec 256
  /-- the measurement log (R473) -/
  mlog : List (BitVec 256)
  /-- quote requests, an input (R473) -/
  nonces : List (BitVec 256)
  /-- quotes given, an output (R473) -/
  quotes : List (BitVec 512)
  /-- when the cores may issue (R471) -/
  coresFrom : Nat
  /-- PLIM (R474) -/
  plim : Nat
  /-- PWR (R474, R477) -/
  pwr : Nat
  /-- TMAX (R474, R478) -/
  tmax : Nat
  /-- up moves are blocked (R477, R478) -/
  upBlocked : Bool
  /-- the cores move down until TMAX is at or below 90 °C (R478) -/
  hot : Bool
  /-- when the cores last moved down for their temperature (R478) -/
  throttledAt : Nat
  /-- operating-point moves under way: core and whether up (R345, R476) -/
  opMoves : List (Nat × Bool)
  /-- an HFLUSH runs (R474) -/
  hflush : Bool
  /-- MECTL.EN (R417) -/
  meEn : Bool
  /-- MECTL.MSIZE (R417; log 55) -/
  meSize : Nat
  /-- MEBASE (R417) -/
  meBase : Nat
  /-- MEWR (R417) -/
  meWr : Nat
  /-- MERD (R417) -/
  meRd : Nat
  /-- MELOST (R417) -/
  meLost : Nat
  /-- MECE (R417) -/
  mece : Word
  /-- errors that have struck and are not handled, an input (R409; log 1) -/
  errors : List ErrorAt
  /-- device-scope K-registers that an uncorrectable error has struck (R70, R412) -/
  badK : List Nat
  deriving DecidableEq, Repr

/-- No watch (R68). -/
def Watch.zero : Watch := { ctl := 0, base := 0, lim := 0, str := 0 }

/-- Trap registers at placement (R73). -/
def TrapRegs.zero : TrapRegs := { cause := 0, epc := 0, egrp := 0, eval := 0, depth := 0 }

/-- No saved image. (DESIGN CHOICE, log 106) -/
def Image.none : Image := { bytes := 0, larder := false, ext := 0, kib := [], saveKiB := 0, bad := Option.none }

/-- The KVTYPE of a newly placed strand (R31). -/
def kvtypeIll : Word := 0x8000000000000000#64

/-- An issue slot without a strand: the registers as R31 places them, status none (DESIGN CHOICE, log 3). -/
def Strand.empty : Strand where
  status := .none
  gang := 0
  rank := 0
  place := 0
  pc := 0
  regs := Vector.replicate 32 0#64
  marks := Vector.replicate 32 .ok
  vl := 0
  kvtype := kvtypeIll
  kfctl := 0
  ksr := 0
  klm := 0
  v := Vector.replicate 32 0
  vpsn := Vector.replicate 32 0
  masks := Vector.replicate 8 0
  badMasks := 0
  badK := []
  acc := Vector.replicate 8 0
  accPsn := Vector.replicate 8 0
  watch := Vector.replicate 8 Watch.zero
  user := TrapRegs.zero
  super := TrapRegs.zero
  kstatus := 0
  kscratch := 0
  resFirst := none
  resG := 0
  resN := 0
  watchPass := false
  deferred := []
  notes := 0
  allotBase := 0
  allotSize := 0
  grant := 0
  acq := false
  wait := .none
  waitPc := 0
  live := 0
  zeroing := false
  inPlace := false
  held := .none
  image := Image.none
  extent := 0
  saving := false
  boost := 0
  readyAt := 0
  agedAt := 0
  vq := none
  prog := none
  queue := []
  win := 0
  row := 0
  turn := 0
  hist := none
  out := []
  answers := []
  asked := false
  askedAt := 0
  code := none
  codeAsked := none
  checked := false
  padSaved := []
  padPsnSaved := []
  tilesSaved := []

/-- A core that nothing has touched since its release (R471): no residents, caches empty, 0.50 V and 3.0 GHz (R476). (DESIGN CHOICE, log 3) -/
def Core.fresh (id : Nat) : Core where
  id := id
  phase := .idle
  st := Strand.empty
  rest := []
  slotFrom := 0
  freeFrom := 0
  grant := 0
  layout := 0
  reduceTo := none
  sb := []
  l1 := []
  icache := []
  tlb := []
  pad := []
  padPsn := []
  tiles := []
  overrun := []
  tokens := []
  locks := []
  badK := []
  mv := 500
  mhz := 3000
  homing := false

/-- A queue that nothing has configured (R324; log 4). -/
def Queue.fresh (q : Nat) : Queue where
  q := q
  en := false
  err := false
  priv := false
  maxPrio := 0
  estat := 0
  qsize := 0
  base := 0
  rd := 0
  asid := 0
  ptbase := 0
  stvec := 0
  frbase := 0
  frsize := 0

/-- A plane after reset (R450). (DESIGN CHOICE, log 4) -/
def Plane.fresh : Plane := { score1 := 0, score0 := 0, pdis := 0, state := 0, blocks := 0, pdisAtHalving := 0 }

/-- A capacity port whose link is up. -/
def Port.fresh : Port := { up := true, lostAt := none, down := false }

/-- The boot image that stands in the device at power-good (DESIGN CHOICE, log 5). -/
def BootRecord.default : BootRecord where
  image := 0
  imageLen := 0
  sigKey := 0
  sigDigest := 0xf6809810481748e9426a9ab49237f3b691d44cb81c8bc0cff5bddb864909e046
  version := 0
  q := 4
  cs := 64
  w := 1
  trains := true

/-- The machine right after reset: power-good has been given, no stage of R471 has run. (DESIGN CHOICE, log 2) (DESIGN CHOICE, log 3) (DESIGN CHOICE, log 4) -/
def State.reset : State where
  now := 0
  agenda := []
  pick := 0
  choices := []
  freeCtr := 0
  nextId := 1
  core := Core.fresh 0
  others := []
  gangs := []
  waiting := []
  spawns := []
  contains := []
  reductions := []
  mem := []
  memPsn := []
  dead := []
  l2 := []
  frames := []
  port := []
  portPsn := []
  stale := []
  ports := List.replicate 8 Port.fresh
  keys := []
  keyData := 0
  invals := []
  l1Fills := []
  hub0 := []
  hub1 := []
  walks := []
  hbmQ := 4
  cellarKiB := 64
  portsW := 1
  xfers := []
  tokMsgs := []
  replies := []
  fills := []
  combines := []
  retries := []
  fillEnds := []
  groups := []
  egress := []
  holds := []
  groupReqs := []
  pieces := []
  porch := []
  queues := []
  notified := []
  scanAt := 0
  pkts := []
  ctlWrites := []
  hmEn := false
  hmSize := 0
  hmBase := 0
  hmWr := 0
  hmRd := 0
  hmLost := 0
  hmKept := []
  hostReqs := []
  hostOut := []
  hostMem := []
  kdev := 0
  planes := List.replicate 36 Plane.fresh
  flink := (0, 0)
  fdisc := (0, 0)
  quiesce := false
  fbridge := 0
  fence := 0
  pairs := []
  txq := []
  sent := []
  txFlits := []
  txBlocks := []
  credit := List.replicate 4 32
  rxBlocks := []
  rxFlits := []
  rxParts := []
  rx := []
  reqs := []
  joins := []
  fabricLost := false
  casts := []
  shadowCasts := []
  switchOut := []
  switchAcks := 0
  boot := .powerGood
  stage := 0
  fail := 0
  record := BootRecord.default
  fuseVersion := 0
  vendorKey := 0
  measure := 0
  mlog := []
  nonces := []
  quotes := []
  coresFrom := 0
  plim := 2400
  pwr := 0
  tmax := 0
  upBlocked := false
  hot := false
  throttledAt := 0
  opMoves := []
  hflush := false
  meEn := false
  meSize := 0
  meBase := 0
  meWr := 0
  meRd := 0
  meLost := 0
  mece := 0
  errors := []
  badK := []

end Sys2Proof.Machine
end

