-- ==== Sys2Proof/Machine/Bits.lean ====
section
/-!
DEFINITION. Bytes, bit fields, memories as canonical lists, and small list updates. Byte order is little-endian (R3), decided here.
-/
namespace Sys2Proof.Machine

/-- Bits h down to l of a value, as R8 writes x[h:l]. -/
def bits (x : Nat) (h l : Nat) : Nat := x / 2 ^ l % 2 ^ (h + 1 - l)

/-- One bit of a value. -/
def bit (x : Nat) (i : Nat) : Bool := x / 2 ^ i % 2 == 1

/-- A Bool as 0 or 1. -/
def b2n (b : Bool) : Nat := if b then 1 else 0

/-- sext(x, w) of R8. -/
def sext (x w : Nat) : Word := (BitVec.ofNat w x).signExtend 64

/-- The signed value of a w-bit pattern. -/
def toInt (w x : Nat) : Int := (BitVec.ofNat w x).toInt

/-- An exact integer wrapped to w bits (R8, R83). -/
def wrap (w : Nat) (i : Int) : Nat := (BitVec.ofInt w i).toNat

/-- Ceiling division. -/
def ceilDiv (a b : Nat) : Nat := (a + b - 1) / b

/-- x rounded up to a multiple of n. -/
def roundUp (x n : Nat) : Nat := ceilDiv x n * n

/-- The byte a memory holds at an address; an unlisted address reads 0 (DESIGN CHOICE, log 2). -/
def readByte (m : Memory) (a : Nat) : Byte :=
  match m with
  | [] => 0
  | c :: r => if c.1 = a then c.2 else readByte r a

/-- The n bytes at an address, little-endian (R8). (DESIGN CHOICE, log 2) -/
def readNat (m : Memory) (a : Nat) : Nat → Nat
  | 0 => 0
  | n + 1 => (readByte m a).toNat + 256 * readNat m (a + 1) n

/-- The listed cells of n bytes of a value, in ascending order, zeros left out. -/
def cellsOf (a v : Nat) : Nat → Memory
  | 0 => []
  | n + 1 =>
    if v % 256 = 0 then cellsOf (a + 1) (v / 256) n
    else (a, BitVec.ofNat 8 v) :: cellsOf (a + 1) (v / 256) n

/-- Store n bytes of a value at an address, little-endian, keeping the canonical form. (DESIGN CHOICE, log 2) -/
def writeNat (m : Memory) (a n v : Nat) : Memory :=
  m.filter (fun c => decide (c.1 < a)) ++ (cellsOf a v n ++ m.filter (fun c => decide (a + n ≤ c.1)))

/-- The canonical form: addresses strictly rising, no byte that an unlisted address reads as. (DESIGN CHOICE, log 2) -/
def Memory.wf (m : Memory) : Bool :=
  match m with
  | [] => true
  | c :: r => c.2 != 0 && (match r with | [] => true | d :: _ => decide (c.1 < d.1)) && Memory.wf r

/-- Store the bytes of a value that a byte mask selects. -/
def writeMasked (m : Memory) (a n : Nat) (mask v : Nat) : Memory :=
  (List.range n).foldl (fun m i => if bit mask i then writeNat m (a + i) 1 (v / 256 ^ i % 256) else m) m

/-- Put an element into a set held as a list. -/
def addTo (l : List Nat) (x : Nat) : List Nat := if l.contains x then l else x :: l

/-- Each element of a list once, where it stands first. -/
def firsts {α : Type} [DecidableEq α] (l : List α) : List α := l.foldl (fun r a => if r.contains a then r else r ++ [a]) []

/-- Take an element out of such a set. -/
def delFrom (l : List Nat) (x : Nat) : List Nat := l.filter (· != x)

/-- Set or clear membership. -/
def setIn (l : List Nat) (x : Nat) (b : Bool) : List Nat := if b then addTo l x else delFrom l x

/-- Replace the records that p picks, or append the new one where there is none. -/
def upsert {α : Type} (p : α → Bool) (x : α) (l : List α) : List α :=
  if l.any p then l.map (fun y => if p y then x else y) else l ++ [x]

/-- Change the records that p picks. -/
def mapIf {α : Type} (p : α → Bool) (f : α → α) (l : List α) : List α := l.map (fun y => if p y then f y else y)

/-- The n-th record that p picks, counting round (State.pick chooses among ready occurrences), with the rest. -/
def takeNth {α : Type} (p : α → Bool) (l : List α) (n : Nat) : Option (α × List α) :=
  let c := (l.filter p).length
  if c = 0 then none else go (n % c) l
where
  go : Nat → List α → Option (α × List α)
    | _, [] => none
    | k, x :: r =>
      if p x then
        match k with
        | 0 => some (x, r)
        | k + 1 => (go k r).map (fun (y, t) => (y, x :: t))
      else (go k r).map (fun (y, t) => (y, x :: t))

/-- Bytes [off, off + n) of a vector register's image (R55, R58). -/
def vGet (img : VImg) (off n : Nat) : Nat := img.toNat / 2 ^ (8 * off) % 2 ^ (8 * n)

/-- The image with those bytes replaced; a write past its end is lost. -/
def vPut (img : VImg) (off n v : Nat) : VImg :=
  let x := img.toNat
  BitVec.ofNat 32768 (x % 2 ^ (8 * off) + 2 ^ (8 * off) * (v % 2 ^ (8 * n)) + x / 2 ^ (8 * (off + n)) * 2 ^ (8 * (off + n)))

/-- A BitVec with one bit set to b; nothing where the bit lies outside. -/
def putBit {w : Nat} (x : BitVec w) (i : Nat) (b : Bool) : BitVec w :=
  if b then x ||| (1#w <<< i) else x &&& ~~~(1#w <<< i)

end Sys2Proof.Machine
end

