-- ==== Sys2Proof/Machine/Float.lean ====
section
/-!
DEFINITION. Floating-point arithmetic on bit patterns (04_numbers.md): exact, then rounded once (R88), with the special values of R90 and R91 and the flags of R92.
-/
namespace Sys2Proof.Machine

/-- The sticky flags an operation raises: bit 0 NV, 1 DZ, 2 OF, 3 UF, 4 NX, the order of KFCTL [8:4] (R75). -/
abbrev Flags := BitVec 5
def fNV : Flags := 1
def fDZ : Flags := 2
def fOF : Flags := 4
def fUF : Flags := 8
def fNX : Flags := 16

/-- A format of R85. -/
structure Fmt where
  eb : Nat
  fb : Nat
  bias : Nat
  /-- E all ones, F = 0 is an infinity -/
  inf : Bool
  /-- the format has NaN codes -/
  nan : Bool
  deriving DecidableEq, Repr

def fp64 : Fmt := ⟨11, 52, 1023, true, true⟩
def fp32 : Fmt := ⟨8, 23, 127, true, true⟩
def bf16 : Fmt := ⟨8, 7, 127, true, true⟩
def fp16 : Fmt := ⟨5, 10, 15, true, true⟩
def e4m3 : Fmt := ⟨4, 3, 7, false, true⟩
def e5m2 : Fmt := ⟨5, 2, 15, true, true⟩
def e2m1 : Fmt := ⟨2, 1, 1, false, false⟩

/-- The format of an ET code (R62); integers have none. -/
def fmtOf (et : Nat) : Option Fmt :=
  match et with
  | 2 => some fp64 | 3 => some fp32 | 4 => some bf16 | 5 => some fp16
  | 6 => some e4m3 | 7 => some e5m2 | 8 => some e2m1 | _ => none

def Fmt.width (f : Fmt) : Nat := 1 + f.eb + f.fb
/-- The code of +∞, where there is one. -/
def Fmt.infCode (f : Fmt) : Nat := (2 ^ f.eb - 1) * 2 ^ f.fb
/-- The code of the largest finite magnitude (R85). -/
def Fmt.maxCode (f : Fmt) : Nat :=
  if f.inf then f.infCode - 1 else if f.nan then 2 ^ (f.eb + f.fb) - 2 else 2 ^ (f.eb + f.fb) - 1
/-- The canonical NaN (R85). -/
def Fmt.nanCode (f : Fmt) : Nat := if f.inf then f.infCode + 2 ^ (f.fb - 1) else 2 ^ (f.eb + f.fb) - 1
/-- A code with its sign. -/
def Fmt.signed (f : Fmt) (neg : Bool) (code : Nat) : Nat := b2n neg * 2 ^ (f.eb + f.fb) + code
/-- The exponent of the least significant bit of the smallest subnormal. -/
def Fmt.qmin (f : Fmt) : Int := 1 - (f.bias : Int) - f.fb

/-- A value: NaN (signalling or not), infinity, or ± m · 2^e. -/
inductive FVal where
  | nan (sig : Bool)
  | inf (neg : Bool)
  | fin (neg : Bool) (m : Nat) (e : Int)
  deriving DecidableEq, Repr

/-- The value of a code (R85). -/
def unpack (f : Fmt) (code : Nat) : FVal :=
  let fr := code % 2 ^ f.fb
  let ex := code / 2 ^ f.fb % 2 ^ f.eb
  let neg := bit code (f.eb + f.fb)
  if f.inf && ex == 2 ^ f.eb - 1 then
    if fr == 0 then .inf neg else .nan (decide (fr < 2 ^ (f.fb - 1)))
  else if f.nan && !f.inf && code % 2 ^ (f.eb + f.fb) == 2 ^ (f.eb + f.fb) - 1 then .nan false
  else if ex == 0 then .fin neg fr f.qmin
  else .fin neg (2 ^ f.fb + fr) (f.qmin + ((ex : Int) - 1))

/-- Whether the discarded part moves the kept magnitude up by one (R88): `c` compares it with one half, `rest` says it is not zero. -/
def roundsUp (mode : Nat) (neg odd rest : Bool) (c : Ordering) : Bool :=
  match mode with
  | 0 => c == .gt || (c == .eq && odd)
  | 1 => false
  | 2 => neg && rest
  | _ => !neg && rest

/-- m · 2^e, plus a positive amount below 2^e when sticky, cut to a multiple of 2^q and rounded: the multiple, and whether anything was cut off. -/
def cut (mode : Nat) (neg : Bool) (m : Nat) (e : Int) (sticky : Bool) (q : Int) : Nat × Bool :=
  if q ≤ e then (m * 2 ^ (e - q).toNat, sticky)
  else
    let d := (q - e).toNat
    let n := m / 2 ^ d
    let r := m % 2 ^ d
    let half := 2 ^ (d - 1)
    let rest := sticky || r != 0
    let c : Ordering := if r < half then .lt else if r == half && !sticky then .eq else .gt
    (n + b2n (roundsUp mode neg (n % 2 == 1) rest c), rest)

/-- The exponent of the leading bit. -/
def topBit (m : Nat) (e : Int) : Int := e + (Nat.log2 m : Int)

/-- What R89 delivers in place of a magnitude beyond the largest finite one. -/
def overflowCode (f : Fmt) (mode : Nat) (neg : Bool) : Nat :=
  if f.inf && (mode == 0 || (mode == 2 && neg) || (mode == 3 && !neg)) then f.signed neg f.infCode
  else f.signed neg f.maxCode

/-- The magnitude of a finite code, as m · 2^e. -/
def codeMag (f : Fmt) (code : Nat) : Nat × Int :=
  let ex := code / 2 ^ f.fb
  if ex = 0 then (code % 2 ^ f.fb, f.qmin) else (2 ^ f.fb + code % 2 ^ f.fb, f.qmin + ((ex : Int) - 1))

/-- m · 2^e lies beyond the largest finite magnitude. -/
def Fmt.beyond (f : Fmt) (m : Nat) (e : Int) : Bool :=
  let (k, q) := codeMag f f.maxCode
  let b := min e q
  decide (k * 2 ^ (q - b).toNat < m * 2 ^ (e - b).toNat)

/-- round of R8: a non-zero exact magnitude into a format, with its flags (R88, R89, R92). `sat` asks for the saturation of an MX conversion: there every value beyond the largest finite magnitude sets OF and NX (R180); elsewhere OF looks at the rounded magnitude (R92; log 77). A result of zero sets no UF (R92). (DEDUCED, log 19) -/
def roundTo (f : Fmt) (mode : Nat) (sat : Bool) (neg : Bool) (m : Nat) (e : Int) (sticky : Bool) : Nat × Flags :=
  let t := topBit m e
  let q := max (t - f.fb) f.qmin
  let (n, inexact) := cut mode neg m e sticky q
  let code := (q - f.qmin).toNat * 2 ^ f.fb + n
  if sat && f.beyond m e then (f.signed neg f.maxCode, fOF ||| fNX)
  else if f.maxCode < code then (overflowCode f mode neg, fOF ||| fNX)
  else
    let (nu, _) := cut mode neg m e sticky (t - f.fb)
    let tiny := decide (topBit nu (t - f.fb) < f.qmin + f.fb)
    (f.signed neg code, if inexact then (if tiny && code != 0 then fUF ||| fNX else fNX) else 0)

/-- A NaN result: the canonical NaN, NV when asked (R90). -/
def nanOut (f : Fmt) (nv : Bool) : Nat × Flags := (f.nanCode, if nv then fNV else 0)

def FVal.isSig : FVal → Bool
  | .nan s => s
  | _ => false
def FVal.isNan : FVal → Bool
  | .nan _ => true
  | _ => false
def FVal.isZero : FVal → Bool
  | .fin _ m _ => m == 0
  | _ => false
def FVal.neg : FVal → FVal
  | .nan s => .nan s
  | .inf n => .inf (!n)
  | .fin n m e => .fin (!n) m e

/-- ± m as an integer. -/
def sgn (neg : Bool) (m : Nat) : Int := if neg then -(m : Int) else m

/-- The sum of two finite values as integer times power of two. -/
def dySum (a b : Int × Int) : Int × Int :=
  let e := min a.2 b.2
  (a.1 * 2 ^ (a.2 - e).toNat + b.1 * 2 ^ (b.2 - e).toNat, e)

/-- An exact signed dyadic rounded; `zneg` is the sign that an exact zero takes. -/
def roundDy (f : Fmt) (mode : Nat) (zneg : Bool) (x : Int × Int) : Nat × Flags :=
  if x.1 = 0 then (f.signed zneg 0, 0) else roundTo f mode false (decide (x.1 < 0)) x.1.natAbs x.2 false

/-- x + y on values (R88, R90). -/
def fAddV (f : Fmt) (mode : Nat) (x y : FVal) : Nat × Flags :=
  match x, y with
  | .nan _, _ => nanOut f (x.isSig || y.isSig)
  | _, .nan _ => nanOut f (x.isSig || y.isSig)
  | .inf a, .inf b => if a == b then (f.signed a f.infCode, 0) else nanOut f true
  | .inf a, _ => (f.signed a f.infCode, 0)
  | _, .inf b => (f.signed b f.infCode, 0)
  | .fin na ma ea, .fin nb mb eb =>
    let zneg := if ma == 0 && mb == 0 && na == nb then na else mode == 2
    roundDy f mode zneg (dySum (sgn na ma, ea) (sgn nb mb, eb))

/-- The exact product of two values, and whether it is 0 · ∞ (R90). -/
def fMulV (x y : FVal) : FVal × Bool :=
  match x, y with
  | .nan s, _ => (.nan (s || y.isSig), false)
  | _, .nan s => (.nan (s || x.isSig), false)
  | .inf a, .inf b => (.inf (a != b), false)
  | .inf a, .fin b m _ => if m == 0 then (.nan false, true) else (.inf (a != b), false)
  | .fin a m _, .inf b => if m == 0 then (.nan false, true) else (.inf (a != b), false)
  | .fin a ma ea, .fin b mb eb => (.fin (a != b) (ma * mb) (ea + eb), false)

/-- A value rounded into a format, without other operands. -/
def roundV (f : Fmt) (mode : Nat) : FVal → Nat × Flags
  | .nan s => nanOut f s
  | .inf n => (f.signed n f.infCode, 0)
  | .fin n m e => if m = 0 then (f.signed n 0, 0) else roundTo f mode false n m e false

def fAdd (f : Fmt) (mode x y : Nat) : Nat × Flags := fAddV f mode (unpack f x) (unpack f y)
/-- x − y as x + (−y), which also gives the sign of a zero difference of two zeros. (DEDUCED, log 78) -/
def fSub (f : Fmt) (mode x y : Nat) : Nat × Flags := fAddV f mode (unpack f x) (unpack f y).neg
def fMul (f : Fmt) (mode x y : Nat) : Nat × Flags :=
  let (p, bad) := fMulV (unpack f x) (unpack f y)
  if bad then nanOut f true else roundV f mode p

/-- x / y (R90, R92). -/
def fDiv (f : Fmt) (mode x y : Nat) : Nat × Flags :=
  match unpack f x, unpack f y with
  | .nan s, b => nanOut f (s || b.isSig)
  | _, .nan s => nanOut f s
  | .inf _, .inf _ => nanOut f true
  | .inf a, .fin b _ _ => (f.signed (a != b) f.infCode, 0)
  | .fin a _ _, .inf b => (f.signed (a != b) 0, 0)
  | .fin a ma ea, .fin b mb eb =>
    if mb = 0 then
      if ma = 0 then nanOut f true else (f.signed (a != b) f.infCode, fDZ)
    else if ma = 0 then (f.signed (a != b) 0, 0)
    else
      let k := 2 * f.fb + 4 + Nat.log2 mb
      let n := ma * 2 ^ k
      roundTo f mode false (a != b) (n / mb) (ea - eb - k) (n % mb != 0)

/-- The integer square root, digit by digit from bit k down. -/
def isqrt (n : Nat) : Nat → Nat → Nat
  | 0, r => if (r + 1) * (r + 1) ≤ n then r + 1 else r
  | k + 1, r => isqrt n k (if (r + 2 ^ (k + 1)) * (r + 2 ^ (k + 1)) ≤ n then r + 2 ^ (k + 1) else r)

/-- √x (R90). -/
def fSqrt (f : Fmt) (mode x : Nat) : Nat × Flags :=
  match unpack f x with
  | .nan s => nanOut f s
  | .inf n => if n then nanOut f true else (f.infCode, 0)
  | .fin n m e =>
    if m = 0 then (f.signed n 0, 0)
    else if n then nanOut f true
    else
      let k := 2 * f.fb + 6
      let k := if (e - k) % 2 == 0 then k else k + 1
      let v := m * 2 ^ k
      let r := isqrt v (Nat.log2 v / 2 + 1) 0
      roundTo f mode false false r ((e - k) / 2) (r * r != v)

/-- x · y + z, rounded once (R96): a 0 · ∞ product sets NV whatever z is (R90). -/
def fFma (f : Fmt) (mode : Nat) (negProduct : Bool) (x y z : Nat) : Nat × Flags :=
  let (p, bad) := fMulV (unpack f x) (unpack f y)
  let c := unpack f z
  if bad then nanOut f true
  else fAddV f mode (if negProduct then p.neg else p) c

/-- Numeric comparison of two non-NaN values. -/
def fLt (x y : FVal) : Bool :=
  match x, y with
  | .nan _, _ => false
  | _, .nan _ => false
  | .inf a, .inf b => a && !b
  | .inf a, _ => a
  | _, .inf b => !b
  | .fin na ma ea, .fin nb mb eb =>
    let e := min ea eb
    decide (sgn na ma * 2 ^ (ea - e).toNat < sgn nb mb * 2 ^ (eb - e).toNat)
def fEq (x y : FVal) : Bool := !x.isNan && !y.isNan && !fLt x y && !fLt y x

/-- minimumNumber and maximumNumber (R91): −0 below +0, NaN only when both are. -/
def fMinMax (f : Fmt) (isMax : Bool) (x y : Nat) : Nat × Flags :=
  let a := unpack f x
  let b := unpack f y
  let fl := if a.isSig || b.isSig then fNV else 0
  let sx := bit x (f.eb + f.fb)
  let code :=
    if a.isNan && b.isNan then f.nanCode
    else if a.isNan then y
    else if b.isNan then x
    else
      let less := fLt a b || (fEq a b && sx)
      if less != isMax then x else y
  (code, fl)

/-- FCMP and VFCMP conditions: 0 eq, 1 lt, 2 le, 3 un, 4 ne, 5 ord (R148, R182), with NV. -/
def fCompare (f : Fmt) (cond x y : Nat) : Bool × Flags :=
  let a := unpack f x
  let b := unpack f y
  let sig := a.isSig || b.isSig
  let nan := a.isNan || b.isNan
  match cond with
  | 0 => (fEq a b, if sig then fNV else 0)
  | 1 => (fLt a b, if nan then fNV else 0)
  | 2 => (fLt a b || fEq a b, if nan then fNV else 0)
  | 3 => (nan, if sig then fNV else 0)
  | 4 => (!fEq a b, if sig then fNV else 0)
  | _ => (!nan, if sig then fNV else 0)

/-- FCLASS (R149): the number of the one bit set. -/
def fClass (f : Fmt) (x : Nat) : Nat :=
  match unpack f x with
  | .nan s => if s then 8 else 9
  | .inf n => if n then 0 else 7
  | .fin n m _ =>
    if m == 0 then (if n then 3 else 4)
    else if m < 2 ^ f.fb then (if n then 2 else 5)
    else (if n then 1 else 6)

/-- FP to FP (R93, R89): NaN and infinities by the destination, then one rounding. -/
def fConvert (src dst : Fmt) (mode : Nat) (x : Nat) : Nat × Flags :=
  match unpack src x with
  | .nan s =>
    if dst.nan then nanOut dst s else (0, fNV)
  | .inf n =>
    if dst.inf then (dst.signed n dst.infCode, 0)
    else if dst.nan then nanOut dst true
    else (dst.signed n dst.maxCode, fNV)
  | .fin n m e => if m = 0 then (dst.signed n 0, 0) else roundTo dst mode false n m e false

/-- FP to an integer of w bits (R93). -/
def fToInt (f : Fmt) (w : Nat) (isSigned : Bool) (mode x : Nat) : Nat × Flags :=
  let lo : Int := if isSigned then -(2 ^ (w - 1)) else 0
  let hi : Int := if isSigned then 2 ^ (w - 1) - 1 else 2 ^ w - 1
  match unpack f x with
  | .nan _ => (0, fNV)
  | .inf n => (wrap w (if n then lo else hi), fNV)
  | .fin n m e =>
    let (k, inexact) := cut mode n m e false 0
    let i := sgn n k
    if i < lo then (wrap w lo, fNV)
    else if hi < i then (wrap w hi, fNV)
    else (wrap w i, if inexact then fNX else 0)

/-- An integer to FP, rounded in the mode (R93). -/
def intToF (f : Fmt) (w : Nat) (isSigned : Bool) (mode x : Nat) : Nat × Flags :=
  let i : Int := if isSigned then toInt w x else (x % 2 ^ w : Nat)
  roundDy f mode false (i, 0)

/-- ln 2 · 2^400, rounded down. (DEDUCED, log 12) -/
def ln2Fix : Nat := 0xb17217f7d1cf79abc9e3b39803f2f6af40f343267298b62d8a0d175b8baafa2be7b876206debac98559552fb4afa1b10ed2e

/-- The sum of y^k / k! for k = j, j + 1, … as fixed point with 400 fraction bits, `t` the term before. (DEDUCED, log 12) -/
def expSeries (y : Nat) : Nat → Nat → Nat → Nat
  | 0, _, _ => 0
  | n + 1, j, t =>
    let t' := t * y / (j * 2 ^ 400)
    t' + expSeries y n (j + 1) t'

/-- 2^x rounded (R100). The fraction's power is taken to 400 bits, which decides every rounding unless 2^x lies within 2^-380 of a rounding boundary (DEDUCED, log 12). -/
def fExp2 (f : Fmt) (mode x : Nat) : Nat × Flags :=
  match unpack f x with
  | .nan s => nanOut f s
  | .inf n => (if n then 0 else f.infCode, 0)
  | .fin n m e =>
    if m = 0 then (f.bias * 2 ^ f.fb, 0)
    else if 0 ≤ e || m % 2 ^ (-e).toNat == 0 then
      -- an integer: an exact power of two, its exponent held inside what every format can tell apart
      let k : Int := if 0 ≤ e then (if e < 20 then (m * 2 ^ e.toNat : Nat) else 5000) else (m / 2 ^ (-e).toNat : Nat)
      let k := min k 5000
      roundTo f mode false false 1 (if n then -k else k) false
    else if topBit m e < -120 then
      -- so near 1 that the sign alone decides
      if n then roundTo f mode false false (2 ^ 300 - 1) (-300) true else roundTo f mode false false (2 ^ 300) (-300) true
    else
      let fl := m / 2 ^ (-e).toNat
      let ip : Int := if n then -(fl : Int) - 1 else fl
      let fr := m * 2 ^ 400 / 2 ^ (-e).toNat % 2 ^ 400
      let fr := if n then 2 ^ 400 - fr else fr
      let y := fr * ln2Fix / 2 ^ 400
      let r := 2 ^ 400 + expSeries y 110 1 (2 ^ 400)
      let ip := max (min ip 5000) (-5000)
      roundTo f mode false false (r / 2 ^ 12) (ip - 388) true

end Sys2Proof.Machine
end

