-- ==== Sys2Proof/Machine/Flags.lean ====
section
/-!
DEFINITION. Where flags go: KFCTL's sticky bits (R75, R92), and the conversions that look at KVTYPE.SR and KVTYPE.MX (R94, R95, R180).
-/
namespace Sys2Proof.Machine

/-- KFCTL with flags set: NV is bit 4, NX bit 8 (R75). Hardware only ever sets a flag. -/
def orFlags (kfctl : Word) (f : Flags) : Word := kfctl ||| (f.zeroExtend 64 <<< 4)

/-- mix32 of R94. -/
def mix32 (x : BitVec 32) : BitVec 32 :=
  let y := x ^^^ (x >>> 16)
  let y := y * 0x7FEB352D#32
  let y := y ^^^ (y >>> 15)
  let y := y * 0x846CA68B#32
  y ^^^ (y >>> 16)

/-- rnd(j) of R94, from KSR.SEED. -/
def srBits (seed : BitVec 32) (j : Nat) : Nat := (mix32 (seed ^^^ (BitVec.ofNat 32 j * 0x9E3779B9#32))).toNat % 65536

/-- The next representable magnitude below or at m · 2^e, as a code without sign (RTZ). -/
def truncCode (f : Fmt) (m : Nat) (e : Int) : Nat × Bool :=
  let q := max (topBit m e - f.fb) f.qmin
  let (n, inexact) := cut 1 false m e false q
  ((q - f.qmin).toNat * 2 ^ f.fb + n, inexact)

/-- Stochastic rounding of a non-zero finite value (R95); `r` is rnd(j). Where RNE overflows the result and its flags are RNE's, in e4m3 and e2m1 too (DEDUCED, log 79). -/
def srRound (f : Fmt) (sat : Bool) (r : Nat) (neg : Bool) (m : Nat) (e : Int) : Nat × Flags :=
  let (rne, rneF) := roundTo f 0 sat neg m e false
  if rneF &&& fOF != 0 then (rne, rneF)
  else
    let (t, inexact) := truncCode f m e
    if !inexact then (f.signed neg t, 0)
    else
      let (tm, te) := codeMag f t
      let (am, ae) := codeMag f (t + 1)
      let b := min e (min te ae)
      let sc := fun (x : Nat) (ex : Int) => x * 2 ^ (ex - b).toNat
      let p := 65536 * (sc m e - sc tm te) / (sc am ae - sc tm te)
      let code := if f.maxCode < t + 1 then t else if r < p then t + 1 else t
      let tiny := code != 0 && code < 2 ^ f.fb
      (f.signed neg code, if tiny then fUF ||| fNX else fNX)

/-- FP narrowing or widening inside VFCVT: NaN and infinities by R89 and R90, the rest divided by 2^scale exactly and rounded once, stochastically when `sr` gives the random bits. -/
def cvtFp (src dst : Fmt) (mode : Nat) (sr : Option Nat) (mx : Option Int) (x : Nat) : Nat × Flags :=
  match unpack src x with
  | .fin n m e =>
    if m = 0 then (dst.signed n 0, 0)
    else
      let e' := e - mx.getD 0
      match sr with
      | some r => srRound dst mx.isSome r n m e'
      | none => roundTo dst mode mx.isSome n m e' false
  | _ => fConvert src dst mode x

end Sys2Proof.Machine
end

