-- ==== Sys2Proof/Machine/Ops.lean ====
section
/-!
DEFINITION. The named operations over the state: registers and their marks, the strand in the issue slot, gangs, free choices, taking an exception (R393, R394) and returning from one (R262).
-/
namespace Sys2Proof.Machine

/-- What a meaning answers. -/
abbrev Out := Host.Outcome State Fault Refusal

/-- Change the core in turn. -/
def State.modCore (s : State) (f : Core → Core) : State := { s with core := f s.core }

/-- Change the strand in the issue slot. -/
def State.modSt (s : State) (f : Strand → Strand) : State := { s with core := { s.core with st := f s.core.st } }

/-- The core of a number: the one in turn, one of the others, or an untouched one. -/
def State.coreAt (s : State) (c : Nat) : Core :=
  if s.core.id = c then s.core else (s.others.find? (fun k => k.id == c)).getD (Core.fresh c)

/-- Put a core back under its number. -/
def State.putCore (s : State) (k : Core) : State :=
  if s.core.id = k.id then { s with core := k }
  else { s with others := upsert (fun o => o.id == k.id) k s.others }

/-- Change the core of a number. -/
def State.modCoreAt (s : State) (c : Nat) (f : Core → Core) : State := s.putCore (f (s.coreAt c))

/-- Make core c the core in turn. -/
def State.turnTo (s : State) (c : Nat) : State :=
  if s.core.id = c then s
  else { s with core := s.coreAt c, others := upsert (fun o => o.id == s.core.id) s.core (s.others.filter (fun o => o.id != c)) }

/-- Every core that has a record. -/
def State.allCores (s : State) : List Core := s.core :: s.others

/-- A choice among n outcomes that the spec leaves open: the agenda's choices first, else the free value (DESIGN CHOICE, log 8). -/
def State.choose (s : State) (n : Nat) : Nat × State :=
  if n ≤ 1 then (0, s)
  else match s.choices with
  | c :: r => (c % n, { s with choices := r })
  | [] => (Config.freeChoice s.freeCtr % n, { s with freeCtr := s.freeCtr + 1 })

/-- A new transfer, request or packet number. -/
def State.fresh (s : State) : Nat × State := (s.nextId, { s with nextId := s.nextId + 1 })

/-- A gang by its id (R481). -/
def State.gang? (s : State) (id : Nat) : Option Gang := s.gangs.find? (fun g => g.id == id)

/-- Change a gang. -/
def State.modGang (s : State) (id : Nat) (f : Gang → Gang) : State :=
  { s with gangs := mapIf (fun g => g.id == id) f s.gangs }

/-- The gang of the strand in the slot. -/
def State.myGang (s : State) : Option Gang := s.gang? s.core.st.gang

/-- KASID of the strand in the slot; 0 where it has no gang. -/
def State.asid (s : State) : Nat := (s.myGang.map (·.kasid)).getD 0

/-- The core that holds a rank of a gang (R27). -/
def Gang.coreOf (g : Gang) (rank : Nat) : Option Nat := g.cores[rank / max g.task.s 1]?

/-- The binding of an address space passes on (R362): where no gang of it is bound, the one that was placed first of those placed or parked becomes bound. (DESIGN CHOICE, log 101) -/
def State.rebind (s : State) (asid : Nat) : State :=
  let of := s.gangs.filter (fun g => g.kasid == asid && g.state != .waiting && g.state != .done)
  if of.any (·.bound) then s
  else match of.foldl (fun (b : Option Gang) g => match b with
    | none => some g
    | some x => if g.placedAt < x.placedAt then some g else some x) none with
  | none => s
  | some g => s.modGang g.id (fun g => { g with bound := true })

/-- C · S of a gang. -/
def Gang.size (g : Gang) : Nat := g.task.c * g.task.s

/-- A resident strand of a core by gang and rank. -/
def Core.strand? (k : Core) (gang rank : Nat) : Option Strand :=
  (k.st :: k.rest).find? (fun t => t.gang == gang && t.rank == rank && t.status != .none)

/-- Change a resident strand of a core. -/
def Core.modStrand (k : Core) (gang rank : Nat) (f : Strand → Strand) : Core :=
  let p := fun (t : Strand) => t.gang == gang && t.rank == rank && t.status != .none
  { k with st := if p k.st then f k.st else k.st, rest := mapIf p f k.rest }

/-- A strand anywhere on the device, with its core. -/
def State.strand? (s : State) (gang rank : Nat) : Option (Nat × Strand) :=
  match s.gang? gang with
  | none => none
  | some g => match g.coreOf rank with
    | none => none
    | some c => ((s.coreAt c).strand? gang rank).map (fun t => (c, t))

/-- Change a strand anywhere on the device. -/
def State.modStrand (s : State) (gang rank : Nat) (f : Strand → Strand) : State :=
  match s.gang? gang with
  | none => s
  | some g => match g.coreOf rank with
    | none => s
    | some c => s.modCoreAt c (fun k => k.modStrand gang rank f)

/-- A scalar register; s0 reads as zero (R53). -/
def State.reg (s : State) (r : BitVec 5) : Word := if r = 0 then 0 else s.core.st.regs[r.toNat]

/-- A strand's register written by number: s0 discards (R53), the mark is cleared (R80, R430). -/
def Strand.setReg (t : Strand) (r : Nat) (v : Word) : Strand :=
  if r = 0 then t else { t with regs := t.regs.setIfInBounds r v, marks := t.marks.setIfInBounds r .ok }

/-- A scalar register of the strand in the slot written. (DEDUCED, log 31) -/
def State.setReg (s : State) (r : BitVec 5) (v : Word) : State :=
  if r = 0 then s
  else s.modSt (fun t => { t with regs := t.regs.set r.toNat v, marks := t.marks.set r.toNat .ok })

/-- A mark put on a register, its value kept (R42, R167, R430). -/
def Strand.setMark (t : Strand) (r : Nat) (m : RegMark) : Strand :=
  if r = 0 then t else { t with marks := t.marks.setIfInBounds r m }

/-- A mark put on a register of the strand in the slot. -/
def State.setMark (s : State) (r : BitVec 5) (m : RegMark) : State := s.modSt (fun t => t.setMark r.toNat m)

/-- What a check finds: nothing, a reason to wait, or a trap with its cause, its KEVAL, and the memory granule whose poison was consumed (R397). -/
inductive Chk where
  | ok | stall | trap (cause : BitVec 8) (eval : Word) (psna : Option Nat)
  deriving DecidableEq, Repr

/-- One check after another: the first that fails decides (R400). -/
def Chk.andThen (a b : Chk) : Chk := match a with | .ok => b | _ => a

/-- A check that traps unless its condition holds. -/
def Chk.unless (ok : Bool) (cause : BitVec 8) (eval : Word) : Chk := if ok then .ok else .trap cause eval none

/-- Reading a register as an operand (R138, R42, R80, R430). (DEDUCED, log 76) -/
def State.chkReg (s : State) (r : BitVec 5) : Chk :=
  if r = 0 then .ok
  else match s.core.st.marks[r.toNat] with
  | .ok => .ok
  | .pending => .stall
  | .queued _ => .stall
  | .poisoned => .trap 0x09 0 none
  | .lost st addr => .trap (if st = 1 then 0x0E else 0x07) addr none

/-- Reading several registers, in the order given. -/
def State.chkRegs (s : State) : List (BitVec 5) → Chk
  | [] => .ok
  | r :: rs => (s.chkReg r).andThen (s.chkRegs rs)

/-- K-registers of which one copy serves the gang, the core or the device (R70). -/
def kOfGang (k : Nat) : Bool := k ∈ [0x009, 0x00D, 0x014, 0x105, 0x110, 0x111, 0x112]
def kOfCore (k : Nat) : Bool := k ∈ [0x00B, 0x00E, 0x00F]
def kOfDevice (k : Nat) : Bool := k == 0x00C

/-- An uncorrectable error has struck a K-register that the strand in the slot reads: its own, its gang's, its core's or the device's (R70, R412). (DEDUCED, log 82) -/
def State.kBad (s : State) (k : Nat) : Bool :=
  if kOfGang k then s.myGang.any (fun g => g.badK.contains k)
  else if kOfCore k then s.core.badK.contains k
  else if kOfDevice k then s.badK.contains k
  else s.core.st.badK.contains k

/-- K-registers that an instruction reads: one that an uncorrectable error has struck traps (R412). (DEDUCED, log 82) -/
def State.chkK (s : State) (ks : List Nat) : Chk := Chk.unless (!ks.any s.kBad) 0x09 0

/-- K-registers written whole: an error in them ends (R412). (DEDUCED, log 82) -/
def Strand.mendK (t : Strand) (ks : List Nat) : Strand := { t with badK := t.badK.filter (fun k => !ks.contains k) }

/-- KSTATUS.M (R74). -/
def Strand.kMode (t : Strand) : Bool := t.kstatus.getLsbD 0
/-- KSTATUS.UIN (R74). -/
def Strand.uin (t : Strand) : Bool := t.kstatus.getLsbD 2

/-- A user-deliverable cause (R389, class U). -/
def userCause (c : BitVec 8) : Bool :=
  c == 0x09 || c == 0x0A || c == 0x0B || c == 0x0D || c == 0x0E || c == 0x0F

/-- A cause that goes to containment only (R389, class C). -/
def containCause (c : BitVec 8) : Bool := c == 0x11 || c == 0x15 || c == 0x30

/-- Where a trap goes (R393). -/
inductive Route where
  | user | super | contain
  deriving DecidableEq, Repr

/-- The first matching row of R393. -/
def route (cause : BitVec 8) (m uin : Bool) (kutvec kstvec : Word) : Route :=
  if containCause cause then .contain
  else if m then (if cause == 0x20 && kstvec != 0 then .super else .contain)
  else if userCause cause && !uin && kutvec != 0 then .user
  else if kstvec != 0 then .super
  else .contain

/-- The strand in the slot leaves it: the slot is free (R48). -/
def State.vacate (s : State) (f : Strand → Strand) : State :=
  s.modCore (fun k => { k with rest := k.rest ++ [f k.st], st := Strand.empty, phase := .idle, freeFrom := s.now })

/-- A strand enters Runnable (R47, R340). -/
def Strand.ready (t : Strand) (now : Nat) : Strand := { t with wait := .none, status := .runnable, boost := 0, readyAt := now, agedAt := now }

/-- A handler address in force for this strand's trap (R71): inside 256 cycles of another strand's change, the old one or the new. -/
def State.vector (s : State) (cur : Word) (old : Option (Word × Nat × Nat)) : Word × State :=
  match old with
  | none => (cur, s)
  | some (o, t, r) =>
    if 256 < s.now - t || r == s.core.st.rank then (cur, s)
    else
      let (c, s) := s.choose 2
      (if c = 0 then cur else o, s)

/-- Delivery to the user handler (R394). -/
def Strand.toUser (t : Strand) (vec : Word) (cause : BitVec 8) (eval : Word) (grp depth : Nat) : Strand :=
  { t.mendK [0x010, 0x011, 0x012, 0x013] with
    user := { cause := cause, epc := t.pc, egrp := BitVec.ofNat 4 grp, eval := eval, depth := depth }
    kstatus := t.kstatus ||| 4#64, pc := vec.setWidth 55 &&& ~~~3#55
    watchPass := false, resFirst := none, resG := 0, resN := 0, prog := none, answers := [], asked := false }

/-- Delivery to the supervisor handler (R394): PM := M, M := 1, UIN kept. -/
def Strand.toSuper (t : Strand) (vec : Word) (cause : BitVec 8) (eval : Word) (grp depth : Nat) : Strand :=
  { t.mendK [0x101, 0x102, 0x103, 0x104] with
    super := { cause := cause, epc := t.pc, egrp := BitVec.ofNat 4 grp, eval := eval, depth := depth }
    kstatus := (t.kstatus &&& ~~~3#64) ||| (if t.kMode then 3#64 else 1#64), pc := vec.setWidth 55 &&& ~~~3#55
    watchPass := false, resFirst := none, resG := 0, resN := 0, prog := none, answers := [], asked := false }

/-- TAKING AN EXCEPTION: the strand in the slot traps at its pc with a cause, a KEVAL, an element group and a resume depth (R391–R394). Where no handler takes it the strand stops and its containment is asked for (R393, R395). -/
def State.trapAt (s : State) (cause : BitVec 8) (eval : Word) (grp depth : Nat) (psna : Option Nat) : State :=
  let t := s.core.st
  let (ut, ot, st, os) := match s.myGang with
    | some g => (g.kutvec, g.oldUtvec, g.kstvec, g.oldStvec)
    | none => (0#64, none, 0#64, none)
  let (uv, s) := s.vector ut ot
  let (sv, s) := s.vector st os
  match route cause t.kMode t.uin uv sv with
  | .user => s.modSt (fun t => t.toUser uv cause eval grp depth)
  | .super => s.modSt (fun t => t.toSuper sv cause eval grp depth)
  | .contain =>
    { s.vacate (fun t => { t with status := .stopped, watchPass := false, prog := none }) with
      contains := s.contains ++ [⟨t.gang, t.rank, cause, eval, grp, depth, psna⟩] }

/-- A trap at an element group, with no younger instruction in the window (R391). -/
def State.trap (s : State) (cause : BitVec 8) (eval : Word) (grp : Nat) : State := s.trapAt cause eval grp 0 none

/-- Go on when a check passes; wait with the state as it is; or trap with group 0. (DEDUCED, log 76) -/
def State.given (s : State) (c : Chk) (k : Out) : Out :=
  match c with
  | .ok => k
  | .stall => .next s
  | .trap cause eval psna => .next (s.trapAt cause eval 0 0 psna)

/-- A scalar instruction has completed: the next one is at pc + 4, a watch pass ends (R258), a resumed group is used up (R262). -/
def State.finish (s : State) : State :=
  s.modSt (fun t => { t with pc := t.pc + 4, watchPass := false, resFirst := none, code := none, prog := none, answers := [], asked := false })

/-- The element group from which a vector-queue instruction starts afresh: the one ERET named, or that of the resumed window (R392). -/
def Strand.resGroup (t : Strand) : Nat :=
  match t.resFirst with
  | some g => g
  | none => if t.resN = 0 then 0 else t.resG

/-- The element group from which a vector-queue instruction goes on: the one it has come to, or the one it starts from (R391, R392). -/
def State.startGroup (s : State) : Nat :=
  match s.core.st.prog with
  | some p => p.grp
  | none => s.core.st.resGroup

/-- A vector-queue instruction has completed. -/
def State.finishQ (s : State) : State :=
  s.modSt (fun t => { t with
    pc := t.pc + 4, watchPass := false, resFirst := none, prog := none, answers := [], asked := false, code := none
    resN := match t.resFirst with | some _ => t.resN | none => t.resN - 1 })

/-- Control passes to another address (R150–R152). -/
def State.jump (s : State) (target : Pc) : State :=
  s.modSt (fun t => { t with pc := target, watchPass := false, resFirst := none, code := none })

/-- RETURN FROM AN EXCEPTION (R262, R392, R258): K mode first, else the user handler's return. -/
def State.eret (s : State) : State :=
  s.modSt (fun t =>
    let r := if t.kMode then t.super else t.user
    { t with
      pc := r.epc &&& ~~~3#55
      kstatus := if t.kMode then (t.kstatus &&& ~~~1#64) ||| ((t.kstatus >>> 1) &&& 1#64) else t.kstatus &&& ~~~4#64
      resFirst := some r.egrp.toNat, resG := r.egrp.toNat, resN := r.depth
      watchPass := r.cause == 0x0A })

/-- KFCTL takes flags (R75). -/
def State.addFlags (s : State) (f : Flags) : State := s.modSt (fun t => { t with kfctl := orFlags t.kfctl f })

/-- KFCTL.RM, the scalar rounding mode (R75). -/
def State.rm (s : State) : Nat := s.core.st.kfctl.toNat % 4

end Sys2Proof.Machine
end

