-- ==== Sys2Proof/Machine/Operands.lean ====
section
/-!
DEFINITION. Operand forms: KVTYPE's fields (R62), elements, groups and lanes (R8, R58), masks (R60), vector images with their poison (R79), effective addresses (R155, R193), and the front checks of a vector instruction (R165).
-/
namespace Sys2Proof.Machine

/-- KVTYPE fields (R62). -/
def kSew (k : Word) : Nat := bits k.toNat 2 0
def kEt (k : Word) : Nat := bits k.toNat 6 3
def kGrp (k : Word) : Nat := bits k.toNat 9 7
def kTr (k : Word) : Nat := bits k.toNat 11 10
def kTc (k : Word) : Nat := bits k.toNat 13 12
def kRm (k : Word) : Nat := bits k.toNat 15 14
def kSr (k : Word) : Bool := bit k.toNat 16
def kMx (k : Word) : Bool := bit k.toNat 17
def kIll (k : Word) : Bool := bit k.toNat 63

/-- Element width in bytes (R8). -/
def State.w (s : State) : Nat := 2 ^ kSew s.core.st.kvtype
/-- Element width in bits. -/
def State.sewBits (s : State) : Nat := 8 * s.w
def State.et (s : State) : Nat := kEt s.core.st.kvtype
def State.vrm (s : State) : Nat := kRm s.core.st.kvtype
def State.vl (s : State) : Nat := s.core.st.vl
/-- Bytes of a register within the effective grant, 256 · Ge (R56, R58). -/
def State.geBytes (s : State) : Nat := 256 * 2 ^ kGrp s.core.st.kvtype

/-- The element group of element i at width w (R8). -/
def eg (w i : Nat) : Nat := i * w / 256

/-- A mask register's bits (R59). -/
def State.maskOf (s : State) (m : BitVec 3) : MaskReg := s.core.st.masks[m.toNat]

/-- active(i) of R8. -/
def State.active (s : State) (mk : BitVec 3) (i : Nat) : Bool :=
  decide (i < s.vl) && (mk == 0 || (s.maskOf mk).getLsbD i)

/-- The active elements, ascending. -/
def State.actives (s : State) (mk : BitVec 3) : List Nat := (List.range s.vl).filter (s.active mk)

/-- The governing mask is all-false (R60): the instruction is dropped. -/
def State.allFalse (s : State) (mk : BitVec 3) : Bool := mk != 0 && (s.maskOf mk).toNat % 2 ^ s.vl == 0

/-- The byte image and poison of a vector register. -/
def State.vimg (s : State) (v : Nat) : VImg := s.core.st.v[v % 32]'(Nat.mod_lt _ (by decide))
def State.vslots (s : State) (v : Nat) : SlotPsn := s.core.st.vpsn[v % 32]'(Nat.mod_lt _ (by decide))

/-- Element i of a register at width w, and whether its lane slot is poisoned (R58, R79). -/
def State.el (s : State) (v : BitVec 5) (w i : Nat) : Nat := vGet (s.vimg v.toNat) (i * w) w
def State.elPsn (s : State) (v : BitVec 5) (w i : Nat) : Bool := (s.vslots v.toNat).getLsbD (i * w / 8)

/-- Bytes of the image that consecutive registers form (R58), and the poison of the slot they lie in. -/
def State.imgGet (s : State) (v : BitVec 5) (off n : Nat) : Nat := vGet (s.vimg (v.toNat + off / s.geBytes)) (off % s.geBytes) n
def State.imgPsn (s : State) (v : BitVec 5) (off : Nat) : Bool := (s.vslots (v.toNat + off / s.geBytes)).getLsbD (off % s.geBytes / 8)

/-- One write into a vector register: byte offset, bytes, value, poison. -/
structure VWrite where
  off : Nat
  n : Nat
  val : Nat
  psn : Bool
  deriving DecidableEq, Repr

/-- The bytes that a list of writes covers, as a bit set. -/
def covered (ws : List VWrite) : Nat := ws.foldl (fun b x => b ||| ((2 ^ x.n - 1) * 2 ^ x.off)) 0

/-- The lane slots of which every byte is covered. -/
def fullSlots (b : Nat) : Nat := (List.range 512).foldl (fun m k => if b / 2 ^ (8 * k) % 256 = 255 then m ||| 2 ^ k else m) 0

/-- The slots' poison after the writes (R79). -/
def slotsAfter (old : SlotPsn) (ws : List VWrite) : SlotPsn :=
  let bad := ws.foldl (fun m x => if x.psn then m ||| 2 ^ (x.off / 8) else m) 0
  BitVec.ofNat 512 bad ||| (old &&& ~~~(BitVec.ofNat 512 (fullSlots (covered ws))))

/-- The image after the writes. -/
def imageAfter (old : VImg) (ws : List VWrite) : VImg := ws.foldl (fun im x => vPut im x.off x.n x.val) old

/-- A vector register written, every other byte kept (R65). -/
def Strand.putV (t : Strand) (v : Nat) (ws : List VWrite) : Strand :=
  if h : v < 32 then
    { t with v := t.v.set v (imageAfter t.v[v] ws), vpsn := t.vpsn.set v (slotsAfter t.vpsn[v] ws) }
  else t
def State.putV (s : State) (v : BitVec 5) (ws : List VWrite) : State := s.modSt (fun t => t.putV v.toNat ws)

/-- Mask bits written, every other bit kept (R65); a write of all 4,096 bits ends an error in the register (R412). -/
def Strand.putM (t : Strand) (m : BitVec 3) (bs : List (Nat × Bool)) : Strand :=
  { t with
    badMasks := if bs.length = 4096 then putBit t.badMasks m.toNat false else t.badMasks
    masks := t.masks.set m.toNat (bs.foldl (fun x b => putBit x b.1 b.2) t.masks[m.toNat]) }
def State.putM (s : State) (m : BitVec 3) (bs : List (Nat × Bool)) : State := s.modSt (fun t => t.putM m bs)

/-- The element types an instruction accepts (R164, R201). -/
inductive Accepts where
  | any | ints | fps | ofOp (fpOk : Bool)
  deriving DecidableEq, Repr

/-- Whether an ET is accepted. -/
def Accepts.ok (a : Accepts) (et : Nat) : Bool :=
  match a with
  | .any => true
  | .ints => et == 0 || et == 1
  | .fps => et == 2 || et == 3 || et == 4 || et == 5
  | .ofOp f => et == 0 || et == 1 || (f && (et == 2 || et == 3 || et == 4 || et == 5))

/-- A mask register that an uncorrectable error has struck, when the instruction reads it (R412). -/
def State.chkMask (s : State) (m : BitVec 3) : Chk := Chk.unless (!s.core.st.badMasks.getLsbD m.toNat) 0x09 0

/-- The same for a governing mask: field 0 governs nothing. -/
def State.chkGov (s : State) (mk : BitVec 3) : Chk := if mk = 0 then .ok else s.chkMask mk

/-- Checks 5 to 7 of R400 for an instruction that depends on KVTYPE: scalar operands, KVTYPE and VL without an error (R412), ILL, type and range. -/
def State.vfront (s : State) (scalars : List (BitVec 5)) (range : Bool) : Chk :=
  ((s.chkRegs scalars).andThen (s.chkK [0x004, 0x005])).andThen
    ((Chk.unless (!kIll s.core.st.kvtype) 0x04 0).andThen (Chk.unless range 0x01 0))

/-- A vector instruction: front checks, the drop of R60 (an instruction without effect that completes), then its own work. -/
def State.vrun (s : State) (scalars : List (BitVec 5)) (range : Bool) (gov : List (BitVec 3)) (k : Out) : Out :=
  s.given (s.vfront scalars range)
    (s.given (gov.foldl (fun c m => c.andThen (s.chkGov m)) .ok)
      (if gov.any s.allFalse then .next s.finishQ else k))

/-- Trap at a group: the effects of the groups below are in `s` already (R391). -/
def State.vtrap (s : State) (cause : BitVec 8) (eval : Word) (grp : Nat) (psna : Option Nat) : Out :=
  .next (s.trapAt cause eval grp 0 psna)

/-- The result of one element of a group-wise instruction: value, poison, flags. -/
structure ElRes where
  val : Nat
  psn : Bool
  fl : Flags
  deriving DecidableEq, Repr

/-- A group-wise instruction without element checks: every active element from the start group on is written, the committed groups' flags are set (R169, R170). -/
def State.elementwise (s : State) (mk : BitVec 3) (d : BitVec 5) (f : Nat → ElRes) : State :=
  let g := s.startGroup
  let rs := ((s.actives mk).filter (fun i => decide (g ≤ eg s.w i))).map (fun i => (i, f i))
  let ws := rs.map (fun (i, r) => (⟨i * s.w, s.w, r.val, r.psn⟩ : VWrite))
  ((s.putV d ws).addFlags (rs.foldl (fun a x => a ||| x.2.fl) 0)).finishQ

/-- Effective address of LD and ST: base plus a signed offset of access units (R105, R155). -/
def State.eaOff (s : State) (base : BitVec 5) (off : BitVec 12) (n : Nat) : Word :=
  s.reg base + off.signExtend 64 * BitVec.ofNat 64 n

/-- Effective address of LDX and STX (R113, R155). -/
def State.eaIdx (s : State) (a b : BitVec 5) (scale : BitVec 2) : Word := s.reg a + (s.reg b <<< scale.toNat)

/-- Index registers that the 64-bit values X(i) take (R193). -/
def State.idxRegs (s : State) : Nat := max 1 (8 / s.w)

/-- X(i) of R193 and the poison of its slot. -/
def State.idxVal (s : State) (v : BitVec 5) (i : Nat) : Word := BitVec.ofNat 64 (s.imgGet v (8 * i) 8)
def State.idxPsn (s : State) (v : BitVec 5) (i : Nat) : Bool := s.imgPsn v (8 * i)

end Sys2Proof.Machine
end

