-- ==== Sys2Proof/Machine/Crypto.lean ====
section
/-!
DEFINITION. SM4 in XTS mode for capacity lines (R288) and SM3 for measurement (R472, R473). The spec names both and gives neither: PRESUMED from GB/T 32907 and GB/T 32905 (PRESUMED, log 9).
-/
namespace Sys2Proof.Machine

/-- The SM4 S-box, byte x at bits [8x+7:8x]. -/
def sm4Box : Nat := 0x4839cbd73e5fee79204ddc3aec7df01884c66ec509f1b9657e77960c4a976989b0b4e5b812d0742dbd7bcda58831c10ad85a101f415cd9117fbcddbb92af1b8d515b6c6d726aff032f8efdde4537dbd56f4e530dab2329c060ca66822ee2f61de3b18cf5303293ad551a349ba45daee0a11561f9cef2f7a3b538c740d28abfea9ec8c4a0e702364c5227d39f574600d4877821013b7c2225a2d158635e0e241e359d56704b0febf88bda6471b2816b68a84f85e6193c5983ba1773f3fca70747a63f8f75fa94df8095e808c9a91cb3e462accfed430b54337a98ef91f450429c99068649261344aac304be2a769a672b052cfb28c214b616b73de1ccfee990d6

/-- One S-box lookup. -/
def sm4S (x : Nat) : Nat := sm4Box / 2 ^ (8 * x) % 256

/-- The four lookups of a word. -/
def sm4Tau (x : BitVec 32) : BitVec 32 :=
  let n := x.toNat
  BitVec.ofNat 32 (sm4S (n % 256) + 256 * (sm4S (n / 256 % 256) + 256 * (sm4S (n / 65536 % 256) + 256 * sm4S (n / 16777216 % 256))))

/-- The round's mixing, and the key schedule's. -/
def sm4T (x : BitVec 32) : BitVec 32 :=
  let b := sm4Tau x
  b ^^^ b.rotateLeft 2 ^^^ b.rotateLeft 10 ^^^ b.rotateLeft 18 ^^^ b.rotateLeft 24
def sm4Tk (x : BitVec 32) : BitVec 32 :=
  let b := sm4Tau x
  b ^^^ b.rotateLeft 13 ^^^ b.rotateLeft 23

/-- CK of round i: byte j is 7(4i + j) mod 256, the first byte most significant. -/
def sm4Ck (i : Nat) : BitVec 32 :=
  let b := fun j => (4 * i + j) * 7 % 256
  BitVec.ofNat 32 (((b 0 * 256 + b 1) * 256 + b 2) * 256 + b 3)

/-- Four words in flight. -/
structure Sm4Q where
  a : BitVec 32
  b : BitVec 32
  c : BitVec 32
  d : BitVec 32

/-- The 32 round keys of a 128-bit key whose first byte is most significant. -/
def sm4Keys (key : BitVec 128) : List (BitVec 32) :=
  go 32 0 ⟨key.extractLsb' 96 32 ^^^ 0xA3B1BAC6#32, key.extractLsb' 64 32 ^^^ 0x56AA3350#32,
    key.extractLsb' 32 32 ^^^ 0x677D9197#32, key.extractLsb' 0 32 ^^^ 0xB27022DC#32⟩
where
  go : Nat → Nat → Sm4Q → List (BitVec 32)
    | 0, _, _ => []
    | n + 1, i, q =>
      let k := q.a ^^^ sm4Tk (q.b ^^^ q.c ^^^ q.d ^^^ sm4Ck i)
      k :: go n (i + 1) ⟨q.b, q.c, q.d, k⟩

/-- One block under a list of round keys, bytes in big-endian order. (PRESUMED, log 9) -/
def sm4Block (ks : List (BitVec 32)) (x : BitVec 128) : BitVec 128 :=
  let q := ks.foldl (fun q k => ⟨q.b, q.c, q.d, q.a ^^^ sm4T (q.b ^^^ q.c ^^^ q.d ^^^ k)⟩)
    (⟨x.extractLsb' 96 32, x.extractLsb' 64 32, x.extractLsb' 32 32, x.extractLsb' 0 32⟩ : Sm4Q)
  q.d ++ q.c ++ q.b ++ q.a

/-- Byte order of a 128-bit block reversed. -/
def swap128 (x : BitVec 128) : BitVec 128 :=
  BitVec.ofNat 128 ((List.range 16).foldl (fun r i => r * 256 + x.toNat / 256 ^ i % 256) 0)

/-- The next tweak: multiplied by x in GF(2^128), little-endian. -/
def xtsNext (t : BitVec 128) : BitVec 128 := (t <<< 1) ^^^ (if t.getLsbD 127 then 0x87#128 else 0)

/-- A 64-byte line through XTS (R288): `keys` holds key 1 in its low half, key 2 in its high half, memory order; the data unit number is the tweak. (PRESUMED, log 9) (DEDUCED, log 26) -/
def xtsLine (dec : Bool) (keys : BitVec 256) (unit : Nat) (x : Line) : Line :=
  let k1 := sm4Keys (swap128 (keys.extractLsb' 0 128))
  let k2 := sm4Keys (swap128 (keys.extractLsb' 128 128))
  let ks := if dec then k1.reverse else k1
  let one := fun (t : BitVec 128) (b : BitVec 128) => swap128 (sm4Block ks (swap128 (b ^^^ t))) ^^^ t
  let t0 := swap128 (sm4Block k2 (swap128 (BitVec.ofNat 128 unit)))
  let t1 := xtsNext t0
  let t2 := xtsNext t1
  let t3 := xtsNext t2
  one t3 (x.extractLsb' 384 128) ++ one t2 (x.extractLsb' 256 128) ++ one t1 (x.extractLsb' 128 128) ++ one t0 (x.extractLsb' 0 128)

/-- SM3's expanded words, newest first. -/
def sm3Expand : Nat → List (BitVec 32) → List (BitVec 32)
  | 0, ws => ws
  | n + 1, ws =>
    let g := fun i => ws.getD i 0
    let p := g 15 ^^^ g 8 ^^^ (g 2).rotateLeft 15
    sm3Expand n ((p ^^^ p.rotateLeft 15 ^^^ p.rotateLeft 23 ^^^ (g 12).rotateLeft 7 ^^^ g 5) :: ws)

/-- SM3's compression of one 512-bit block, first byte most significant. -/
def sm3Compress (v : List (BitVec 32)) (b : BitVec 512) : List (BitVec 32) :=
  let w := (sm3Expand 52 ((List.range 16).map (fun i => b.extractLsb' (32 * i) 32))).reverse
  let step := fun (r : List (BitVec 32)) (j : Nat) =>
    let g := fun i => r.getD i 0
    let t : BitVec 32 := if j < 16 then 0x79CC4519#32 else 0x7A879D8A#32
    let s1 := ((g 0).rotateLeft 12 + g 4 + t.rotateLeft (j % 32)).rotateLeft 7
    let s2 := s1 ^^^ (g 0).rotateLeft 12
    let ff := if j < 16 then g 0 ^^^ g 1 ^^^ g 2 else (g 0 &&& g 1) ||| (g 0 &&& g 2) ||| (g 1 &&& g 2)
    let gg := if j < 16 then g 4 ^^^ g 5 ^^^ g 6 else (g 4 &&& g 5) ||| (~~~(g 4) &&& g 6)
    let t1 := ff + g 3 + s2 + (w.getD j 0 ^^^ w.getD (j + 4) 0)
    let t2 := gg + g 7 + s1 + w.getD j 0
    [t1, g 0, (g 1).rotateLeft 9, g 2, t2 ^^^ t2.rotateLeft 9 ^^^ t2.rotateLeft 17, g 4, (g 5).rotateLeft 19, g 6]
  List.zipWith (fun a b => a ^^^ b) ((List.range 64).foldl step v) v

/-- SM3 of a message of whole bytes given most significant byte first. (PRESUMED, log 9) -/
def sm3 (len : Nat) (msg : Nat) : BitVec 256 :=
  let nb := (len + 9 + 63) / 64
  let pad := (msg * 256 + 0x80) * 256 ^ (nb * 64 - len - 1) + 8 * len
  let v := (List.range nb).foldl (fun v i => sm3Compress v (BitVec.ofNat 512 (pad / 2 ^ (512 * (nb - 1 - i)))))
    [0x7380166f#32, 0x4914b2b9#32, 0x172442d7#32, 0xda8a0600#32, 0xa96f30bc#32, 0x163138aa#32, 0xe38dee4d#32, 0xb0fb0e4e#32]
  BitVec.ofNat 256 (v.foldl (fun r x => r * 2 ^ 32 + x.toNat) 0)

end Sys2Proof.Machine
end

