-- ==== Sys2Proof/Machine/Slice.lean ====
section
/-!
DEFINITION. L2 slices and what lies under them: lines and their allocation (R277–R280), HBM cache frames (R284), capacity ports with encryption and stale stamps (R285–R289), poison (R78, R411), dead granules (R290), and the memory error log (R417, R418). A line's plaintext is in `mem` while L2 or a frame holds it; a capacity line that neither holds is ciphertext in `port` (DESIGN CHOICE, log 11).
-/
namespace Sys2Proof.Machine

/-- The base of the capacity tier (R271). -/
def capBase : Nat := 0x100000000000
/-- The base of control space (R271). -/
def ctlBase : Nat := 0xFF0000000000
/-- Bytes of flat HBM: Q · 192 GiB (R283). -/
def State.flatBytes (s : State) : Nat := s.hbmQ * 192 * 2 ^ 30
/-- Bytes of populated capacity tier: one TiB a port (DESIGN CHOICE, log 5). -/
def State.capBytes (s : State) : Nat := s.portsW * 2 ^ 40
def State.inFlat (s : State) (pa : Nat) : Bool := decide (pa < s.flatBytes)
def State.inCap (s : State) (pa : Nat) : Bool := decide (capBase ≤ pa) && decide (pa < capBase + s.capBytes)
def isCap (pa : Nat) : Bool := decide (capBase ≤ pa)

/-- The owning slice and the slice-local offset L (R277). -/
def sliceOf (pa : Nat) : Nat := pa / 4096 % 192
def sliceLocal (pa : Nat) : Nat := pa / 786432 * 4096 + pa % 4096
/-- The global channel of an address and its HBM address inside it: L with bit 8 removed (R12, R277). -/
def channelOf (pa : Nat) : Nat := 2 * sliceOf pa + bits (sliceLocal pa) 8 8
def hbmAddr (pa : Nat) : Nat := sliceLocal pa / 512 * 256 + sliceLocal pa % 256
/-- The physical address at a channel's HBM address: the inverse of R277. -/
def hbmPa (channel addr : Nat) : Nat :=
  let l := addr / 256 * 512 + channel % 2 * 256 + addr % 256
  (l / 4096 * 192 + channel / 2) * 4096 + l % 4096
/-- The L2 set of a line number (R278). -/
def setOf (line : Nat) : Nat := sliceLocal (64 * line) / 64 % 512
/-- Ways not reserved for the cellar (R293). -/
def State.ways (s : State) : Nat := 32 - 3 * s.cellarKiB / 64

/-- A capacity line's port and its data unit (R286, R288). -/
def State.portOf (s : State) (line : Nat) : Nat := (64 * line - capBase) / 4096 % s.portsW
def unitOf (line : Nat) : Nat := (64 * line - capBase) / 64
/-- The device offset of a capacity address on its port (R286). -/
def State.devOffset (s : State) (pa : Nat) : Nat := (pa - capBase) / (4096 * s.portsW) * 4096 + (pa - capBase) % 4096
/-- The line of the capacity devices where a capacity line rests: the ports' devices of 2^40 bytes each follow one another in `port`, `portPsn` and `stale` (R286; DESIGN CHOICE, log 5). -/
def State.devLine (s : State) (line : Nat) : Nat := (s.portOf line * 2 ^ 40 + s.devOffset (64 * line)) / 64
/-- A port that answers. (DEDUCED, log 68) -/
def State.portUp (s : State) (line : Nat) : Bool :=
  match s.ports[s.portOf line]? with
  | some p => !p.down
  | none => false
def State.keysOf (s : State) (key : Nat) : Option (BitVec 256) := (s.keys.find? (fun k => k.1 == key)).map (·.2)

/-- The frame that a capacity line may occupy (R284): slice, frame number, tag. The line number n counts from the base of the capacity tier, as in R422's example. (DEDUCED, log 83) -/
def State.frameSlot (s : State) (line : Nat) : Nat × Nat × Nat :=
  let n := sliceLocal (64 * line - capBase) / 64
  let nf := (4 - s.hbmQ) * 2 ^ 24
  (sliceOf (64 * line), n % nf, n / nf)
/-- The capacity line that a frame with a tag holds. -/
def State.frameLine (s : State) (f : Frame) : Nat :=
  let nf := (4 - s.hbmQ) * 2 ^ 24
  let l := (f.tag * nf + f.idx) * 64
  -- the inverse of R277 for this slice: granule number l div 4096, then the granule of this slice in that round
  let round := l / 4096
  let base := (capBase / 4096) % 192
  let g := (f.slice + 192 - base) % 192
  (capBase + (round * 192 + g) * 4096 + l % 4096) / 64
def State.frameAt (s : State) (line : Nat) : Option Frame :=
  let (sl, i, _) := s.frameSlot line
  s.frames.find? (fun f => f.slice == sl && f.idx == i)
/-- The frame holds this line under this key. -/
def State.frameIs (s : State) (f : Frame) (line key : Nat) : Bool := !f.bad && f.tag == (s.frameSlot line).2.2 && f.key == key
/-- The frame that holds this line under this key, if any. -/
def State.frameHit (s : State) (line key : Nat) : Option Frame := (s.frameAt line).filter (fun f => s.frameIs f line key)
def State.hasFrames (s : State) : Bool := decide (s.hbmQ < 4)
def State.putFrame (s : State) (f : Frame) : State :=
  { s with frames := upsert (fun x => x.slice == f.slice && x.idx == f.idx) f s.frames }
/-- The line's frame holds other dirty data of a port that is down, and is never evicted (R423). -/
def State.stuck (s : State) (line key : Nat) : Bool :=
  match s.frameAt line with
  | some f => f.dirty && !f.bad && !s.frameIs f line key && !s.portUp (s.frameLine f)
  | none => false

def State.l2At (s : State) (line : Nat) : Option L2Line := s.l2.find? (fun l => l.line == line)
/-- A line's invalidations are outstanding: every read of it is held (R296). -/
def State.lineHeld (s : State) (line : Nat) : Bool := s.invals.any (fun v => v.line == line)
/-- Some line of n bytes is held. -/
def State.rangeHeld (s : State) (pa n : Nat) : Bool := (List.range ((pa + n + 63) / 64 - pa / 64)).any (fun i => s.lineHeld (pa / 64 + i))

/-- The poison a reader of a 64-byte line meets at its slice. -/
def State.linePsn (s : State) (line : Nat) : Bool :=
  match s.l2At line with
  | some l => l.psn
  | none => s.memPsn.contains line

/-- Cores whose L1s hold a line or have it on the way. (DEDUCED, log 15) -/
def State.holders (s : State) (line : Nat) : List Nat :=
  (s.allCores.filter (fun c => c.l1.any (fun l => l.line % 2 ^ 48 == line) || c.icache.any (fun l => l.line % 2 ^ 48 == line)
    || s.l1Fills.any (fun f => f.core == c.id && f.line % 2 ^ 48 == line))).map (·.id)

/-- PRESENCE_INVALIDATION (R280): a write to a line, or its eviction, clears the presence bit and sends an invalidation to every core that has the line; a core without it acknowledges at once. `own` is the core of a scalar store, which is sent none. A core that an earlier invalidation has not reached yet still has the line, so this write waits for it too. (DEDUCED, log 15) -/
def State.invalidate (s : State) (line : Nat) (own : Option Nat) (gang rank cls : Nat) : State :=
  let left := (s.holders line).filter (fun c => some c != own)
  { s with
    l2 := mapIf (fun x => x.line == line) (fun x => { x with present := false }) s.l2
    invals := if left.isEmpty then s.invals else s.invals ++ [⟨line, left, gang, rank, cls⟩] }

/-- A device's own write of n bytes inside one line of flat HBM, past L2 but for a line that hits (R279, R280, R290). (DESIGN CHOICE, log 69) -/
def State.writeFlat (s : State) (a n v : Nat) : State :=
  if !s.inFlat a then s
  else
    let s := s.invalidate (a / 64) none 0 0 0
    { s with
      mem := writeNat s.mem a n v, dead := delFrom s.dead (a / 4096)
      l2 := mapIf (fun x => x.line == a / 64) (fun x => { x with dirty := true }) s.l2 }

/-- An entry of the error log ring written at its address: dwords 1 to 3 before dword 0, which holds PHASE (R418). -/
def State.logEntry (s : State) (at_ d0 rest : Nat) : State :=
  { (s.writeFlat (at_ + 8) 24 rest).writeFlat at_ 8 d0 with meWr := s.meWr + 1 }
/-- An entry of the memory error log (R418), written to the ring or counted as lost (R417). (DESIGN CHOICE, log 69) -/
def State.logErr (s : State) (asid key holder kind : Nat) (d1 : Nat) : State :=
  let cap := 2 ^ s.meSize
  if !s.meEn || cap ≤ s.meWr - s.meRd then { s with meLost := s.meLost + 1 }
  else
    let at_ := s.meBase + 32 * (s.meWr % cap)
    let phase := b2n (s.meWr / cap % 2 == 0)
    let d0 := asid * 2 ^ 48 + key * 2 ^ 32 + phase * 2 ^ 16 + holder * 2 ^ 8 + kind
    s.logEntry at_ d0 (d1 + (s.now - s.coresFrom) % 2 ^ 64 * 2 ^ 64)
/-- A pod physical address of this device (R271). -/
def State.podPa (s : State) (pa : Nat) : Nat := s.kdev * 2 ^ 48 + pa
/-- One of MECE's saturating counts (R417): 0 HBM, 1 L2 and cellar, 2 core holders, 3 capacity tier. -/
def State.countErr (s : State) (field : Nat) : State :=
  let x := s.mece.toNat
  let c := x / 2 ^ (16 * field) % 65536
  if c = 65535 then s else { s with mece := BitVec.ofNat 64 (x + 2 ^ (16 * field)) }

/-- A line's bytes as a value. -/
def State.lineBytes (s : State) (line : Nat) : Nat := readNat s.mem (64 * line) 64
def State.putLine (s : State) (line v : Nat) : State := { s with mem := writeNat s.mem (64 * line) 64 v }

/-- A capacity line written to its port, encrypted, its stamp cleared (R285, R288); discarded when the port is down (kind 5) or the slot is not loaded (kind 6) (R423, R424). -/
def State.portWrite (s : State) (line key v : Nat) (psn : Bool) (writer : Nat) : State :=
  if !s.portUp line then s.logErr writer key 3 5 (s.podPa (64 * line))
  else match s.keysOf key with
  | none => s.logErr writer key 3 6 (s.podPa (64 * line))
  | some k =>
    { s with
      port := writeNat s.port (64 * s.devLine line) 64 (xtsLine false k (unitOf line) (BitVec.ofNat 512 v)).toNat
      portPsn := setIn s.portPsn (s.devLine line) psn, stale := delFrom s.stale (s.devLine line) }

/-- A capacity line's plaintext as its port gives it (R288, R422, R423, R424): value, poison. -/
def State.portPeek (s : State) (line key : Nat) : Nat × Bool :=
  if !s.portUp line then (0, true)
  else match s.keysOf key with
  | none => (0, true)
  | some k =>
    if s.portPsn.contains (s.devLine line) || (s.hasFrames && s.stale.contains (s.devLine line)) then (0, true)
    else ((xtsLine true k (unitOf line) (BitVec.ofNat 512 (readNat s.port (64 * s.devLine line) 64))).toNat, false)

/-- What reading a line from its port does besides: CXL poison is an uncorrectable error of its reader (R287, kind 1), a stale line becomes CXL poison (R422, kind 4). -/
def State.portReadNote (s : State) (line key asid : Nat) : State :=
  if s.portPsn.contains (s.devLine line) then s.logErr asid key 3 1 (s.podPa (64 * line))
  else if s.hasFrames && s.stale.contains (s.devLine line) then
    { s with stale := delFrom s.stale (s.devLine line), portPsn := addTo s.portPsn (s.devLine line) }.logErr asid key 3 4 (s.podPa (64 * line))
  else s

/-- A frame's line leaves it: put back to its port when dirty (R284, R285); its bytes stay where L2 holds the line. -/
def State.frameWriteBack (s : State) (f : Frame) : State :=
  let line := s.frameLine f
  s.portWrite line f.key (s.lineBytes line) (s.memPsn.contains line) f.writer
def State.frameDrop (s : State) (f : Frame) (wb : Bool) : State :=
  let line := s.frameLine f
  let s := if wb && f.dirty && !f.bad then s.frameWriteBack f else s
  let s := { s with frames := s.frames.filter (fun x => !(x.slice == f.slice && x.idx == f.idx)) }
  if f.bad || (s.l2At line).isSome then s else { s.putLine line 0 with memPsn := delFrom s.memPsn line }

/-- A dirty capacity line taken by its HBM cache frame (R284): what the frame holds, were it the same line under another slot (R289), is written back first, and a frame that becomes dirty stamps its line stale. -/
def State.frameTake (s : State) (line key : Nat) (psn : Bool) (writer : Nat) : State :=
  let (sl, i, tag) := s.frameSlot line
  let mine := fun (f : Frame) => s.frameIs f line key
  let wasDirty := (s.frameAt line).any (fun f => f.dirty && mine f)
  let s := match s.frameAt line with
    | some f => if mine f then s else s.frameDrop f true
    | none => s
  let s := s.putFrame ⟨sl, i, tag, true, key, false, writer⟩
  { s with
    memPsn := setIn s.memPsn line psn
    stale := if wasDirty || !s.portUp line then s.stale else addTo s.stale (s.devLine line) }

/-- A capacity line written past L2, or written back from it (R279, R284, R423): its frame takes it, but for one that is never evicted; then, and in flat mode, its port does. `v` is the line's value. -/
def State.putCap (s : State) (line key v : Nat) (psn : Bool) (writer : Nat) : State :=
  if s.hasFrames && !s.stuck line key then (s.frameTake line key psn writer).putLine line v
  else (s.portWrite line key v psn writer).putLine line 0

/-- A line leaves L2 (R279, R289, R416): written back when dirty. (DESIGN CHOICE, log 11) -/
def State.dropL2 (s : State) (l : L2Line) (wb : Bool) : State :=
  let s := s.invalidate l.line none 0 0 0
  let s := { s with l2 := s.l2.filter (fun x => x.line != l.line) }
  if !isCap (64 * l.line) then
    if wb && l.dirty then { s with memPsn := setIn s.memPsn l.line l.psn } else s
  else if wb && l.dirty then s.putCap l.line l.key (s.lineBytes l.line) l.psn l.writer
  else if (s.frameHit l.line l.key).isSome then s
  else s.putLine l.line 0

/-- What stands in the way of a capacity line under a key goes: an L2 line of another slot (R289), and a frame that holds something else and may be evicted (R284, R421, R423). -/
def State.clearWay (s : State) (line key : Nat) : State :=
  let s := match s.l2At line with
    | some l => if l.key = key then s else s.dropL2 l true
    | none => s
  if (s.l2At line).isSome || s.stuck line key then s
  else match s.frameAt line with
  | some f => if s.frameIs f line key then s else s.frameDrop f true
  | none => s

/-- An access to a capacity line moves data (R423, R424): its slot is loaded and its port is not down. -/
def State.capMoves (s : State) (line key : Nat) : Bool := (s.keysOf key).isSome && s.portUp line
/-- A line that a core holds may answer a load or a fetch: every read of a line of a port that is down, or under a slot that is not loaded, returns poison, one that an L1 could answer too (R423, R424). (DEDUCED, log 102) -/
def State.serves (s : State) (pa key : Nat) : Bool := !isCap pa || s.capMoves (pa / 64) key

/-- What an agent reads of a line at its slice: plaintext value and poison (R278, R284, R289, R290, R422 to R424). -/
def State.peekLine (s : State) (line key : Nat) : Nat × Bool :=
  if !isCap (64 * line) then (s.lineBytes line, s.linePsn line)
  else if !s.capMoves line key then (0, true)
  else
    let s := s.clearWay line key
    match s.l2At line with
    | some l => (s.lineBytes line, l.psn)
    | none =>
      if (s.frameHit line key).isSome then (s.lineBytes line, s.memPsn.contains line)
      else if s.stuck line key then (0, true)
      else s.portPeek line key

/-- n bytes at a physical address, as the slices give them, with the poison of any granule touched and the first poisoned one. (DESIGN CHOICE, log 11) -/
def State.peek (s : State) (pa key n : Nat) : Nat × Option Nat :=
  if !isCap pa then
    let lines := (List.range ((pa + n + 63) / 64 - pa / 64)).map (· + pa / 64)
    (readNat s.mem pa n, (lines.find? s.linePsn).map (64 * ·))
  else
    let lines := (List.range ((pa + n + 63) / 64 - pa / 64)).map (· + pa / 64)
    let v := lines.foldr (fun l a => a * 2 ^ 512 + (s.peekLine l key).1) 0
    (v / 2 ^ (8 * (pa % 64)) % 2 ^ (8 * n), (lines.find? (fun l => (s.peekLine l key).2)).map (64 * ·))

/-- Make room in a line's set: the least recently used line leaves (R278). -/
def State.makeRoom (s : State) (line : Nat) : State :=
  let same := s.l2.filter (fun x => sliceOf (64 * x.line) == sliceOf (64 * line) && setOf x.line == setOf line)
  if same.length < s.ways then s
  else match same.getLast? with
  | some v => s.dropL2 v true
  | none => s

/-- A capacity line read from its port (R284, R422): its frame is filled clean; in flat mode its bytes stand in `mem` when L2 takes them. -/
def State.fillCap (s : State) (line key asid : Nat) (alloc : Bool) : State :=
  let (v, p) := s.portPeek line key
  let s := s.portReadNote line key asid
  if s.hasFrames then
    let (sl, i, tag) := s.frameSlot line
    { (s.putFrame ⟨sl, i, tag, false, key, false, asid⟩).putLine line v with memPsn := setIn s.memPsn line p }
  else if alloc then s.putLine line v else s

/-- A line of L2 used, most recently now (R278). -/
def State.touchL2 (s : State) (l : L2Line) : State := { s with l2 := l :: s.l2.filter (fun x => x.line != l.line) }

/-- A capacity line's read: nothing moves under an unloaded slot (kind 6, R424) or through a port that is down (R423); a miss whose frame is never evicted is not filled. (DESIGN CHOICE, log 11) -/
def State.readCap (s : State) (line key : Nat) (alloc : Bool) (asid : Nat) : State :=
  if (s.keysOf key).isNone then s.logErr asid key 3 6 (s.podPa (64 * line))
  else if !s.portUp line then s
  else
    let s := s.clearWay line key
    match s.l2At line with
    | some l => s.touchL2 l
    | none =>
      let s := if alloc then (s.makeRoom line).clearWay line key else s
      if s.stuck line key then s
      else
        let p := (s.peekLine line key).2
        let s := if (s.frameHit line key).isSome then s else s.fillCap line key asid alloc
        if alloc then { s with l2 := ⟨line, false, false, p, key, asid⟩ :: s.l2 } else s

/-- A read of a line at its slice, allocating when R279 says so, most recently used from then on. (DEDUCED, log 64) -/
def State.readLine (s : State) (line key : Nat) (alloc : Bool) (asid : Nat) : State :=
  if isCap (64 * line) then s.readCap line key alloc asid
  else match s.l2At line with
  | some l => s.touchL2 l
  | none =>
    if alloc then
      let s := s.makeRoom line
      { s with l2 := ⟨line, false, false, s.memPsn.contains line, key, asid⟩ :: s.l2 }
    else s

/-- A line brought into L2 for a write of part of it (R279): its own frame gives its bytes, even while the port is down; where they cannot be read it stands there as poison (R423). -/
def State.allocLine (s : State) (line key asid : Nat) : State :=
  let s := s.readLine line key true asid
  if (s.l2At line).any (fun l => l.key == key || !isCap (64 * line)) then s
  else
    let s := match s.l2At line with | some l => s.dropL2 l true | none => s
    let s := s.makeRoom line
    let own := (s.frameHit line key).isSome
    { (if own then s else s.putLine line 0) with l2 := ⟨line, true, false, if own then s.memPsn.contains line else true, key, asid⟩ :: s.l2 }

/-- A read of n bytes, line by line. -/
def State.readLines (s : State) (pa key n : Nat) (alloc : Bool) (asid : Nat) : State :=
  ((List.range ((pa + n + 63) / 64 - pa / 64)).map (· + pa / 64)).foldl (fun s l => s.readLine l key alloc asid) s

/-- The line stands dirty under another slot in a frame that is never evicted: no write reaches it (R423). -/
def State.blocked (s : State) (line key : Nat) : Bool :=
  s.stuck line key && (s.frameAt line).any (fun f => s.frameLine f == line)

/-- A write under a slot to a capacity line is discarded (R423, R424). -/
def State.discards (s : State) (line key : Nat) : Bool := isCap (64 * line) && ((s.keysOf key).isNone || s.blocked line key)

/-- A write of bytes inside one line at its slice (R79, R279, R280, R290): `mask` picks the bytes of the line, `psn` says that the data is poisoned, `direct` that a whole line bypasses L2 (vector, MSTT, copy). Under an unloaded slot it is discarded (R424). -/
def State.writeLine (s : State) (line key : Nat) (mask v : Nat) (psn direct : Bool) (asid : Nat)
    (own : Option Nat) (gang rank cls : Nat) : State :=
  let whole := mask % 2 ^ 64 == 2 ^ 64 - 1
  if isCap (64 * line) && (s.keysOf key).isNone then s.logErr asid key 3 6 (s.podPa (64 * line))
  else if isCap (64 * line) && s.blocked line key then s.logErr asid key 3 5 (s.podPa (64 * line))
  else
    let s := { s with dead := delFrom s.dead (line / 64) }
    let s := s.invalidate line own gang rank cls
    if whole && direct && !(s.l2At line).any (fun l => l.key == key) then
      -- past L2: HBM, the frame, or in flat mode the port (R279, R284, R423)
      let s := match s.l2At line with | some l => s.dropL2 l true | none => s
      if isCap (64 * line) then s.putCap line key v psn asid
      else { s.putLine line v with memPsn := setIn s.memPsn line psn }
    else
      let s := s.allocLine line key asid
      { s with
        mem := if whole then writeNat s.mem (64 * line) 64 v else writeMasked s.mem (64 * line) 64 mask v
        l2 := mapIf (fun x => x.line == line)
          (fun x => { x with dirty := true, writer := asid, psn := if psn then true else if whole then false else x.psn }) s.l2 }

/-- A write of n bytes at a physical address, line by line; `bad` says which of its bytes are poisoned. -/
def State.writePa (s : State) (pa key n v bad : Nat) (direct : Bool) (asid : Nat)
    (own : Option Nat) (gang rank cls : Nat) : State :=
  ((List.range ((pa + n + 63) / 64 - pa / 64)).map (· + pa / 64)).foldl
    (fun s l =>
      let lo := max pa (64 * l)
      let hi := min (pa + n) (64 * l + 64)
      let k := lo - 64 * l
      let m := (2 ^ (hi - lo) - 1) * 2 ^ k
      let part := v / 256 ^ (lo - pa) % 256 ^ (hi - lo)
      let p := bad / 2 ^ (lo - pa) % 2 ^ (hi - lo) != 0
      s.writeLine l key m (part * 256 ^ k) p direct asid own gang rank cls) s

end Sys2Proof.Machine
end

