-- ==== Sys2Proof/Machine/Translate.lean ====
section
/-!
DEFINITION. From a virtual address to a place (R268–R276, R199, R442), watch matches (R69), and fetching an instruction's bytes (R403).
-/
namespace Sys2Proof.Machine

/-- A kind of access (R275). -/
inductive Acc where
  | load | store | amo | fetch
  deriving DecidableEq, Repr

/-- What translation finds: a place with its permissions, a fault with the granule whose poison the walk met, or a target that is parked and holds the access back (R49). -/
inductive XRes where
  | at (p : Place) (x : Xlat)
  | fault (cause : BitVec 8) (psna : Option Nat)
  | held
  deriving DecidableEq, Repr

/-- KDEV names this device, and so does 0 (R199). -/
def State.isHere (s : State) (dev : Nat) : Bool := dev == 0 || dev == s.kdev
/-- A device that is fenced, or every other device once the plane fabric is lost (R445, R454). -/
def State.fenced (s : State) (dev : Nat) : Bool := s.fence.getLsbD dev || s.fabricLost || s.kdev == 0

/-- The fields of a page-table entry (R273). -/
structure Pte where
  v : Bool
  r : Bool
  w : Bool
  x : Bool
  u : Bool
  typ : Nat
  key : Nat
  frame : Nat
  dev : Nat
  top : Nat
  deriving DecidableEq, Repr
def pteOf (e : Nat) : Pte :=
  ⟨bit e 0, bit e 1, bit e 2, bit e 3, bit e 4, bits e 7 5, bits e 15 8, bits e 47 16, bits e 56 48, bits e 63 57⟩
def Pte.leaf (p : Pte) : Bool := p.r || p.w || p.x
/-- An entry that breaks a "must" of R273. -/
def Pte.malformed (p : Pte) : Bool :=
  p.top != 0 || (if p.leaf then decide (1 < p.typ) || (p.typ == 0 && p.key != 0)
    else p.dev != 0 || p.key != 0 || p.typ != 0 || p.u)

/-- How a walk fails: with a fault (R274, R426), or not yet, because a table line's reads are held (R296). -/
inductive WalkErr where
  | fault (cause : BitVec 8) (psna : Option Nat)
  | held
  deriving DecidableEq, Repr

/-- One table read of a walk (R274): the entry, or why there is none. -/
def State.readPte (s : State) (a : Nat) : Except WalkErr Pte :=
  if s.inFlat a || s.inCap a then
    if s.lineHeld (a / 64) then .error .held
    else match s.peek a 0 8 with
    | (_, some g) => .error (.fault 0x09 (some g))
    | (e, none) =>
      let p := pteOf e
      if p.malformed || !p.v then .error (.fault 0x07 none) else .ok p
  else .error (.fault 0x07 none)

/-- A leaf as a cached translation: whether it names this device is decided now (R276). -/
def State.leafXlat (s : State) (p : Pte) (asid va : Nat) (big : Bool) : Xlat where
  asid := asid
  page := if big then va / 2 ^ 29 else va / 2 ^ 16
  big := big
  frame := p.frame * 65536
  dev := if s.isHere p.dev then 0 else p.dev
  capacity := p.typ == 1
  key := p.key
  u := p.u
  x := p.x
  w := p.w
  r := p.r

/-- The page walk of R274. -/
def State.walk (s : State) (asid ptbase va : Nat) : Except WalkErr Xlat :=
  match s.readPte (ptbase + bits va 54 42 * 8) with
  | .error e => .error e
  | .ok l1 =>
    if l1.leaf then .error (.fault 0x07 none)
    else match s.readPte (l1.frame * 65536 + bits va 41 29 * 8) with
    | .error e => .error e
    | .ok l2 =>
      if l2.leaf then
        if l2.frame % 2 ^ 13 != 0 then .error (.fault 0x07 none) else .ok (s.leafXlat l2 asid va true)
      else match s.readPte (l2.frame * 65536 + bits va 28 16 * 8) with
      | .error e => .error e
      | .ok l3 => if l3.leaf then .ok (s.leafXlat l3 asid va false) else .error (.fault 0x07 none)

/-- A cached translation covers an address of an address space. -/
def Xlat.covers (x : Xlat) (asid va : Nat) : Bool :=
  x.asid == asid && x.page == (if x.big then va / 2 ^ 29 else va / 2 ^ 16)

/-- The hub translation cache of an address (R276): hub die va[29]. -/
def State.hubOf (s : State) (va : Nat) : List Xlat := if bit va 29 then s.hub1 else s.hub0

/-- A translation as the core in turn finds it: TLB, hub cache, walk (R276). A walk on its way to the caches answers as the caches will. -/
def State.findXlat (s : State) (asid ptbase va : Nat) : Except WalkErr Xlat :=
  match s.core.tlb.find? (·.covers asid va) with
  | some x => .ok x
  | none => match (s.hubOf va).find? (·.covers asid va) with
    | some x => .ok x
    | none => match (s.walks.map (·.2)).find? (·.covers asid va) with
      | some x => .ok x
      | none => s.walk asid ptbase va

/-- A translation as a unit of the hub dies finds it: hub cache, walk (R276). -/
def State.findShared (s : State) (asid ptbase va : Nat) : Except WalkErr Xlat :=
  match (s.hubOf va).find? (·.covers asid va) with
  | some x => .ok x
  | none => match (s.walks.map (·.2)).find? (·.covers asid va) with
    | some x => .ok x
    | none => s.walk asid ptbase va

/-- Windows carry R, W and U, never X (R268). -/
def windowXlat : Xlat := ⟨0, 0, false, 0, 0, false, 0, true, false, true, true⟩

/-- The table entries that a walk reads, to the one at which it ends (R274). -/
def State.walkReads (s : State) (ptbase va : Nat) : List Nat :=
  let a1 := ptbase + bits va 54 42 * 8
  match s.readPte a1 with
  | .error _ => [a1]
  | .ok l1 =>
    let a2 := l1.frame * 65536 + bits va 41 29 * 8
    if l1.leaf then [a1]
    else match s.readPte a2 with
    | .error _ => [a1, a2]
    | .ok l2 => if l2.leaf then [a1, a2] else [a1, a2, l2.frame * 65536 + bits va 28 16 * 8]

/-- What a walk's reads do at the slices: they allocate (R276, R279), and a stale or unloaded line is dealt with as by any read (R422, R424). -/
def State.walkNote (s : State) (asid ptbase va : Nat) : State :=
  (s.walkReads ptbase va).foldl (fun s a => if s.inFlat a || s.inCap a then s.readLine (a / 64) 0 true asid else s) s

/-- A page's translation used by a unit of the hub dies: its walk reads its tables, and what it finds enters the hub cache (R276). (DEDUCED, log 63) -/
def State.useShared (s : State) (asid ptbase va : Nat) : State :=
  match s.findShared asid ptbase va with
  | .ok x =>
    let put := fun (l : List Xlat) => (x :: l.filter (· != x)).take Config.hubEntries
    let s := if (s.hubOf va).contains x || (s.walks.map (·.2)).contains x then s else s.walkNote asid ptbase va
    if bit va 29 then { s with hub1 := put s.hub1 } else { s with hub0 := put s.hub0 }
  | .error (.fault _ _) => s.walkNote asid ptbase va
  | .error .held => s

/-- KPTBASE of the strand in the slot. -/
def State.ptbase (s : State) : Nat := (s.myGang.map (·.kptbase)).getD 0

/-- What using a translation leaves behind: a TLB hit becomes the most recently used; a miss is cached by a PAGE_WALK step, and a walk's reads allocate in L2 (R276, R279). -/
def State.useXlat (s : State) (x : Xlat) : State :=
  if x == windowXlat then s
  else if s.core.tlb.contains x then
    s.modCore (fun k => { k with tlb := x :: k.tlb.filter (· != x) })
  else if s.walks.contains (s.core.id, x) then s
  else
    let va := if x.big then x.page * 2 ^ 29 else x.page * 2 ^ 16
    let s1 := if (s.hubOf va).contains x || (s.walks.map (·.2)).contains x then s
      else s.walkNote x.asid s.ptbase va
    { s1 with walks := s1.walks ++ [(s.core.id, x)] }

/-- The physical address that a translation gives. -/
def Xlat.pa (x : Xlat) (va : Nat) : Nat := if x.big then x.frame + va % 2 ^ 29 else x.frame + va % 2 ^ 16

/-- A rank of a gang on this device that takes no access: stopped under isolate, or its gang contained or done (R442). -/
def Gang.lost (g : Gang) (rank : Nat) : Bool :=
  g.contained.contains rank || g.state == .contained || g.state == .done

/-- What R199 and R442 say of a rank and offset on this device, for an access of n bytes. -/
inductive PeerRes where
  | at (gang : Nat) (rank : Nat) (core : Nat) (off : Nat)
  | fails | lost | held
  deriving DecidableEq, Repr

/-- Resolve a rank of a gang of this device (R27, R199, R396, R442). -/
def State.peerIn (s : State) (g : Gang) (rank off n : Nat) : PeerRes :=
  if g.size ≤ rank || g.task.spad < off + n then .fails
  else if g.lost rank then (if g.state == .contained && !g.task.isolate then .held else .lost)
  else match g.coreOf rank with
  | none => .fails
  | some c =>
    if g.state == .parked || g.state == .parking then .held
    else match (s.coreAt c).strand? g.id rank with
    | some t => .at g.id rank c (t.allotBase + off)
    | none => match g.exited.find? (fun e => e.rank == rank) with
      | some _ => .fails
      | none => .fails

/-- A translation's frame checked against the physical map (R272). A frame of another device is held to the ranges that every device has, and to what it has populated there, where the access is performed (R275, R360). -/
def State.placeOf (s : State) (x : Xlat) (va : Nat) : Option Place :=
  let pa := x.pa va
  if x.dev != 0 then (if x.capacity == (decide (capBase ≤ pa) && decide (pa < ctlBase)) then some (.farMem x.dev pa x.key) else none)
  else if x.capacity then (if s.inCap pa then some (.slice pa x.key) else none)
  else if s.inFlat pa then some (.slice pa 0)
  else if ctlBase ≤ pa then some (.ctl pa)
  else none

/-- Translate an address for an access of n bytes by the strand in the slot: check 2 of R155 and R268–R272. A page of a fenced device gives 0x0E here, before permission and watches are looked at. (DESIGN CHOICE, log 85) -/
def State.xlate (s : State) (va : Word) (n : Nat) : XRes :=
  let a := va.toNat
  if 2 ^ 55 ≤ a then .fault 0x07 none
  else if bits a 54 53 != 3 then
    match s.findXlat s.asid s.ptbase a with
    | .error (.fault c p) => .fault c p
    | .error .held => .held
    | .ok x =>
      if x.dev != 0 && s.fenced x.dev then .fault 0x0E none
      else match s.placeOf x a with
      | some p => .at p x
      | none => .fault 0x07 none
  else if bits a 54 44 == 0x600 then
    let dev := bits a 43 35
    let rank := bits a 34 19
    let off := bits a 18 0
    if !s.isHere dev then
      if s.fenced dev then .fault 0x0E none
      else if 0xFE00 ≤ rank then .fault 0x07 none
      else .at (.farPad dev rank off) windowXlat
    else match s.myGang with
    | none => .fault 0x07 none
    | some g =>
      match s.peerIn g rank off n with
      | .at gi r c o => .at (.peer gi r c o) windowXlat
      | .fails => .fault 0x07 none
      | .lost => .fault 0x0E none
      | .held => .held
  else if 0x70000000000000 ≤ a && a < 0x70000000080000 then
    let off := a - 0x70000000000000
    if off < s.core.st.allotSize then .at (.local_ (s.core.st.allotBase + off)) windowXlat else .fault 0x07 none
  else .fault 0x07 none

/-- Translate an address where only its memory type matters (R207, R265, R266): what has become of another device or of a peer does not. A place that no access can reach now stands as another device's. -/
def State.typed (s : State) (va : Word) (n : Nat) : XRes :=
  let gone : XRes := .at (.farPad 0 0 0) windowXlat
  match s.xlate va n with
  | .fault c p => if c = 0x0E then gone else .fault c p
  | .held => if bits va.toNat 54 53 == 3 then gone else .held
  | r => r

/-- What the lookup of an access that traps leaves: a walk that ended in a fault has read its tables (R276, R422, R426), and a valid translation is cached and used, whatever the access then traps with. -/
def State.walkFault (s : State) (va : Word) : State :=
  if 2 ^ 55 ≤ va.toNat || bits va.toNat 54 53 == 3 then s
  else match s.findXlat s.asid s.ptbase va.toNat with
  | .error (.fault _ _) => s.walkNote s.asid s.ptbase va.toNat
  | .ok x => s.useXlat x
  | .error .held => s

/-- Permission (R275): R, W, both, or X; and U in user mode. -/
def Xlat.permits (x : Xlat) (acc : Acc) (k : Bool) : Bool :=
  (match acc with
   | .load => x.r
   | .store => x.w
   | .amo => x.r && x.w
   | .fetch => x.x) && (k || x.u)

/-- Fields of a watch register (R68). -/
def Watch.en (x : Watch) : Bool := x.ctl.getLsbD 0
def Watch.rd (x : Watch) : Bool := x.ctl.getLsbD 1
def Watch.wr (x : Watch) : Bool := x.ctl.getLsbD 2
def Watch.eng (x : Watch) : Bool := x.ctl.getLsbD 3

/-- A byte lies in a watched range (R69). -/
def Watch.hits (x : Watch) (b : Nat) : Bool :=
  let base := x.base.toNat % 2 ^ 55
  let stride := x.str.toNat % 2 ^ 32
  let width := bits x.str.toNat 55 32
  decide (base ≤ b) && decide (b < x.lim.toNat % 2 ^ 55) && (stride == 0 || decide ((b - base) % stride < width))

/-- The first byte of [a, a + n) in a watched range: for short accesses byte by byte, for long ones by the range's own shape. -/
def Watch.firstHit (x : Watch) (a n : Nat) : Option Nat :=
  let base := x.base.toNat % 2 ^ 55
  let lim := x.lim.toNat % 2 ^ 55
  let stride := x.str.toNat % 2 ^ 32
  let width := bits x.str.toNat 55 32
  let b := max a base
  if a + n ≤ b || lim ≤ b then none
  else if stride == 0 then some b
  else if width == 0 then none
  else if (b - base) % stride < width then some b
  else
    let nxt := base + ((b - base) / stride + 1) * stride
    if nxt < a + n && nxt < lim then some nxt else none

/-- A kind of access for the watch registers (R68, R69). -/
structure WKind where
  rd : Bool
  wr : Bool
  eng : Bool
def wLoad : WKind := ⟨true, false, false⟩
def wStore : WKind := ⟨false, true, false⟩
def wAmo : WKind := ⟨true, true, false⟩

/-- Whether a watch register is armed for a kind. -/
def Watch.armed (x : Watch) (k : WKind) : Bool :=
  x.en && (!k.eng || x.eng) && ((k.rd && x.rd) || (k.wr && x.wr))

/-- The watch registers, by number, that match an access of n bytes. -/
def Strand.watchers (t : Strand) (k : WKind) (a n : Nat) : List Nat :=
  if t.watchPass then []
  else ((List.range 8).zip t.watch.toList).filterMap
    (fun p => if p.2.armed k && (p.2.firstHit a n).isSome then some p.1 else none)

/-- The first matching address of an access (R69, R257). -/
def Strand.firstWatch (t : Strand) (k : WKind) (a n : Nat) : Word :=
  let bs := ((t.watch.toList).filter (·.armed k)).filterMap (·.firstHit a n)
  BitVec.ofNat 64 (bs.foldl min (bs.headD a))

/-- HIT set in the watch registers named (R257). -/
def Strand.hit (t : Strand) (ns : List Nat) : Strand :=
  { t with watch := t.watch.mapIdx (fun i x => if ns.contains i then { x with ctl := x.ctl ||| 16#64 } else x) }

/-- Poison of a scratchpad granule of a core. -/
def Core.granPsn (k : Core) (off : Nat) : Bool := k.padPsn.contains (off / 64)

/-- Control space, of this device or another (R272). -/
def Place.isCtl : Place → Bool
  | .ctl _ => true
  | .farMem _ pa _ => decide (ctlBase ≤ pa)
  | _ => false

/-- FETCHING: the checks of R403 and the four bytes at the pc, through the instruction cache (R404); the cause where a check fails. -/
inductive Fetched where
  | word (w : IWord) (x : Xlat) (pa : Nat) (key : Nat) (miss : Bool)
  /-- the word lies on another device's page and has not come yet -/
  | remote (dev : Nat) (pa : Nat) (key : Nat)
  | fault (cause : BitVec 8) (psna : Option Nat)
  | held
  deriving DecidableEq, Repr

/-- The word at the pc of the strand in the slot (R403): nothing in a window or in control space is executable. -/
def State.fetch (s : State) : Fetched :=
  let pc := s.core.st.pc.toNat
  if bits pc 54 53 == 3 then
    -- a window address is never executable; any other such address has no translation (R268)
    if bits pc 54 44 == 0x600 || (0x70000000000000 ≤ pc && pc < 0x70000000080000) then .fault 0x08 none else .fault 0x07 none
  else match s.xlate (s.core.st.pc.setWidth 64) 4 with
  | .fault c p => .fault c p
  | .held => .held
  | .at p x =>
    if !x.permits .fetch s.core.st.kMode || p.isCtl then .fault 0x08 none
    else match p with
    | .slice pa key =>
      match s.core.icache.find? (fun l => l.line == pa / 64 + 2 ^ 48 * key && s.serves pa key) with
      | some l => .word (l.data.extractLsb' (8 * (pa % 64)) 32) x pa key false
      | none =>
        if s.lineHeld (pa / 64) then .held
        else match s.peek pa key 4 with
        | (_, some g) => .fault 0x09 (some g)
        | (v, none) => .word (BitVec.ofNat 32 v) x pa key true
    | .farMem dev pa key =>
      match s.core.st.code with
      | some (at_, a) =>
        if at_ == s.core.st.pc then
          if a.status == 1 then .fault 0x0E none
          else if a.status != 0 then .fault 0x07 none
          else if a.psn then .fault 0x09 (some (dev * 2 ^ 48 + pa / 64 * 64))
          else .word (a.value.setWidth 32) x pa key false
        else .remote dev pa key
      | none => .remote dev pa key
    | _ => .fault 0x08 none

end Sys2Proof.Machine
end

