-- ==== Sys2Proof/Machine/Window.lean ====
section
/-!
DEFINITION. The vector queue and its window as data (R302, R390, R391): which instructions enter the queue, the scalar state that a queued instruction carries, and stopping a strand at its oldest queued instruction.
-/
namespace Sys2Proof.Machine

/-- The major opcode of an instruction; 0 for an event. -/
def majorOf (i : Instr) : Nat := match encode i with | some w => w.toNat / 2 ^ 25 | none => 0

/-- TLDF, at which the scalar unit waits until the queue is empty, and behind which nothing enters it before TLDF is done (R211). -/
def isTldf (i : Instr) : Bool := match i with | .tldf _ _ _ => true | _ => false

/-- Instructions that the vector queue takes (R220, R302): vector, matrix, tile, copy, token and barrier instructions, but for TLDF. -/
def inQueue (i : Instr) : Bool :=
  let m := majorOf i
  !isTldf i && ((0x21 ≤ m && m ≤ 0x29) || (0x30 ≤ m && m ≤ 0x33) || m == 0x38 || m == 0x3B || m == 0x3D || m == 0x40)

/-- Instructions that wait until the vector queue is empty (R211, R390): TLDF, AWAIT, YIELD, group changes, SPAWN, SEXIT and every instruction of MO 0x48 and 0x50. The spec lets a held GJOIN, GLEAVE, SPAWN or AMO commit before; here it commits when it may leave. (DESIGN CHOICE, log 10) -/
def waitsForQueue (i : Instr) : Bool :=
  let m := majorOf i
  match i with
  | .sid _ _ => false
  | _ => isTldf i || m == 0x39 || m == 0x3C || m == 0x3E || m == 0x48 || m == 0x50

/-- Engine transfers with recorded local ranges (R233). -/
def isTransfer (i : Instr) : Bool :=
  match i with
  | .cpy _ _ _ _ _ => true
  | .cpy2d _ _ _ _ _ => true
  | .cpyg _ _ _ _ => true
  | .tstf _ _ _ _ => true
  | _ => false

/-- Instructions of the queue that acquire: no later access of the strand comes before them (R305). -/
def acquires (i : Instr) : Bool :=
  match i with
  | .tkrd _ _ => true
  | .twait _ => true
  | .tstat _ _ => true
  | .bar _ => true
  | _ => false

/-- VLDFF, behind which nothing enters the queue (R198). -/
def isFirstFault (i : Instr) : Bool := match i with | .vldff _ _ _ _ => true | _ => false

/-- SETVL and SETVLI, which do not commit behind VLDFF (R198). -/
def setsVl (i : Instr) : Bool :=
  match i with
  | .setvl _ _ _ => true
  | .setvli _ _ _ _ _ _ _ _ => true
  | _ => false

/-- The scalar register that a queued instruction writes when it completes (R167, R220). -/
def scalarDest (i : Instr) : Option (BitVec 5) :=
  match i with
  | .mpopc d _ _ => some d
  | .mfirst d _ _ => some d
  | .vext d _ _ _ => some d
  | .tstat d _ => some d
  | .tknew d _ => some d
  | .tkrd d _ => some d
  | _ => none

/-- The scalar state of a strand as an instruction carries it into the queue (R165, R390). -/
def Strand.ctx (t : Strand) : Ctx where
  pc := t.pc
  regs := t.regs
  marks := t.marks
  vl := t.vl
  kvtype := t.kvtype
  kfctl := t.kfctl
  klm := t.klm
  watchPass := t.watchPass
  resFirst := t.resFirst
  resG := t.resG
  resN := t.resN

/-- A strand with its scalar state as it was. -/
def Ctx.onto (c : Ctx) (t : Strand) : Strand :=
  { t with
    pc := c.pc, regs := c.regs, marks := c.marks, vl := c.vl, kvtype := c.kvtype, kfctl := c.kfctl, klm := c.klm
    watchPass := c.watchPass, resFirst := c.resFirst, resG := c.resG, resN := c.resN }

/-- What the groups of a row may overwrite, kept (R391). -/
def Strand.toHist (t : Strand) (kfctl : Word) : Hist := ⟨t.v, t.vpsn, t.masks, t.badMasks, kfctl⟩
/-- The row's groups undone (R391). -/
def Strand.fromHist (t : Strand) (h : Hist) : Strand :=
  { t with v := h.v, vpsn := h.vpsn, masks := h.masks, badMasks := h.badMasks, kfctl := h.kfctl }

/-- Stopping at the oldest queued instruction (R390, R391): the row of groups in progress is undone, every younger instruction is discarded, and what has committed behind it never was. What is left tells the group to resume from, and how many of the following instructions resume there with it. -/
def Strand.unwind (t : Strand) : Strand :=
  match t.queue with
  | [] => t
  | e :: _ =>
    let u := { e.ctx.onto t with queue := [], win := 0, row := 0, turn := 0, hist := none, vq := none, code := none, codeAsked := none }
    if t.win < 2 then u
    else
      { (match t.hist with | some h => u.fromHist h | none => u) with
        prog := none, answers := [], asked := false, resFirst := some t.row, resG := t.row, resN := t.win - 1 }

/-- Where a stopped strand resumes: its element group, and its resume depth (R391, R398). -/
def Strand.stopGroup (t : Strand) : Nat := match t.prog with | some p => p.grp | none => t.resGroup
def Strand.stopDepth (t : Strand) : Nat := if t.prog.isSome && t.resFirst.isNone then t.resN - 1 else t.resN

end Sys2Proof.Machine
end

