-- ==== Sys2Proof/Machine/Mem.lean ====
section
/-!
DEFINITION. Reaching a place (R156, R194): scratchpad bytes with their poison, what a slice or scratchpad holds, writes gathered by 64-byte granule (R79, R279), atomic updates at the owner (R160, R202), the range interlock (R233), and requests to other devices (R359–R361).
-/
namespace Sys2Proof.Machine

/-- A core's scratchpad bytes. -/
def Core.padGet (k : Core) (off n : Nat) : Nat := readNat k.pad off n
/-- Any poisoned granule in a range of a core's scratchpad. -/
def Core.padPsnIn (k : Core) (off n : Nat) : Bool :=
  n != 0 && k.padPsn.any (fun g => decide (off / 64 ≤ g) && decide (g ≤ (off + n - 1) / 64))

/-- Bytes of one granule of a core's scratchpad written under a mask (R79). -/
def Core.padGran (k : Core) (gran mask v : Nat) (psn : Bool) : Core :=
  let whole := mask % 2 ^ 64 == 2 ^ 64 - 1
  { k with
    pad := if whole then writeNat k.pad (64 * gran) 64 v else writeMasked k.pad (64 * gran) 64 mask v
    padPsn := if psn then addTo k.padPsn gran else if whole then delFrom k.padPsn gran else k.padPsn }

/-- n bytes of a core's scratchpad written; `bad` says which bytes are poisoned. -/
def Core.padPut (k : Core) (off n v bad : Nat) : Core :=
  ((List.range ((off + n + 63) / 64 - off / 64)).map (· + off / 64)).foldl
    (fun k g =>
      let lo := max off (64 * g)
      let hi := min (off + n) (64 * g + 64)
      let m := (2 ^ (hi - lo) - 1) * 2 ^ (lo - 64 * g)
      k.padGran g m (v / 256 ^ (lo - off) % 256 ^ (hi - lo) * 256 ^ (lo - 64 * g)) (bad / 2 ^ (lo - off) % 2 ^ (hi - lo) != 0)) k

/-- What a read finds at a place of this device. -/
structure Got where
  val : Nat
  psn : Bool
  /-- the poisoned granule's physical address, at a slice -/
  gran : Option Nat
  deriving DecidableEq, Repr

/-- The n bytes at a place of this device; none for control space and for other devices. (DEDUCED, log 21) -/
def State.look (s : State) (p : Place) (n : Nat) : Option Got :=
  match p with
  | .slice pa key => let r := s.peek pa key n; some ⟨r.1, r.2.isSome, r.2⟩
  | .local_ off => some ⟨s.core.padGet off n, s.core.padPsnIn off n, none⟩
  | .peer _ _ c off => let k := s.coreAt c; some ⟨k.padGet off n, k.padPsnIn off n, none⟩
  | _ => none

/-- The core of a handle (R34). -/
def hCore (h : BitVec 32) : Nat := (h >>> 14).toNat % 512

/-- A read at a place is held while invalidations of its line are outstanding (R296). -/
def State.placeHeld (s : State) (p : Place) : Bool :=
  match p with
  | .slice pa _ => s.lineHeld (pa / 64)
  | _ => false

/-- Global, capacity or pod memory, where a store consumes poison (R197). -/
def Place.consumes : Place → Bool
  | .local_ _ => false
  | .peer _ _ _ _ => false
  | _ => true

/-- Another device's place. -/
def Place.far : Place → Bool
  | .farMem _ _ _ => true
  | .farPad _ _ _ => true
  | _ => false

/-- The offset in the issuing strand's own allotment that a place has (R233). -/
def State.ownOff (s : State) (p : Place) : Option Nat :=
  match p with
  | .local_ off => some (off - s.core.st.allotBase)
  | .peer g r _ off => if g == s.core.st.gang && r == s.core.st.rank then some (off - s.core.st.allotBase) else none
  | _ => none

/-- The completion of an engine transfer is on its way to its token: here, waiting to be sent, or sent to another device and not acknowledged by it (R36, R205, R356). (DEDUCED, log 86) -/
def State.signalling (s : State) (id : Nat) : Bool :=
  s.tokMsgs.any (fun m => m.xfer == some id) || s.txq.any (fun p => p.xfer == some id) || s.pairs.any (fun p => p.goBack.any (fun f => f.xfer == some id))
/-- An entry of the range interlock table stands until its transfer is performed, its token's completion received (R205, R233). -/
def State.standing (s : State) (l : Lock) : Bool := s.xfers.any (fun x => x.id == l.xfer) || s.signalling l.xfer

/-- An access to a range of the own allotment is held by the range interlock table, or by a transfer that still stands in the queue before it (R233, R300). -/
def State.lockedAt (s : State) (off n : Nat) (write : Bool) : Bool :=
  n != 0 && s.core.locks.any (fun l => l.gang == s.core.st.gang && l.rank == s.core.st.rank
    && decide (l.lo < off + n) && decide (off < l.hi) && (l.dest || write) && s.standing l)
def State.locked (s : State) (p : Place) (n : Nat) (write : Bool) : Bool :=
  match s.ownOff p with
  | some o => s.lockedAt o n write || s.core.st.queue.any (fun q => isTransfer q.instr)
  | none => false

/-- An acquire still stands in the queue before an access (R305). -/
def State.acquiring (s : State) : Bool := s.core.st.queue.any (fun q => acquires q.instr)

/-- A scalar reply is outstanding (R42, R300): a mark, an answer not yet written, or the invalidations of the strand's own AMO (R162, R280). -/
def Strand.anyPending (t : Strand) : Bool := t.marks.toList.any (fun m => m == .pending)
def State.strandBusy (s : State) (t : Strand) : Bool :=
  t.anyPending || s.invals.any (fun v => v.gang == t.gang && v.rank == t.rank && v.cls % 2 == 1)
    || s.replies.any (fun r => r.gang == t.gang && r.rank == t.rank)
    || s.reqs.any (fun r => r.gang == t.gang && r.rank == t.rank && (match r.kind with
      | .load _ _ _ _ => true
      | .amo _ _ _ => true
      | _ => false))
def State.scalarBusy (s : State) : Bool := s.strandBusy s.core.st
/-- An AMO with AQ 1 has no reply yet: vector accesses and engine transfers wait (R162, R305). -/
def State.acqWait (s : State) : Bool := s.core.st.acq && s.scalarBusy

/-- An arrival that its parked target holds back lets others pass (R49). -/
def State.parkedTarget (s : State) (a : Arrival) : Bool :=
  match s.gang? a.gang with
  | some g => g.state == .parked || g.state == .parking || (g.state == .contained && !g.task.isolate)
  | none => false
/-- The messages on their way between units of this device: the unit each comes from, the core that it goes to, its place (R14): to tokens, to tiles, to registers. (DEDUCED, log 89) -/
def State.flights (s : State) : List (Nat × Nat × Nat) :=
  let core := fun (g r : Nat) => ((s.strand? g r).map (·.1)).getD Config.cores
  s.tokMsgs.map (fun m => (m.unit, hCore m.handle, m.seq))
    ++ ((s.fills ++ s.combines).filter (fun a => !s.parkedTarget a)).map (fun a => (a.unit, core a.gang a.rank, a.seq))
    ++ s.replies.map (fun r => (r.unit, core r.gang r.rank, r.seq))
/-- The place of the next message. (DEDUCED, log 89) -/
def State.stamp (s : State) : Nat :=
  (s.tokMsgs.map (·.seq) ++ (s.fills ++ s.combines).map (·.seq) ++ s.replies.map (·.seq)).foldl max 0 + 1
/-- No message of the same unit to the same core comes before this one (R14). (DEDUCED, log 89) -/
def State.foremost (s : State) (unit core seq : Nat) : Bool := !s.flights.any (fun f => f.1 == unit && f.2.1 == core && decide (f.2.2 < seq))
/-- Messages of one core are on their way to another: what it does there after them comes behind them (R14). (DEDUCED, log 89) -/
def State.coming (s : State) (unit core : Nat) : Bool := unit != core && s.flights.any (fun f => f.1 == unit && f.2.1 == core)

/-- A free request tag towards a device (R359). -/
def State.freeTag (s : State) (dst : Nat) : Option Nat :=
  let used := fun t => s.reqs.any (fun r => r.tag == t && r.dst == dst)
  if used (s.nextId % 4096) then (List.range 4096).find? (fun t => !used t) else some (s.nextId % 4096)
def State.tagsFree (s : State) (dst : Nat) : Nat := 4096 - s.reqs.countP (fun r => r.dst == dst)

/-- A packet of this device (R359). -/
def State.packet (s : State) (typ dst len asid vc : Nat) (d1 : Word) (payload : Nat) (key : Nat) : Packet where
  typ := typ
  dec := false
  len := len
  asid := asid
  tag := 0
  dst := dst
  src := s.kdev
  mc := false
  vc := vc
  d1 := d1
  payload := BitVec.ofNat 2048 payload
  key := key
  alloc := false
  xfer := none

/-- A request sent under a free tag, and remembered until its response (R361). -/
def State.sendReq (s : State) (p : Packet) (gang rank : Nat) (kind : ReqKind) : State :=
  match s.freeTag p.dst with
  | none => s
  | some t => { s with
      txq := s.txq ++ [{ p with tag := t }]
      reqs := s.reqs ++ [⟨t, p.dst, gang, rank, kind, 0⟩]
      nextId := s.nextId + 1 }

/-- The device that a place of another device lies on, and dword 1 of a request to it (R359). -/
def Place.dev : Place → Nat
  | .farMem d _ _ => d
  | .farPad d _ _ => d
  | _ => 0
def Place.target : Place → Nat
  | .farMem _ pa _ => pa
  | .farPad _ rank off => 2 ^ 63 + rank * 2 ^ 19 + off
  | _ => 0
def Place.keyOf : Place → Nat
  | .farMem _ _ k => k
  | .slice _ k => k
  | _ => 0

/-- READ of n bytes (R360); `alloc` as R279 has it for the access. -/
def State.sendRead (s : State) (p : Place) (n : Nat) (alloc : Bool) (gang rank : Nat) (kind : ReqKind) : State :=
  s.sendReq { s.packet 0x01 p.dev n s.asid 0 (BitVec.ofNat 64 p.target) 0 p.keyOf with alloc := alloc } gang rank kind
/-- WRITE of n bytes, PSN in d1[51:48] (R360). -/
def State.sendWrite (s : State) (p : Place) (n v psn asid gang rank : Nat) (kind : ReqKind) : State :=
  s.sendReq (s.packet 0x02 p.dev n asid 0 (BitVec.ofNat 64 (p.target + psn * 2 ^ 48)) v p.keyOf) gang rank kind
/-- ATOMIC with the fn10 of R114 (R360). (DEDUCED, log 16) -/
def State.sendAtomic (s : State) (p : Place) (len v fn10 gang rank : Nat) (kind : ReqKind) : State :=
  s.sendReq (s.packet 0x03 p.dev len s.asid 0 (BitVec.ofNat 64 (p.target + fn10 * 2 ^ 48)) v p.keyOf) gang rank kind

/-- Where a gathered write goes: a slice under a key, or a core's scratchpad; for another device, its place. -/
inductive Dest where
  | slice (key : Nat) | pad (core : Nat) | farMem (dev key : Nat) | farPad (dev rank : Nat)
  deriving DecidableEq, Repr

/-- Bytes of one 64-byte granule gathered from the elements of one instruction. -/
structure Chunk where
  dst : Dest
  gran : Nat
  mask : Nat
  val : Nat
  psn : Bool
  deriving DecidableEq, Repr

/-- One element's bytes as a chunk; an element is naturally aligned, so it lies in one granule. -/
def Place.chunk (p : Place) (me : Nat) (n v : Nat) (psn : Bool) : Option Chunk :=
  let mk := fun (d : Dest) (a : Nat) => some (⟨d, a / 64, (2 ^ n - 1) * 2 ^ (a % 64), v % 256 ^ n * 256 ^ (a % 64), psn⟩ : Chunk)
  match p with
  | .slice pa key => mk (.slice key) pa
  | .local_ off => mk (.pad me) off
  | .peer _ _ c off => mk (.pad c) off
  | .farMem d pa key => mk (.farMem d key) pa
  | .farPad d r off => mk (.farPad d r) off
  | .ctl _ => none

/-- Each byte of an 8-byte-per-bit mask stretched to whole bytes. -/
def byteMask (mask : Nat) : Nat := (List.range 64).foldl (fun m i => if bit mask i then m + 255 * 256 ^ i else m) 0

/-- A later chunk laid over an earlier one of the same granule. -/
def Chunk.over (a b : Chunk) : Chunk :=
  let bm := byteMask b.mask
  { a with mask := a.mask ||| b.mask, val := (a.val - (a.val &&& bm)) + b.val, psn := a.psn || b.psn }

/-- Chunks gathered by granule, in order of first appearance. -/
def gather (cs : List Chunk) : List Chunk :=
  cs.foldl (fun acc c =>
    if acc.any (fun a => a.dst == c.dst && a.gran == c.gran) then
      acc.map (fun a => if a.dst == c.dst && a.gran == c.gran then a.over c else a)
    else acc ++ [c]) []

/-- The runs of set bits of a mask below `n`, as (start, length). -/
def runs (mask : Nat) : Nat → Nat → List (Nat × Nat)
  | 0, _ => []
  | n + 1, i =>
    if bit mask i then
      match runs mask n (i + 1) with
      | (st, len) :: r => if st = i + 1 then (i, len + 1) :: r else (i, 1) :: (st, len) :: r
      | [] => [(i, 1)]
    else runs mask n (i + 1)

/-- A fence note set (R437). -/
def Strand.note (t : Strand) (m : BitVec 5) : Strand :=
  if t.status == .exited || t.status == .stopped then t else { t with notes := t.notes ||| m }
/-- The notes that a lost store of a fence class leaves (R437): bit 0 sl, 1 ss, 3 vs. (DEDUCED, log 33) -/
def noteOf (cls : Nat) : BitVec 5 := BitVec.ofNat 5 (cls % 16)

/-- A gathered write performed (R194, R197, R279): at a slice or a scratchpad now, at another device by requests of fence class `cls`; for a device that has been fenced since its checks it is discarded and noted (R442). -/
def State.putChunk (s : State) (asid gang rank cls : Nat) (c : Chunk) : State :=
  match c.dst with
  | .slice key => s.writeLine c.gran key c.mask c.val c.psn true asid none gang rank cls
  | .pad k => s.modCoreAt k (fun k => k.padGran c.gran c.mask c.val c.psn)
  | .farMem d key => if s.fenced d then s.modStrand gang rank (fun t => t.note (noteOf cls)) else (runs c.mask 64 0).foldl (fun s r =>
      s.sendWrite (.farMem d (64 * c.gran + r.1) key) r.2 (c.val / 256 ^ r.1 % 256 ^ r.2) (b2n c.psn) asid gang rank (.store cls)) s
  | .farPad d rk => if s.fenced d then s.modStrand gang rank (fun t => t.note (noteOf cls)) else (runs c.mask 64 0).foldl (fun s r =>
      s.sendWrite (.farPad d rk (64 * c.gran + r.1)) r.2 (c.val / 256 ^ r.1 % 256 ^ r.2) (b2n c.psn) asid gang rank (.store cls)) s

/-- Poison of the granules of this device that one store has written whole, where its writes were not discarded (R424), with no poisoned data, in parts (R79, R414). (DEDUCED, log 74) -/
def State.clearWhole (s : State) (cs : List Chunk) : State :=
  ((gather cs).filter (fun c => c.mask % 2 ^ 64 == 2 ^ 64 - 1 && !c.psn)).foldl (fun s c =>
    match c.dst with
    | .slice key => if s.discards c.gran key then s else { s with
        memPsn := if (s.l2At c.gran).isSome then s.memPsn else delFrom s.memPsn c.gran
        l2 := mapIf (fun x => x.line == c.gran) (fun x => { x with psn := false }) s.l2 }
    | .pad k => s.modCoreAt k (fun k => { k with padPsn := delFrom k.padPsn c.gran })
    | _ => s) s

/-- Requests that a gathered write needs towards other devices. -/
def Chunk.needs (c : Chunk) : Option (Nat × Nat) :=
  match c.dst with
  | .farMem d _ => some (d, (runs c.mask 64 0).length)
  | .farPad d _ => some (d, (runs c.mask 64 0).length)
  | _ => none
/-- Tags are free for all of them. -/
def State.tagsFor (s : State) (cs : List Chunk) : Bool :=
  cs.all (fun c => match c.needs with
    | none => true
    | some (d, _) => decide (((cs.filterMap Chunk.needs).filter (fun x => x.1 == d)).foldl (fun n x => n + x.2) 0 ≤ s.tagsFree d))

/-- A write at the owner of a place of this device, whatever its length inside one granule. -/
def State.putPlace (s : State) (p : Place) (n v : Nat) (psn : Bool) (asid : Nat) (gang rank cls : Nat) : State :=
  match p with
  | .slice pa key => s.writePa pa key n v (if psn then 2 ^ n - 1 else 0) false asid none gang rank cls
  | .local_ off => s.modCore (fun k => k.padPut off n v (if psn then 2 ^ n - 1 else 0))
  | .peer _ _ c off => s.modCoreAt c (fun k => k.padPut off n v (if psn then 2 ^ n - 1 else 0))
  | _ => s

/-- The new value of an AMO (R160): operators of R114; `e` is AMOCAS's expected value. None where nothing is written. -/
def amoNew (op n old x e : Nat) : Option Nat :=
  let w := 8 * n
  match op with
  | 0 => some ((old + x) % 2 ^ w)
  | 1 => some (old &&& x)
  | 2 => some (old ||| x)
  | 3 => some (old ^^^ x)
  | 4 => some (if toInt w x < toInt w old then x else old)
  | 5 => some (if toInt w old < toInt w x then x else old)
  | 6 => some (min old x)
  | 7 => some (max old x)
  | 8 => some x
  | _ => if old = e then some x else none

/-- The new value of a VSCA update (R202): operator 0 add, 1 min, 2 max under an ET. -/
def scaNew (op et n mode old u : Nat) : Nat :=
  match fmtOf et with
  | some f => (if op = 0 then fAdd f mode old u else fMinMax f (op == 2) old u).1
  | none =>
    let w := 8 * n
    match op with
    | 0 => (old + u) % 2 ^ w
    | 1 => if et = 0 then (if toInt w u < toInt w old then u else old) else min old u
    | _ => if et = 0 then (if toInt w old < toInt w u then u else old) else max old u

/-- A slice's line marked poisoned by an update that found poison, where it is not marked already: later updates find it too, until it is cleared (R414, R419). A line that takes no write is not marked (R424). -/
def State.markLine (s : State) (pa key asid gang rank cls : Nat) : State :=
  if s.linePsn (pa / 64) || s.discards (pa / 64) key then s
  else s.writeLine (pa / 64) key 0 0 true false asid none gang rank cls

/-- An indivisible update at a place of this device (R160, R161, R202): the old value, and whether poison kept it from being written. -/
def State.atomicAt (s : State) (p : Place) (n : Nat) (f : Nat → Option Nat) (psn : Bool) (asid gang rank cls : Nat) : (Nat × Bool) × State :=
  match s.look p n with
  | none => ((0, false), s)
  | some g =>
    let s := match p with | .slice pa key => s.readLines pa key n true asid | _ => s
    if g.psn then ((g.val, true), match p with | .slice pa key => s.markLine pa key asid gang rank cls | _ => s)
    else match f g.val with
      | none => ((g.val, false), s)
      | some v => ((g.val, false), s.putPlace p n v psn asid gang rank cls)

/-- Log of an uncorrectable error in a scratchpad (R418, kind 1). A scratchpad granule has no physical address: dword 1 is left open (DESIGN CHOICE, log 8). -/
def State.logPad (s : State) (asid : Nat) : State :=
  let (v, s) := s.choose (2 ^ 57)
  s.logErr asid 0 4 1 v

/-- The granule of a place poisoned where it stands, and the error logged (R411, R419). -/
def State.spoil (s : State) (p : Place) (asid gang rank cls : Nat) : State :=
  match p with
  | .slice pa key => (s.writeLine (pa / 64) key 0 0 true false asid none gang rank cls).logErr asid key 1 1 (s.podPa (pa / 64 * 64))
  | .local_ off => (s.modCore (fun k => { k with padPsn := addTo k.padPsn (off / 64) })).logPad asid
  | .peer _ _ c off => (s.modCoreAt c (fun k => { k with padPsn := addTo k.padPsn (off / 64) })).logPad asid
  | _ => s

/-- An AMO at its owner (R419): where the line buffer fails between its read and its write, nothing is written and the line is poisoned. -/
def State.amoApply (s : State) (p : Place) (n : Nat) (f : Nat → Option Nat) (asid gang rank cls : Nat) : (Nat × Bool) × State :=
  match s.errors.contains .lineBuffer, s.look p n with
  | true, some g =>
    if g.psn then s.atomicAt p n f false asid gang rank cls
    else ((g.val, true), { s with errors := s.errors.erase .lineBuffer }.spoil p asid gang rank cls)
  | _, _ => s.atomicAt p n f false asid gang rank cls

end Sys2Proof.Machine
end

