-- ==== Sys2Proof/Machine/Context.lean ====
section
/-!
DEFINITION. Context images, suspension, resumption and waking (R39–R46, R48, R77, R81).
-/
namespace Sys2Proof.Machine

/-- A strand of a gang that has been parked: an exited or stopped one keeps its state while its gang is away (R33, R49). -/
def Strand.away (t : Strand) : Bool := t.status == .parked || t.held != .none
/-- It will not run again (R33). -/
def Strand.ended (t : Strand) : Bool := t.status == .exited || t.status == .stopped

/-- The live part of a strand's image (R43). -/
def Strand.liveBytes (t : Strand) : Nat :=
  let w := 2 ^ kSew t.kvtype
  let n := fun lo cnt => popCountBits (t.live.toNat / 2 ^ lo) cnt
  512 + n 32 8 * roundUp (ceilDiv t.vl 8) 64 + n 0 32 * roundUp (t.vl * w) 256 + n 40 8 * 8192
where
  popCountBits : Nat → Nat → Nat
    | _, 0 => 0
    | x, k + 1 => x % 2 + popCountBits (x / 2) k

/-- Vector registers in the live set. -/
def Strand.liveVecs (t : Strand) : Nat := Strand.liveBytes.popCountBits t.live.toNat 32

/-- The image of every register (R48, R46's note). -/
def Strand.fullBytes (t : Strand) : Nat := 70144 + 8192 * 2 ^ t.grant
/-- The image that a strand has: its live set's after a suspension (R43), every register's after rotation (R48), none where it will not run again. -/
def Strand.imageBytes (t : Strand) : Nat := if t.ended then 0 else if t.zeroing then t.liveBytes else t.fullBytes

/-- Larder slots in use on a core (R44). -/
def Core.larderUsed (k : Core) : Nat := (k.st :: k.rest).countP (fun t => t.image.larder)

/-- Strands that hold a place on a core (R29). -/
def Core.residents (k : Core) : List Strand := (k.st :: k.rest).filter (fun t => t.status != .none && !t.away)

/-- Strands that hold an extent in a core's cellar area, parked ones too (R45, R342). -/
def Core.housed (k : Core) : List Strand := (k.st :: k.rest).filter (fun t => t.status != .none)

/-- The KiB of a core's cellar area that are free, by number: extent e lies in KiB e / 2 (R45, R293). (DEDUCED, log 23) -/
def State.freeKiB (s : State) (k : Core) : List Nat :=
  (List.range s.cellarKiB).filter (fun i => !k.housed.any (fun t => t.extent / 2 == i || t.image.kib.contains i))

/-- The extents of a core's cellar area that are free, lowest first (R45). (DEDUCED, log 23) -/
def State.freeExtents (s : State) (k : Core) : List Nat :=
  (List.range (2 * s.cellarKiB)).filter (fun e => !k.housed.any (fun t => t.extent == e || t.image.kib.contains (e / 2)))

/-- Bytes of a core's cellar area that are not taken (R30, R45). -/
def State.cellarLeft (s : State) (k : Core) : Nat := s.cellarKiB * 1024 - k.housed.foldl (fun n t => n + 512 + 1024 * t.image.kib.length) 0

/-- The base of the cellar (R271), and the address of an offset in a core's area (R293). -/
def cellarBase : Nat := 0xF00000000000
def State.cellarAddr (s : State) (core off : Nat) : Nat := cellarBase + core * s.cellarKiB * 1024 + off
/-- The line of a cellar address in its owning slice (R293): slice, set and reserved way, from the slice-local offset measured from the cellar base. -/
def cellarLine (pa : Nat) : Nat × Nat × Nat :=
  let lc := sliceLocal (pa - cellarBase)
  (sliceOf pa, lc / 64 % 512, lc / 32768)

/-- The bytes of a live part of an image, and where the part begins (R43): register v of the vectors is part v, mask m part 32 + m, accumulator a part 40 + a. A rotated strand's image has every register at VLMAX (R48). -/
def Strand.partSize (t : Strand) (i : Nat) : Nat :=
  if 40 ≤ i then 8192
  else if 32 ≤ i then (if t.zeroing then roundUp (ceilDiv t.vl 8) 64 else 512)
  else if t.zeroing then roundUp (t.vl * 2 ^ kSew t.kvtype) 256 else 256 * 2 ^ t.grant
def Strand.partAt (t : Strand) (i : Nat) : Nat :=
  let before := (List.range 8).map (· + 32) ++ List.range 32 ++ (List.range 8).map (· + 40)
  512 + ((before.takeWhile (· != i)).filter (fun j => t.live.getLsbD j)).foldl (fun n j => n + t.partSize j) 0

/-- The 64-byte granule of a core's cellar area at which byte off of a strand's image lies, where it lies there: the larder first, then the extent, then the KiB in their order (R44, R45, R415). (DEDUCED, log 23) -/
def State.imageAddr (s : State) (core : Nat) (t : Strand) (off : Nat) : Option Nat :=
  let o := off - (if t.image.larder then 2048 else 0)
  if t.image.larder && off < 2048 then none
  else if o < t.image.ext then some (s.cellarAddr core (512 * t.extent + o) / 64 * 64)
  else (t.image.kib[(o - t.image.ext) / 1024]?).map (fun i => s.cellarAddr core (1024 * i + (o - t.image.ext) % 1024) / 64 * 64)

/-- Z of R333: a strand's part of its gang's save area. -/
def saveBytes (grp spad : Nat) : Nat := roundUp (70144 + 8192 * 2 ^ grp + spad + spad / 32) 4096
def Task.partBytes (t : Task) : Nat := saveBytes t.grp t.spad

/-- A run of translated bytes: device physical address, key slot, length. -/
abbrev Run := Nat × Nat × Nat

/-- What a translation outside a strand finds: it, nothing, or a table line whose reads are held (R296). -/
inductive Cp (α : Type) where
  | ok (a : α) | bad | held
  deriving DecidableEq, Repr
def Cp.bind {α β : Type} (c : Cp α) (f : α → Cp β) : Cp β := match c with | .ok a => f a | .bad => .bad | .held => .held

/-- The command processor, or the device itself, translates one page of an address space (R327, R330, R342): global or capacity memory of this device, with the permissions asked for; a walk that meets poison finds nothing (R413). (DEDUCED, log 63) -/
def State.cpPage (s : State) (asid pt va : Nat) (r w : Bool) : Cp (Xlat × Nat × Nat) :=
  if 2 ^ 55 ≤ va || bits va 54 53 == 3 then .bad
  else match s.findShared asid pt va with
  | .error .held => .held
  | .error _ => .bad
  | .ok x =>
    if x.dev != 0 || (r && !x.r) || (w && !x.w) then .bad
    else match s.placeOf x va with
    | some (.slice pa key) => .ok (x, pa, key)
    | _ => .bad

/-- A range as runs, page by page. The first argument bounds the pages. -/
def State.cpRuns (s : State) (asid pt : Nat) (r w : Bool) : Nat → Nat → Nat → Cp (List Run)
  | 0, _, n => if n = 0 then .ok [] else .bad
  | f + 1, va, n =>
    if n = 0 then .ok []
    else match s.cpPage asid pt va r w with
    | .bad => .bad
    | .held => .held
    | .ok (x, pa, key) =>
      let size := if x.big then 2 ^ 29 else 2 ^ 16
      let m := min n (size - va % size)
      (s.cpRuns asid pt r w f (va + m) (n - m)).bind (fun l => .ok ((pa, key, m) :: l))
def State.cpRange (s : State) (asid pt va n : Nat) (r w : Bool) : Cp (List Run) := s.cpRuns asid pt r w (n / 65536 + 2) va n

/-- The pages of a range, to the first that does not translate. The first argument bounds them. -/
def State.cpPages (s : State) (asid pt : Nat) : Nat → Nat → Nat → List Nat
  | 0, _, _ => []
  | f + 1, va, n =>
    if n = 0 then []
    else va :: (match s.findShared asid pt va with
    | .error _ => []
    | .ok x =>
      let size := if x.big then 2 ^ 29 else 2 ^ 16
      let m := min n (size - va % size)
      s.cpPages asid pt f (va + m) (n - m))

/-- What such a translation leaves in the hub's translation cache, and its walk in L2, page by page (R276, R279). -/
def State.cpNote (s : State) (asid pt va n : Nat) : State :=
  (s.cpPages asid pt (n / 65536 + 2) va n).foldl (fun s v => s.useShared asid pt v) s

/-- n bytes of a list of runs from byte off on; none where it has not so many. -/
def cutRuns : List Run → Nat → Nat → Option (List Run)
  | [], _, n => if n = 0 then some [] else none
  | (pa, key, m) :: r, off, n =>
    if n = 0 then some []
    else if m ≤ off then cutRuns r (off - m) n
    else (cutRuns r 0 (n - min n (m - off))).map (fun l => (pa + off, key, min n (m - off)) :: l)

/-- The runs of the first n bytes of a strand's part of its gang's save area, in the frames that SAVE translated to when its packet started (R330, R333); none where they do not cover it (R441). (DESIGN CHOICE, log 51) -/
def State.saveRuns (s : State) (t : Strand) (n : Nat) : Option (List Run) :=
  match s.gang? t.gang with
  | some g => if roundUp g.task.partBytes 1024 < n then none else cutRuns g.task.saveAt (t.rank * g.task.partBytes) n
  | none => none

/-- The part of a context that goes to the save area is written there; its bytes are the device's own (R43). (DESIGN CHOICE, log 51) -/
def State.spill (s : State) (t : Strand) (kib : Nat) : State :=
  match s.saveRuns t (1024 * kib), s.gang? t.gang with
  | some rs, some g => rs.foldl (fun s r =>
      { s.writePa r.1 r.2.1 r.2.2 (Config.imageBytes s.freeCtr) 0 true g.task.asid none 0 0 0 with freeCtr := s.freeCtr + 1 }) s
  | _, _ => s

/-- Where n bytes beyond a strand's larder slot and extent find room (R45): free KiB of the cellar area, then the strand's part of the save area. -/
def State.roomFor (s : State) (k : Core) (t : Strand) (n : Nat) : Option (List Nat × Nat) :=
  let kib := (s.freeKiB k).take (ceilDiv n 1024)
  let left := n - 1024 * kib.length
  if left = 0 then some (kib, 0)
  else if (s.saveRuns t (1024 * ceilDiv left 1024)).isSome then some (kib, ceilDiv left 1024)
  else none

/-- Where an image of n bytes finds room (R44, R45), none when it finds none: the larder slot takes 2,048 bytes where one is free, the extent the next 512. -/
def State.findRoom (s : State) (k : Core) (t : Strand) (n : Nat) : Option Image :=
  let larder := decide (k.larderUsed < Config.larderSlots)
  let rest := n - (if larder then 2048 else 0)
  (s.roomFor k t (rest - 512)).map (fun r => ⟨n, larder, min rest 512, r.1, r.2, none⟩)

/-- Cycles to save or restore an image (R46). (DEDUCED, log 23) (DESIGN CHOICE, log 106) -/
def Image.cycles (i : Image) (vecs : Nat) : Nat :=
  let rest := i.bytes - (if i.larder then 2048 else 0)
  let cel := min rest (i.ext + i.kib.length * 1024)
  12 + vecs + 8 * ceilDiv cel 1024 + 16 * ceilDiv (rest - cel) 1024

/-- A vector image with every byte from offset n on zero, and its poison. -/
def keepBytes (im : VImg) (n : Nat) : VImg := BitVec.ofNat 32768 (im.toNat % 2 ^ (8 * n))
def keepSlots (p : SlotPsn) (n : Nat) : SlotPsn := BitVec.ofNat 512 (p.toNat % 2 ^ ceilDiv n 8)

/-- What a resumption leaves (R41, R77, R81): registers outside the live set and tails of live ones zero, the trap registers zero, the watch pass dropped; an error in a register that is kept stays (R412). -/
def Strand.zeroDead (t : Strand) : Strand :=
  let w := 2 ^ kSew t.kvtype
  let live := fun k => t.live.getLsbD k
  { t with
    v := t.v.mapIdx (fun i im => if live i then keepBytes im (t.vl * w) else 0)
    vpsn := t.vpsn.mapIdx (fun i p => if live i then keepSlots p (t.vl * w) else 0)
    masks := t.masks.mapIdx (fun i m => if live (32 + i) then BitVec.ofNat 4096 (m.toNat % 2 ^ t.vl) else 0)
    acc := t.acc.mapIdx (fun i a => if live (40 + i) then a else 0)
    accPsn := t.accPsn.mapIdx (fun i a => if live (40 + i) then a else 0)
    badMasks := t.badMasks &&& t.live.extractLsb' 32 8
    badK := (t.mendK [0x010, 0x011, 0x012, 0x013, 0x100, 0x101, 0x102, 0x103, 0x104, 0x106]).badK
    user := TrapRegs.zero
    super := TrapRegs.zero
    kstatus := 0
    kscratch := 0
    watchPass := false
    resFirst := none
    resG := 0
    resN := 0
    zeroing := false
    inPlace := false
    wait := .none }

/-- The issue slot's strand leaves it with an image that is being saved (R46, R48). -/
def State.leaveSlot (s : State) (im : Image) (vecs : Nat) (f : Strand → Strand) : State :=
  (s.spill s.core.st im.saveKiB).modCore (fun k => { k with
    rest := k.rest ++ [{ f k.st with image := im, saving := true, answers := [], asked := false, code := none, codeAsked := none }]
    st := Strand.empty
    phase := .saving (s.now + im.cycles vecs)
    freeFrom := s.now })

/-- SUSPENSION (R39 step 3, R40, R45): the strand in the slot waits, or is Runnable at once when it waits for nothing; it stays in place where its image finds no room. `pc` is the pc it resumes at, `wpc` the waiting instruction's. -/
def State.suspend (s : State) (w : Wait) (live : Word) (pc wpc : Pc) : State :=
  let t := { s.core.st with live := live, pc := pc, waitPc := wpc, wait := w, zeroing := true }
  match s.findRoom s.core t t.liveBytes with
  | some im => s.leaveSlot im t.liveVecs (fun _ => if w == .none then t.ready s.now else { t with status := .waiting })
  | none =>
    if w == .none then s.modSt (fun _ => { t.zeroDead with code := none })
    else s.modSt (fun _ => { t with inPlace := true, code := none })

/-- A wait ends for a strand (R33, R39, R45, R50): at once in place; after re-placement; when its save is finished; else it is Runnable now. One that waited in place when its gang was parked goes on from there. -/
def Strand.woken (t : Strand) (now : Nat) : Strand :=
  if t.inPlace then (if t.status == .running then t.zeroDead else { t with wait := .none, inPlace := false })
  else if t.away then { t with wait := .none, held := if t.held == .waiting then .runnable else t.held }
  else if t.saving then { t with wait := .none }
  else t.ready now

/-- Wake the strands of a core that wait for something. -/
def Core.wakeIf (k : Core) (now : Nat) (p : Strand → Bool) : Core :=
  let f := fun (t : Strand) => if t.wait != .none && p t then t.woken now else t
  { k with st := f k.st, rest := k.rest.map f }
def State.wakeIf (s : State) (c : Nat) (p : Strand → Bool) : State := s.modCoreAt c (fun k => k.wakeIf s.now p)

end Sys2Proof.Machine
end

