-- ==== Sys2Proof/Machine/Transfer.lean ====
section
/-!
DEFINITION. Engine transfers (R205, R231, R431): deferred causes (R429), answers to parts of a transfer, completion, and what a transfer sends to tokens, tiles and other devices (R36, R360, R361).
-/
namespace Sys2Proof.Machine

/-- A handle's fields (R34). -/
def hDev (h : BitVec 32) : Nat := (h >>> 23).toNat % 512
def hSlot (h : BitVec 32) : Nat := (h >>> 6).toNat % 256
/-- A value that is a handle (R221). -/
def isHandle (h : BitVec 32) : Bool := h.toNat % 64 == 0 && decide (hCore h < 288)

/-- The handle of an entry (R34). -/
def handleOf (dev core slot : Nat) : BitVec 32 := BitVec.ofNat 32 (dev * 2 ^ 23 + core * 2 ^ 14 + slot * 2 ^ 6)

/-- A token-table entry (R35): none where it is free. -/
def Core.token? (k : Core) (slot : Nat) : Option Token := k.tokens.find? (fun t => t.slot == slot)
def Core.modToken (k : Core) (slot : Nat) (f : Token → Token) : Core := { k with tokens := mapIf (fun t => t.slot == slot) f k.tokens }

/-- An entry with count 0 and pending 0 (R35). -/
def Token.fresh (slot gang : Nat) : Token := ⟨slot, gang, 0, 0, false, none, 0, none, false, false⟩

/-- An increment at its token (R36, R361, R483): from another device it raises REMOTE as well. A free entry, or one an error has struck, discards it. -/
def Token.incr (t : Token) (source : Option Nat) : Token :=
  if t.bad then t
  else match source with
  | none => { t with pend := t.pend + 1 }
  | some d => { t with
      pend := t.pend + 1
      remote := t.remote + 1
      source := if t.multi then none else if t.source == none || t.source == some d then some d else none
      multi := t.multi || (t.source != none && t.source != some d) }

/-- A message to a token: an increment on this device at once, else to its table, to another device as SIGNAL or INCREMENT (R36, R361); to a fenced device it is discarded (R433, R454). `asid` is the issuer's address space (R359). -/
def State.toToken (s : State) (m : TokMsg) (asid : Nat) : State :=
  let dev := hDev m.handle
  if dev == s.kdev then
    if m.kind == 0 then s.modCoreAt (hCore m.handle) (fun k => k.modToken (hSlot m.handle) (fun t => t.incr none))
    else { s with tokMsgs := s.tokMsgs ++ [{ m with seq := s.stamp }] }
  else if s.fenced dev then s
  else
    let p := s.packet (if m.kind = 0 then 0x11 else 0x10) dev 0 asid 2
      (BitVec.ofNat 64 (m.handle.toNat + (if m.kind = 0 then 0 else m.amount * 2 ^ 32))) 0 0
    { s with txq := s.txq ++ [{ p with dec := m.kind == 1, xfer := m.xfer }] }

/-- A response sent: over the fabric, or straight to this device when it asked itself through a multicast (R361, R362). -/
def State.reply (s : State) (p : Packet) : State :=
  if p.dst == s.kdev then { s with rx := s.rx ++ [p] }
  else if s.fenced p.dst then s
  else { s with txq := s.txq ++ [p] }

/-- A deferred cause is held once for each code: the KEVAL of the first, a count of the later ones (R429). -/
def Strand.defer (t : Strand) (cause : BitVec 8) (eval : Word) : Strand :=
  if t.status == .exited || t.status == .stopped then t
  else if t.deferred.any (fun d => d.cause == cause) then
    { t with deferred := mapIf (fun d => d.cause == cause) (fun d => { d with count := d.count + 1 }) t.deferred }
  else { t with deferred := t.deferred ++ [⟨cause, eval, 1⟩] }

/-- A transfer by its number. -/
def State.xfer? (s : State) (id : Nat) : Option Xfer := s.xfers.find? (fun x => x.id == id)
def State.modXfer (s : State) (id : Nat) (f : Xfer → Xfer) : State := { s with xfers := mapIf (fun x => x.id == id) f s.xfers }

/-- The core of a strand, or one more than the last where the strand is gone. -/
def State.coreOf (s : State) (gang rank : Nat) : Nat := match s.strand? gang rank with | some (c, _) => c | none => Config.cores

/-- Bytes landed as a prefix in landing order (R231, R395, R431): tile by tile, as far as each one before has landed whole. -/
def prefixBytes (l : List (Nat × Nat × Bool)) : Nat → Nat → Nat
  | 0, _ => 0
  | n + 1, p =>
    let here := l.filter (fun x => x.1 == p)
    here.foldl (fun b x => b + x.2.1) 0 + (if here.any (·.2.2) then prefixBytes l n (p + 1) else 0)

/-- An arrival without one transfer that it served: none where it served no other (R235). -/
def Arrival.without (id : Nat) (a : Arrival) : Option Arrival :=
  if a.fromDev != 0 then some a
  else if a.xfer != id then some { a with also := a.also.filter (· != id) }
  else match a.also with
  | x :: r => some { a with xfer := x, also := r }
  | [] => none

/-- A fill or contribution of the strand in the slot, not yet directed. (DEDUCED, log 35) -/
def newArrival (combine : Bool) (id slot mask data psn : Nat) (peer : Word) : Arrival where
  combine := combine
  gang := 0
  rank := 0
  off := 0
  mask := BitVec.ofNat 256 mask
  data := BitVec.ofNat 2048 data
  psn := BitVec.ofNat 4 psn
  last := true
  slot := slot
  absent := false
  xfer := id
  toDev := 0
  peer := peer
  va := peer
  also := []
  fromDev := 0
  fromTag := 0
  tries := 0
  due := 0
  asid := 0
  rest := []
  unit := 0
  seq := 0

/-- An arrival sent to a multicast group: its peer address names ranks 0xFE00 and up (R362). (DEDUCED, log 37) -/
def Arrival.isCast (a : Arrival) : Bool := decide (0xFE00 ≤ bits a.peer.toNat 47 32)
/-- The members of a pod multicast group (R364). (DEDUCED, log 45) -/
def State.castMembers (s : State) (g : Nat) : List Nat :=
  match s.casts.find? (fun c => c.1 == g) with
  | some c => (List.range 512).filter (fun n => c.2.getLsbD n)
  | none => []
/-- The group that a multicast arrival goes to. -/
def Arrival.group (a : Arrival) : Nat := bits a.peer.toNat 47 32 - 0xFE00
/-- The message that ends a fill at its tile on another device (R214). (DEDUCED, log 24) -/
def Arrival.ender (a : Arrival) : Arrival := { a with mask := 0, data := 0, psn := 0, last := false, rest := [], xfer := 0, also := [] }
def Arrival.isEnder (a : Arrival) : Bool := !a.combine && a.mask == 0 && !a.last
/-- A fill that has begun at a tile of another device ends there without a last beat: the devices concerned are told, as soon as tags are free (R214). (DEDUCED, log 22) -/
def State.endAt (s : State) (a : Arrival) : State :=
  let devs := if a.isCast then s.castMembers a.group else [a.toDev]
  { s with retries := s.retries ++ devs.map (fun d => { a.ender with toDev := d, due := s.now, tries := 0 }) }
/-- The tile that a filling copy owns between two of its runs (R214, R231): the next run begins inside it. (DEDUCED, log 22) -/
def Xfer.midTile (x : Xfer) : Option Side :=
  match x.filling, x.segs with
  | true, g :: _ => (match g.dst with
    | .farPad _ _ off => if off % 256 = 0 then none else some g.dst
    | .cast _ off => if off % 256 = 0 then none else some g.dst
    | _ => none)
  | _, _ => none
/-- A filling copy that sends nothing more gives up the tile that it owns, here or elsewhere (R214). -/
def State.endOwned (s : State) (x : Xfer) : State :=
  let a := fun (dev rank off peer : Nat) => ({ newArrival false 0 0 0 0 0 (BitVec.ofNat 64 peer) with toDev := dev, rank := rank, off := off / 256 * 256, asid := x.asid } : Arrival)
  let s := { s with fillEnds := s.fillEnds ++ (s.allCores.flatMap (fun k => k.tiles.filterMap (fun t => t.owner))).filter (· == (0, x.id)) }
  match x.midTile with
  | some (.farPad d r off) => s.endAt (a d r off 0)
  | some (.cast g off) => s.endAt (a 0 x.rank off ((0xFE00 + g) * 2 ^ 32))
  | _ => s

/-- Nothing of a transfer is tried again (R432): its fills and contributions of this device are taken back, the fills that own a tile end there (R214), a run that its group waits for is not sent, and what is on its way elsewhere is awaited, but that nothing follows it (R443). -/
def State.cutXfer (s : State) (id : Nat) : State :=
  let cut := fun (l : List Arrival) => l.filterMap (Arrival.without id)
  let s := s.allCores.foldl (fun (s : State) k => s.modCoreAt k.id (fun k => { k with overrun := cut k.overrun })) s
  let away := fun (r : Req) => match r.kind with | .fill a => a.xfer == id | .xfer n _ _ _ => n == id | _ => false
  let casts := s.retries.filter (fun a => a.xfer == id && a.toDev == 0 && a.isCast)
  let s := casts.foldl (fun s a => s.endAt a) { s.modXfer id (fun x => { x with waiting := s.reqs.countP away, segs := [], cut := true }) with
    fills := cut s.fills, combines := cut s.combines, retries := cut s.retries, pieces := s.pieces.filter (fun p => p.xfer != id)
    reqs := mapIf away (fun r => { r with kind := match r.kind with | .fill a => .fill { a with rest := [] } | k => k }) s.reqs }
  match s.xfer? id with
  | some x => s.endOwned x
  | none => s

/-- A part of a transfer has failed with a STATUS of R360, or 3 when its retries have run out (R431, R432, R437, R442). A copy sends nothing more; when the retries of a tile end, so does its transfer. (DEDUCED, log 32) (DEDUCED, log 33) (DEDUCED, log 34) -/
def State.xferFail (s : State) (id status part : Nat) (eval : Word) : State :=
  match s.xfer? id with
  | none => s
  | some x =>
    let s := if x.kind ≤ 1 then s.endOwned x else s
    let s := (s.modXfer id (fun x => { x with
      failed := true, fbits := x.fbits ||| (1#16 <<< part), segs := if x.kind ≤ 1 then [] else x.segs, cut := x.cut || decide (x.kind ≤ 1) })).modStrand x.gang x.rank
      (fun t =>
        let t := if status = 1 then t.note 16 else t
        if status = 3 then t.defer 0x0D eval
        else if status = 1 && decide (x.kind ≤ 2) then t.defer 0x0E (if x.kind = 2 then x.va + BitVec.ofNat 64 x.done else eval)
        else t)
    if status = 3 || (x.kind = 2 && status != 0) then s.cutXfer id else s

/-- The answer to a part of a transfer. -/
def State.xferAnswer (s : State) (id status part len : Nat) (eval : Word) : State :=
  let s := s.modXfer id (fun x => { x with waiting := x.waiting - 1, done := if status = 0 then x.done + len else x.done })
  if status = 0 then s else s.xferFail id status part eval

/-- Bytes of a TSTF or CPYG have landed (R213, R235): `last` ends the tile, `answered` a part that was waited for. -/
def State.tileLanded (s : State) (id tile len : Nat) (last answered : Bool) : State :=
  s.modXfer id (fun x =>
    let l := x.landed ++ [(tile, len, last)]
    { x with waiting := if answered then x.waiting - 1 else x.waiting, landed := l, done := prefixBytes l (x.total / 256 + 1) x.base })

/-- Bytes that an arrival brings. -/
def Arrival.bytes (a : Arrival) : Nat := if a.combine then 256 else (List.range 256).countP (fun i => a.mask.getLsbD i)

/-- Locks of a transfer taken away: its source entries, or all (R233). -/
def State.unlock (s : State) (x : Xfer) (all : Bool) : State :=
  match s.strand? x.gang x.rank with
  | none => s
  | some (c, _) => s.modCoreAt c (fun k => { k with locks := k.locks.filter (fun l => l.xfer != x.id || (!all && l.dest)) })

/-- A transfer's contribution to its token (R36, R231, R235, R431). -/
def Xfer.amount (x : Xfer) : Nat := if x.kind = 2 then (if x.failed then 0 else 1) else min x.done 0xFFFFFFFF

/-- Fault-mask bits that a transfer writes when it completes (R213, R216, R231): of a TSTF that was cut, every tile that has not landed has failed. -/
def Xfer.bits (x : Xfer) : List (Nat × Bool) :=
  if x.kind = 3 then (List.range (x.total / 256)).map (fun t => (t, x.fbits.getLsbD t || (x.cut && !x.landed.any (fun l => l.1 == t && l.2.2))))
  else if x.kind = 4 || x.hasPeer then [(0, x.failed)]
  else []

/-- A transfer completes (R231, R205): its locks retire, a destination's when its token has received the completion (R233); its fault mask is written, its token gets its completion; a COPY packet is finished (R334). -/
def State.xferFinish (s : State) (x : Xfer) : State :=
  let s := (s.unlock x x.handle.isNone).modStrand x.gang x.rank (fun t => t.putM (BitVec.ofNat 3 x.mf) x.bits)
  let s := { s with
    xfers := s.xfers.filter (fun y => y.id != x.id)
    pkts := mapIf (fun p => x.kind = 5 && p.id == x.packet) (fun p => { p with phase := 2 }) s.pkts }
  match x.handle with
  | none => s
  | some h => s.toToken ⟨1, h, x.amount, x.late, none, true, s.coreOf x.gang x.rank, 0, some x.id⟩ x.asid

/-- A FILL's target dword: peer target, PSN by payload granule, LAST (R359, R360). -/
def fillWord (rank off psn last : Nat) : Word := BitVec.ofNat 64 (2 ^ 63 + rank * 2 ^ 19 + off + psn * 2 ^ 48 + last * 2 ^ 52)
/-- A COMBINE's target dword (R360). -/
def combineWord (rank off slot absent psn : Nat) : Word := BitVec.ofNat 64 (2 ^ 63 + rank * 2 ^ 19 + off + slot * 2 ^ 35 + absent * 2 ^ 39 + psn * 2 ^ 48)

/-- The first byte and the length of the run of bytes that an arrival for another device covers. -/
def Arrival.run (a : Arrival) : Nat × Nat :=
  ((((List.range 256).find? (fun i => a.mask.getLsbD i)).getD 0), a.bytes)

/-- The packet that carries an arrival (R360). -/
def State.arrivalPacket (s : State) (a : Arrival) (asid : Nat) : Packet :=
  if a.combine then
    s.packet 0x13 a.toDev (if a.absent then 0 else 256) asid 2 (combineWord a.rank a.off a.slot (b2n a.absent) a.psn.toNat)
      (if a.absent then 0 else a.data.toNat) 0
  else
    let r := a.run
    s.packet 0x12 a.toDev r.2 asid 0 (fillWord a.rank (a.off + r.1) (a.psn.toNat / 2 ^ (r.1 / 64)) (b2n a.last)) (a.data.toNat / 256 ^ r.1 % 256 ^ r.2) 0

/-- An arrival set on its way: to a tile of this device, or to another device (R214, R216, R361). -/
def State.sendArrival (s : State) (a : Arrival) (asid gang rank : Nat) : State :=
  let a := { a with asid := asid }
  if a.toDev != 0 then s.sendReq (s.arrivalPacket a asid) gang rank (.fill a)
  else if a.combine then { s with combines := s.combines ++ [{ a with seq := s.stamp }] }
  else { s with fills := s.fills ++ [{ a with seq := s.stamp }] }

/-- Numbers under which the link state of a group's flits is kept (R356; log 27): as sent, as each member has acknowledged them, and as received from a device. -/
def castPair (g : Nat) : Nat := 512 * 513 + g
def castAck (g m : Nat) : Nat := 512 * 514 + 512 * g + m
def castFrom (g src : Nat) : Nat := 512 * (g + 1) + src
/-- Such a number is of a device's flits or acknowledgements. -/
def castWith (dev n : Nat) : Bool := decide (512 ≤ dev) && dev % 512 == n && dev / 512 != 513
/-- A request tag that is free towards every member. -/
def State.castTag (s : State) (ms : List Nat) : Option Nat :=
  (List.range 4096).find? (fun t => !s.reqs.any (fun r => r.tag == t && ms.contains r.dst))

/-- Another fill of this device is on its way to a tile of another device, or has begun there and is not done: the tile's owner there is known by its device alone, so this device sends one fill to it at a time (R214, R219). (DEDUCED, log 22) -/
def State.fillUnder (s : State) (dev rank off id : Nat) : Bool :=
  let goes := fun (d : Nat) (a : Arrival) => d == dev || (d == 0 && a.isCast && (s.castMembers a.group).contains dev)
  let at_ := fun (a : Arrival) => !a.combine && goes a.toDev a && a.rank == rank && a.off / 256 == off / 256 && a.xfer != id
  let owns := fun (x : Xfer) => x.id != id && (match x.midTile with
    | some (.farPad d r o) => d == dev && r == rank && o / 256 == off / 256
    | some (.cast g o) => (s.castMembers g).contains dev && x.rank == rank && o / 256 == off / 256
    | _ => false)
  s.xfers.any owns || s.retries.any at_ || s.reqs.any (fun r => match r.kind with | .fill a => at_ a | _ => false)

/-- A fill sent once to a pod multicast group (R362): every member answers; a fenced member has failed already. None while no tag is free. (DEDUCED, log 45) -/
def State.sendCast (s : State) (g : Nat) (a : Arrival) (asid gang rank : Nat) : Option State :=
  let ms := s.castMembers g
  if ms.any (fun m => s.fillUnder m rank a.off a.xfer) then none
  else match s.castTag ms with
  | none => none
  | some t =>
    let live := ms.filter (fun m => m == s.kdev || !s.fenced m)
    let p := { s.arrivalPacket { a with rank := rank } asid with mc := true, vc := 3, dst := g, tag := t }
    let s := { s with
      txq := s.txq ++ [p]
      reqs := s.reqs ++ live.map (fun m => (⟨t, m, gang, rank, .fill { a with rank := rank, toDev := m, asid := asid }, g + 1⟩ : Req)) }
    let s := s.modXfer a.xfer (fun x => { x with waiting := x.waiting + live.length })
    some (if live.length < ms.length then s.xferFail a.xfer 1 a.slot a.va else s)

/-- A copy, TSTF or TCMB finds an entry free at its core's front end (R231): `locks` entries are wanted in the range interlock table. -/
def State.engineRoom (s : State) (locks : Nat) : Bool :=
  let mine := s.xfers.countP (fun x => match s.strand? x.gang x.rank with | some (c, _) => c == s.core.id | none => false)
  decide (mine < Config.copiesMax) && decide (s.core.locks.countP s.standing + locks ≤ Config.lockEntries)

/-- A local range entered in the range interlock table (R233). -/
def State.lockRange (s : State) (id lo hi : Nat) (dest : Bool) : State :=
  if hi ≤ lo then s
  else s.modCore (fun k => { k with locks := k.locks.filter s.standing ++ [⟨id, s.core.st.gang, s.core.st.rank, lo, hi, dest⟩] })

/-- pending of a token of this device has reached its limit (R36). -/
def State.tokenFull (s : State) (h : BitVec 32) : Bool :=
  hDev h == s.kdev && (match (s.coreAt (hCore h)).token? (hSlot h) with
    | some t => decide (0xFFFF ≤ t.pend)
    | none => false)

end Sys2Proof.Machine
end

