-- ==== Sys2Proof/Machine/Tiles.lean ====
section
/-!
DEFINITION. The tile tag unit (R209–R219): tags, fills and their admission, contributions and combines, tile arrivals.
-/
namespace Sys2Proof.Machine

/-- An untouched tile: empty, unarmed, unbound (R31). -/
def Tile.fresh (idx : Nat) : Tile := ⟨idx, false, false, none, 0, 0, 0, 0, [], none⟩
/-- A tile of a core by its scratchpad tile number. -/
def Core.tile (k : Core) (idx : Nat) : Tile := (k.tiles.find? (fun t => t.idx == idx)).getD (Tile.fresh idx)
/-- Put a tile back; an untouched one needs no record. -/
def Core.putTile (k : Core) (t : Tile) : Core :=
  if t == Tile.fresh t.idx then { k with tiles := k.tiles.filter (fun x => x.idx != t.idx) }
  else { k with tiles := upsert (fun x => x.idx == t.idx) t k.tiles }
def Core.modTile (k : Core) (idx : Nat) (f : Tile → Tile) : Core := k.putTile (f (k.tile idx))

/-- The poison bits of a tile's granules (R209, PSN). -/
def Core.tilePsn (k : Core) (idx : Nat) : Nat := (List.range 4).foldl (fun m g => if k.padPsn.contains (4 * idx + g) then m + 2 ^ g else m) 0

/-- A tile's 256 bytes written under a byte mask, with the poison of its granules (R79). -/
def Core.tileWrite (k : Core) (idx mask data : Nat) (psn : Nat) : Core :=
  (List.range 4).foldl (fun k g =>
    let m := mask / 2 ^ (64 * g) % 2 ^ 64
    if m = 0 then k else k.padGran (4 * idx + g) m (data / 2 ^ (512 * g) % 2 ^ 512) (bit psn g)) k

/-- Fills and contributions that wait for a tile (R209, PEND), by its gang, rank and offset. -/
def Arrival.tileOf (base : Nat) (a : Arrival) : Nat := (base + a.off) / 256

/-- The scratchpad tile that an arrival is for, on the core of its target. -/
def State.arrTile (s : State) (a : Arrival) : Option (Nat × Nat) :=
  (s.strand? a.gang a.rank).map (fun (c, t) => (c, (t.allotBase + a.off) / 256))

/-- A tile arrival: a signal of contribution 1 to the bound token (R210), from core c, in the address space of the tile's gang. -/
def State.tileArrival (s : State) (c : Nat) (t : Tile) : State :=
  match t.bound with
  | some h =>
    let holder := ((s.coreAt c).residents.find? (fun x => decide (x.allotBase ≤ 256 * t.idx) && decide (256 * t.idx < x.allotBase + x.allotSize))).bind (fun x => s.gang? x.gang)
    s.toToken ⟨2, h, 1, false, none, false, c, 0, none⟩ ((holder.map (·.kasid)).getD 0)
  | none => s

/-- The strands that wait for a tile of core c become Runnable (R39, R210). -/
def State.wakeTile (s : State) (c idx : Nat) : State := s.wakeIf c (fun t => t.wait == .tile idx && !t.away)

/-- A tile has become full by a last beat or a combine: waiters wake, the bound token is signalled (R210). -/
def State.becameFull (s : State) (c idx : Nat) : State := (s.wakeTile c idx).tileArrival c ((s.coreAt c).tile idx)

/-- A fill's answer to one of its transfers (R213, R231): the bytes of a multicast fill count once, with its last member's answer, where none has failed. (DEDUCED, log 37) -/
def State.fillAnswer (s : State) (a : Arrival) (status x : Nat) : State :=
  let others := a.isCast && (s.retries.any (fun b => b.xfer == x && b.slot == a.slot)
    || s.reqs.any (fun r => match r.kind with | .fill b => b.xfer == x && b.slot == a.slot | _ => false))
  match s.xfer? x with
  | none => s
  | some y =>
    let eval := if status = 3 then a.peer else a.va
    if a.combine then s.xferAnswer x status 0 256 eval
    else if status != 0 then s.xferAnswer x status a.slot 0 eval
    else if y.kind ≤ 1 then s.xferAnswer x 0 0 (if others || (a.isCast && y.failed) then 0 else a.bytes) eval
    else if others then s.modXfer x (fun y => { y with waiting := y.waiting - 1 })
    else s.tileLanded x (if y.kind = 2 then a.off / 256 else a.slot) (if a.isCast && y.failed then 0 else a.bytes) a.last (a.rest.isEmpty || a.isCast)

/-- A run of this multicast fill is on its way to some member, or waits to be sent. -/
def State.castOut (s : State) (a : Arrival) : Bool :=
  s.retries.any (fun b => b.xfer == a.xfer && b.slot == a.slot && b.isCast)
    || s.reqs.any (fun q => match q.kind with | .fill c => c.xfer == a.xfer && c.slot == a.slot | _ => false)

/-- The next run of a fill whose last run has landed (R213, R214): to its one target, or to its multicast group when every member has taken it. Where the group cannot be sent to yet, it waits with what is tried again. -/
def State.nextRun (s : State) (a : Arrival) : State :=
  match a.rest, s.xfer? a.xfer with
  | r :: rs, some x =>
    let b := { a with mask := BitVec.ofNat 256 ((2 ^ r.2 - 1) * 2 ^ r.1), rest := rs, last := rs.isEmpty, tries := 0, due := 0 }
    if !a.isCast then s.sendArrival b x.asid x.gang x.rank
    else if s.castOut a then s
    else match s.sendCast a.group b x.asid x.gang x.rank with
      | some t => t
      | none => { s.modXfer a.xfer (fun x => { x with waiting := x.waiting + 1 }) with retries := s.retries ++ [{ b with toDev := 0, due := s.now, asid := x.asid }] }
  | _, _ => s

/-- A fill that has begun at a tile of another device, and whose transfer sends nothing more, ends there (R214, R431, R443). -/
def State.endRun (s : State) (a : Arrival) : State :=
  let goes := match s.xfer? a.xfer with | some x => !x.cut | none => false
  if a.toDev = 0 || a.combine || a.last || a.isEnder || goes || (a.isCast && s.castOut a) then s else s.endAt a

/-- A response to the sender of a fill or contribution: to this device's transfer, or DONE to another device (R361). -/
def State.arrivalDone (s : State) (a : Arrival) (status : Nat) : State :=
  if a.fromDev != 0 then
    let p := s.packet 0x05 a.fromDev 0 0 1 (BitVec.ofNat 64 (status * 16)) 0 0
    s.reply { p with tag := a.fromTag }
  else
    let s := (a.xfer :: a.also).foldl (fun s x => s.fillAnswer a status x) s
    (if status = 0 || a.isCast then s.nextRun a else s).endRun a

/-- Who owns a tile during a fill: the sending device and the transfer (R214). (DEDUCED, log 22) -/
def Arrival.source (a : Arrival) : Nat × Nat := (a.fromDev, if a.fromDev = 0 then a.xfer else 0)

/-- A fill's write lands (R214): its bytes, and at the last beat FULL, the end of its ownership, and the tile arrival. -/
def State.landFill (s : State) (c idx : Nat) (a : Arrival) : State :=
  let s := s.modCoreAt c (fun k =>
    (k.tileWrite idx a.mask.toNat a.data.toNat a.psn.toNat).modTile idx (fun t =>
      if a.last then { t with full := true, owner := none } else { t with owner := some a.source }))
  (if a.last then s.becameFull c idx else s).arrivalDone a 0

/-- Whether a tile takes a fill now (R214). -/
def Tile.admits (t : Tile) (a : Arrival) : Bool :=
  match t.owner with
  | some o => o == a.source
  | none => !t.full && !t.armed

/-- Whether an arrival in a core's overrun queue waits for a tile. -/
def Core.waitsFor (k : Core) (idx : Nat) (a : Arrival) : Bool :=
  match k.strand? a.gang a.rank with
  | some t => (t.allotBase + a.off) / 256 == idx
  | none => false

/-- PEND (R209). -/
def Core.pend (k : Core) (idx : Nat) : Nat := k.overrun.countP (k.waitsFor idx)

/-- FILL_ADMIT (R210, R214): the oldest waiting fill of a free tile lands, with the later writes of the same fill. -/
def State.letIn (s : State) (c idx : Nat) : Nat → State
  | 0 => s
  | n + 1 =>
    let k := s.coreAt c
    let t := k.tile idx
    match takeNth (fun a => !a.combine && k.waitsFor idx a && t.admits a) k.overrun 0 with
    | none => s
    | some (a, rest) => ((s.modCoreAt c (fun k => { k with overrun := rest })).landFill c idx a).letIn c idx n

/-- Element e of a tile's data at a width in bytes. -/
def tEl (x w e : Nat) : Nat := x / 2 ^ (8 * w * e) % 2 ^ (8 * w)

/-- Two tiles combined element by element (R217). -/
def tileMap (w n : Nat) (f : Nat → Nat → Nat) (x y : Nat) : Nat :=
  (List.range n).foldl (fun r e => r + f (tEl x w e) (tEl y w e) * 2 ^ (8 * w * e)) 0

/-- fp32 operations of the rescaling triple, all RNE (R217). -/
def add32 (x y : Nat) : Nat := (fAdd fp32 0 x y).1
def mul32 (x y : Nat) : Nat := (fMul fp32 0 x y).1
def rescale (m1 m : Nat) : Nat := if m1 = 0xFF800000 then 0 else (fExp2 fp32 0 (fSub fp32 0 m1 m).1).1

/-- The combine of two tiles under an operator (R217). -/
def tileCombine (op x y : Nat) : Nat :=
  match op with
  | 0 => tileMap 4 64 add32 x y
  | 1 => tileMap 4 64 (fun a b => (fMinMax fp32 true a b).1) x y
  | 2 => tileMap 8 32 (fun a b => (fAdd fp64 0 a b).1) x y
  | _ =>
    let m1 := tEl x 4 0
    let m2 := tEl y 4 0
    let m := (fMinMax fp32 true m1 m2).1
    let e1 := rescale m1 m
    let e2 := rescale m2 m
    (List.range 63).foldl (fun r j => r + add32 (mul32 (tEl x 4 (j + 1)) e1) (mul32 (tEl y 4 (j + 1)) e2) * 2 ^ (32 * (j + 1))) m

/-- The identity tile of an operator (R217). -/
def tileIdentity (op : Nat) : Nat :=
  match op with
  | 0 => (List.range 64).foldl (fun r e => r + 0x80000000 * 2 ^ (32 * e)) 0
  | 1 => (List.range 64).foldl (fun r e => r + 0xFF800000 * 2 ^ (32 * e)) 0
  | 2 => (List.range 32).foldl (fun r e => r + 0x8000000000000000 * 2 ^ (64 * e)) 0
  | _ => 0xFF800000

/-- The tree of R98 over tiles. -/
def tileTree (op : Nat) (at_ : Nat → Option Nat) : Nat → Nat → Option Nat
  | 0, b => at_ b
  | l + 1, b =>
    match tileTree op at_ l b, tileTree op at_ l (b + 2 ^ l) with
    | some x, some y => some (tileCombine op x y)
    | some x, none => some x
    | none, y => y

/-- TILE_COMBINE (R217): when CNT reaches 0 the slots combine in their fixed tree, and the tile is full. -/
def State.tileCombineNow (s : State) (c idx : Nat) : State :=
  let t := (s.coreAt c).tile idx
  if !t.armed || t.cnt != 0 then s
  else
    let slot := fun k => (t.slots.find? (fun x => x.k == k)).bind (fun x => if x.absent then none else some x)
    let r := (tileTree t.op (fun k => (slot k).map (·.data.toNat)) 4 0).getD (tileIdentity t.op)
    let p := t.slots.foldl (fun p x => if x.absent then p else p ||| x.psn.toNat) 0
    let p := if t.op = 3 && p % 2 = 1 then 15 else p
    let ab := t.slots.foldl (fun b x => if x.absent then putBit b x.k true else b) t.absent
    let s := s.modCoreAt c (fun k =>
      (k.tileWrite idx (2 ^ 256 - 1) r p).modTile idx (fun t => { t with armed := false, op := 0, cnt := 0, cnt0 := 0, slots := [], absent := ab, full := true }))
    s.becameFull c idx

/-- A contribution reaches a tile (R216): held, refused, or none when it must wait for an arming. -/
def State.contribute (s : State) (c idx : Nat) (a : Arrival) : Option State :=
  let t := (s.coreAt c).tile idx
  if !t.armed then none
  else if t.cnt0 ≤ a.slot || t.slots.any (fun x => x.k == a.slot) then some (s.arrivalDone a 4)
  else
    let s := s.modCoreAt c (fun k => k.modTile idx (fun t => { t with
      slots := t.slots ++ [⟨a.slot, a.absent, a.data, a.psn⟩], cnt := t.cnt - 1 }))
    some ((s.arrivalDone a 0).tileCombineNow c idx)

/-- Contributions that waited for an arming are presented in arrival order (R215). -/
def State.present (s : State) (c idx : Nat) : Nat → State
  | 0 => s
  | n + 1 =>
    let k := s.coreAt c
    if !(k.tile idx).armed then s
    else match takeNth (fun a => a.combine && k.waitsFor idx a) k.overrun 0 with
    | none => s
    | some (a, rest) =>
      let s' := s.modCoreAt c (fun k => { k with overrun := rest })
      match s'.contribute c idx a with
      | some u => u.present c idx n
      | none => s

/-- TSTAT's word (R209). -/
def Core.tagWord (k : Core) (idx : Nat) : Word :=
  let t := k.tile idx
  BitVec.ofNat 64 (k.pend idx * 2 ^ 31 + k.tilePsn idx * 2 ^ 27 + t.absent.toNat * 2 ^ 11 + (if t.armed then t.op else 0) * 2 ^ 8
    + t.cnt * 8 + b2n t.bound.isSome * 4 + b2n t.armed * 2 + b2n t.full)

end Sys2Proof.Machine
end

