-- ==== Sys2Proof/Machine/Control.lean ====
section
/-!
DEFINITION. Reading control space (R272): notify and context pages (R322–R324), the bridge page (R370), the memory error log page (R417), the fabric fault page (R449–R451) and the bootstrap page (R474).
-/
namespace Sys2Proof.Machine

/-- A queue's registers. -/
def State.queue (s : State) (q : Nat) : Queue := (s.queues.find? (fun x => x.q == q)).getD (Queue.fresh q)
def State.putQueue (s : State) (x : Queue) : State := { s with queues := upsert (fun y => y.q == x.q) x s.queues }

/-- QCTL as it reads (R324). -/
def Queue.ctl (x : Queue) : Nat :=
  x.qsize * 2 ^ 20 + x.maxPrio * 2 ^ 16 + x.estat * 2 ^ 8 + b2n x.priv * 4 + b2n x.err * 2 + b2n x.en

/-- A context page's register (R323). -/
def Queue.read (x : Queue) (off : Nat) : Nat :=
  match off with
  | 0x000 => x.ctl
  | 0x008 => x.base.toNat
  | 0x010 => x.rd
  | 0x018 => x.asid
  | 0x020 => x.ptbase
  | 0x028 => x.stvec.toNat
  | 0x030 => x.frbase
  | 0x038 => x.frsize
  | _ => 0

/-- This device bridges its host group (R449). -/
def State.isBridge (s : State) : Bool := s.fbridge.getLsbD 3 && s.fbridge.toNat % 8 == s.kdev % 8

/-- The bridge page (R370). -/
def State.bridgeRead (s : State) (off : Nat) : Nat :=
  match off with
  | 0x000 => s.hmSize * 16 + b2n s.isBridge * 2 + b2n s.hmEn
  | 0x008 => s.hmBase.toNat
  | 0x010 => s.hmWr
  | 0x018 => s.hmRd
  | 0x020 => s.hmLost
  | _ => 0

/-- The memory error log page (R417). -/
def State.logRead (s : State) (off : Nat) : Nat :=
  match off with
  | 0x000 => s.meSize * 16 + b2n s.meEn
  | 0x008 => s.meBase
  | 0x010 => s.meWr
  | 0x018 => s.meRd
  | 0x020 => s.meLost
  | 0x028 => s.mece.toNat
  | _ => 0

/-- FPLANE (R450). -/
def Plane.read (p : Plane) : Nat := p.score1 * 2 ^ 48 + p.score0 * 2 ^ 32 + p.pdis * 2 ^ 16 + p.state

/-- The fabric fault page (R449). -/
def State.fabricRead (s : State) (off : Nat) : Nat :=
  if off < 0x120 then ((s.planes[off / 8]?).map Plane.read).getD 0
  else if off == 0x120 then s.flink.1 * 2 ^ 32 + s.flink.2
  else if off == 0x128 then s.fdisc.1 * 2 ^ 32 + s.fdisc.2
  else if off == 0x130 then b2n s.quiesce * 2
  else if off == 0x138 then s.fbridge.toNat
  else if 0x140 ≤ off && off < 0x180 then bits s.fence.toNat (8 * (off - 0x140) + 63) (8 * (off - 0x140))
  else if off == 0x1D0 then s.kdev
  else 0

/-- The bootstrap page (R474). -/
def State.bootRead (s : State) (off : Nat) : Nat :=
  match off with
  | 0x000 => s.fail * 2 ^ 16 + s.stage
  | 0x008 => s.plim
  | 0x010 => s.pwr
  | 0x018 => s.tmax
  | 0x028 => b2n s.hflush
  | _ => 0

/-- The 8-byte register at an aligned offset of control space; every other offset reads as zero. -/
def State.ctlReg (s : State) (off : Nat) : Nat :=
  if off < 0x400000 then (if off % 4096 = 0 then (s.queue (off / 4096)).rd else 0)
  else if off < 0x800000 then (s.queue ((off - 0x400000) / 4096)).read (off % 4096)
  else if off < 0x801000 then s.bridgeRead (off - 0x800000)
  else if 0x810000 ≤ off && off < 0x811000 then s.logRead (off - 0x810000)
  else if 0x820000 ≤ off && off < 0x821000 then s.fabricRead (off - 0x820000)
  else if 0x830000 ≤ off && off < 0x831000 then s.bootRead (off - 0x830000)
  else 0

/-- A load of 4 or 8 bytes from control space (R272): a 4-byte load returns one half. -/
def State.ctlRead (s : State) (pa n : Nat) : Nat :=
  let r := s.ctlReg ((pa - ctlBase) / 8 * 8) % 2 ^ 64
  if n = 8 then r else r / 2 ^ (8 * (pa % 8)) % 2 ^ 32

end Sys2Proof.Machine
end

