-- ==== Sys2Proof/Machine/LoadStore.lean ====
section
/-!
DEFINITION. Scalar loads and stores (R154–R158), atomics (R159–R163) and FENCE (R204, R205, R299, R437).
-/
namespace Sys2Proof.Machine

/-- What the checks of a scalar access find (R155, R272): the place; a reason to wait; or a trap, with the watch registers that take HIT. -/
inductive SChk where
  | ok (p : Place) (x : Xlat) | stall | trap (cause : BitVec 8) (psna : Option Nat) (hits : List Nat)
  deriving DecidableEq, Repr

/-- Checks 2 to 4 of R155 for n bytes at an address; control space takes only loads and stores of 4 or 8 bytes (R272). -/
def State.scalarChk (s : State) (ea : Word) (n : Nat) (acc : Acc) (k : WKind) : SChk :=
  match s.xlate ea n with
  | .fault c g => .trap c g []
  | .held => .stall
  | .at p x =>
    if !x.permits acc s.core.st.kMode then .trap 0x08 none []
    else if p.isCtl && (acc == .amo || decide (n < 4)) then .trap 0x08 none []
    else match s.core.st.watchers k ea.toNat n with
      | [] => .ok p x
      | hs => .trap 0x0A none hs

/-- Alignment, then those checks, then the access (R155, R160). (DEDUCED, log 98) -/
def State.scalarAccess (s : State) (ea : Word) (n : Nat) (misalign : BitVec 8) (acc : Acc) (k : WKind) (f : Place → Xlat → Out) : Out :=
  s.given (Chk.unless (ea.toNat % n == 0) misalign ea)
    (match s.scalarChk ea n acc k with
     | .ok p x => f p x
     | .stall => .next s
     | .trap c g hs => .next (((s.walkFault ea).modSt (fun t => t.hit hs)).trapAt c ea 0 0 g))

/-- How the store buffer names a place (R158, R301). Scratchpads go by rank and offset in the allotment. -/
def State.sbKey (s : State) (p : Place) (ea : Word) : Nat × Nat × Nat × Nat :=
  match p with
  | .slice pa key => (0, 0, pa, key)
  | .ctl pa => (1, 0, pa, 0)
  | .local_ off => (2, s.core.st.rank, off - s.core.st.allotBase, 0)
  | .peer _ r _ _ => (2, r, ea.toNat % 2 ^ 19, 0)
  | .farMem d pa key => (3, d, pa, key)
  | .farPad d r off => (4, d * 65536 + r, off, 0)

/-- What the store buffer says about a load (R158 item 5). -/
inductive Fwd where
  | none | value (v : Nat) | wait
  deriving DecidableEq, Repr

/-- A strand's stores that have committed and not entered the store buffer, oldest first (R390). -/
def Strand.heldOps (t : Strand) : List SbEntry := t.out ++ t.queue.flatMap (·.held)
/-- The vector queue is empty and nothing held is left: what leaves the strand may go (R390). -/
def Strand.drained (t : Strand) : Bool := t.queue.isEmpty && t.out.isEmpty

/-- The youngest entry that overlaps the load decides (R158 item 5); where none does, an earlier store of the strand to the same naturally aligned 8-byte word holds the load back (item 4). -/
def State.forward (s : State) (k : Nat × Nat × Nat × Nat) (n : Nat) : Fwd :=
  let (kind, unit, addr, key) := k
  let same := fun (e : SbEntry) => e.kind == kind && e.unit == unit && ((kind != 2 && kind != 4) || e.gang == s.core.st.gang)
  let hit := fun (e : SbEntry) => same e && decide (e.addr < addr + n) && decide (addr < e.addr + e.n)
  let own := fun (e : SbEntry) => same e && e.addr / 8 == addr / 8 && e.gang == s.core.st.gang && e.rank == s.core.st.rank
  let all := s.core.sb ++ s.core.st.heldOps
  match (all.filter hit).getLast? with
  | Option.none => if all.any own then .wait else .none
  | some e =>
    if e.key == key && decide (e.addr ≤ addr) && decide (addr + n ≤ e.addr + e.n) && !e.psn then
      .value (e.value.toNat / 256 ^ (addr - e.addr) % 256 ^ n)
    else .wait

/-- A loaded value in its register (R155). -/
def extend (sgn : Bool) (n v : Nat) : Word := if sgn then sext v (8 * n) else BitVec.ofNat 64 v

/-- A line of the scalar L1 by its physical address and key (R281). -/
def State.l1Hit (s : State) (pa key : Nat) : Option L1Line := s.core.l1.find? (fun l => l.line == pa / 64 + 2 ^ 48 * key && s.serves pa key)

/-- A scalar load missed: the slice answers, allocates, sends the line to the L1 and sets its presence bit (R156, R279, R280). -/
def State.l1Miss (s : State) (pa key : Nat) : State :=
  let line := pa / 64
  let s := s.readLine line key true s.asid
  { s with
    l2 := mapIf (fun x => x.line == line) (fun x => { x with present := true }) s.l2
    l1Fills := s.l1Fills ++ [⟨s.core.id, false, line + 2 ^ 48 * key, BitVec.ofNat 512 (s.peekLine line key).1⟩] }

/-- An invalidation is on its way from the slice of an address to the core in turn: the slice's later answers arrive behind it (R14, R280, R301). (DEDUCED, log 89) -/
def State.invalComing (s : State) (pa : Nat) : Bool := s.invals.any (fun v => v.left.contains s.core.id && sliceOf (64 * v.line) == sliceOf pa)

/-- A reply on its way to a scalar register (R42). -/
def State.answer (s : State) (r : Reply) : State := { s with replies := s.replies ++ [{ r with seq := s.stamp }] }

/-- A load from a place, its checks passed (R156, R158, R42, R305). (DEDUCED, log 21) (DESIGN CHOICE, log 30) (DESIGN CHOICE, log 103) -/
def State.loadAt (s : State) (d : BitVec 5) (ea : Word) (n : Nat) (sgn : Bool) (p : Place) (x : Xlat) : Out :=
  if s.scalarBusy || s.acquiring || s.locked p n false then .next s
  else match s.forward (s.sbKey p ea) n with
  | .wait => .next s
  | .value v => .next ((s.useXlat x).setReg d (extend sgn n v)).finish
  | .none =>
    let t := s.core.st
    match p with
    | .slice pa key =>
      (match s.l1Hit pa key with
       | some l =>
         let s := s.modCore (fun k => { k with l1 := l :: k.l1.filter (· != l) })
         .next ((s.useXlat x).setReg d (extend sgn n (l.data.toNat / 256 ^ (pa % 64) % 256 ^ n))).finish
       | none =>
         if s.lineHeld (pa / 64) || s.invalComing pa then .next s
         else
           let v := s.peek pa key n
           match v.2 with
           | some g => .next (((s.useXlat x).readLine (pa / 64) key true s.asid).trapAt 0x09 ea 0 0 (some g))
           | none => .next (((s.useXlat x).l1Miss pa key).setReg d (extend sgn n v.1)).finish)
    | .local_ off =>
      if s.core.padPsnIn off n then .next (s.trapAt 0x09 ea 0 0 none)
      else .next (s.setReg d (extend sgn n (s.core.padGet off n))).finish
    | .peer _ _ c off =>
      let k := s.coreAt c
      if !t.drained || s.coming s.core.id c then .next s
      else .next ((s.answer ⟨t.gang, t.rank, d.toNat, 0, k.padPsnIn off n, extend sgn n (k.padGet off n), ea, c, 0⟩).setMark d .pending).finish
    | .ctl pa =>
      if !t.drained || s.ctlWrites.any (fun w => w.addr / 8 == pa / 8 && w.gang == t.gang && w.rank == t.rank) then .next s
      else .next ((s.useXlat x).setReg d (extend sgn n (s.ctlRead pa n))).finish
    | p =>
      if !t.drained || s.tagsFree p.dev = 0 then .next s
      else .next ((((s.useXlat x).modSt (fun t => { t with acq := false })).sendRead p n true t.gang t.rank (.load d.toNat n sgn ea)).setMark d .pending).finish

/-- A scalar load (R155). -/
def State.load (s : State) (regs : List (BitVec 5)) (d : BitVec 5) (ea : Word) (n : Nat) (sgn : Bool) : Out :=
  s.given (s.chkRegs regs) (s.scalarAccess ea n 0x05 .load wLoad (s.loadAt d ea n sgn))

/-- An access held behind the youngest queued instruction (R390). -/
def Strand.hold (t : Strand) (e : SbEntry) : Strand :=
  match t.queue.reverse with
  | [] => t
  | q :: r => { t with queue := ({ q with held := q.held ++ [e] } :: r).reverse }

/-- A store whose checks have passed enters the store buffer, or is held while it is provisional (R158, R301, R390). -/
def State.storeAt (s : State) (ea : Word) (n : Nat) (v : Word) (p : Place) (x : Xlat) : Out :=
  let t := s.core.st
  if s.locked p n true || (t.queue.isEmpty && (!t.out.isEmpty || decide (Config.storeEntries ≤ s.core.sb.length))) then .next s
  else
    let (kind, unit, addr, key) := s.sbKey p ea
    let e : SbEntry := ⟨t.gang, t.rank, kind, unit, addr, key, n, BitVec.ofNat 64 (v.toNat % 256 ^ n), false, s.asid⟩
    if t.queue.isEmpty then .next ((s.useXlat x).modCore (fun k => { k with sb := k.sb ++ [e] })).finish
    else .next ((s.useXlat x).modSt (fun t => t.hold e)).finish

/-- A scalar store (R155). -/
def State.store (s : State) (regs : List (BitVec 5)) (src : BitVec 5) (ea : Word) (n : Nat) : Out :=
  s.given (s.chkRegs regs) (s.scalarAccess ea n 0x05 .store wStore (s.storeAt ea n (s.reg src)))

/-- LDB (R155). -/
def execLdb (d b : BitVec 5) (o : BitVec 12) (s : State) : Out := s.load [b] d (s.eaOff b o 1) 1 true
/-- LDH (R155). -/
def execLdh (d b : BitVec 5) (o : BitVec 12) (s : State) : Out := s.load [b] d (s.eaOff b o 2) 2 true
/-- LDW (R155). -/
def execLdw (d b : BitVec 5) (o : BitVec 12) (s : State) : Out := s.load [b] d (s.eaOff b o 4) 4 true
/-- LDD (R155). -/
def execLdd (d b : BitVec 5) (o : BitVec 12) (s : State) : Out := s.load [b] d (s.eaOff b o 8) 8 false
/-- LDBN (R155). -/
def execLdbn (d b : BitVec 5) (o : BitVec 12) (s : State) : Out := s.load [b] d (s.eaOff b o 1) 1 false
/-- LDHN (R155). -/
def execLdhn (d b : BitVec 5) (o : BitVec 12) (s : State) : Out := s.load [b] d (s.eaOff b o 2) 2 false
/-- LDWN (R155). -/
def execLdwn (d b : BitVec 5) (o : BitVec 12) (s : State) : Out := s.load [b] d (s.eaOff b o 4) 4 false
/-- STB (R155). -/
def execStb (r b : BitVec 5) (o : BitVec 12) (s : State) : Out := s.store [b, r] r (s.eaOff b o 1) 1
/-- STH (R155). -/
def execSth (r b : BitVec 5) (o : BitVec 12) (s : State) : Out := s.store [b, r] r (s.eaOff b o 2) 2
/-- STW (R155). -/
def execStw (r b : BitVec 5) (o : BitVec 12) (s : State) : Out := s.store [b, r] r (s.eaOff b o 4) 4
/-- STD (R155). -/
def execStd (r b : BitVec 5) (o : BitVec 12) (s : State) : Out := s.store [b, r] r (s.eaOff b o 8) 8

/-- Bytes and sign extension of a size code of LDX (R154). -/
def sizeOf (z : Nat) : Nat × Bool :=
  match z with
  | 0 => (1, true) | 1 => (2, true) | 2 => (4, true) | 3 => (8, false) | 4 => (1, false) | 5 => (2, false) | _ => (4, false)

/-- LDX (R155). -/
def execLdx (d a b : BitVec 5) (sc : BitVec 2) (z : BitVec 3) (s : State) : Out :=
  s.load [a, b] d (s.eaIdx a b sc) (sizeOf z.toNat).1 (sizeOf z.toNat).2
/-- STX (R155). -/
def execStx (r a b : BitVec 5) (sc z : BitVec 2) (s : State) : Out :=
  s.store [a, b, r] r (s.eaIdx a b sc) (2 ^ z.toNat)

/-- Stores of a strand still in the store buffer, or held (R299, R390). -/
def State.buffered (s : State) (gang rank : Nat) : Bool := (s.core.sb ++ s.core.st.heldOps).any (fun e => e.gang == gang && e.rank == rank)
/-- Accesses of a strand in the classes of a mask (bit 0 sl, 1 ss, 2 vl, 3 vs) that have been issued and not acknowledged. -/
def State.unacked (s : State) (gang rank cls : Nat) : Bool :=
  s.invals.any (fun v => v.gang == gang && v.rank == rank && v.cls &&& cls != 0)
    || (bit cls 1 && s.ctlWrites.any (fun w => w.gang == gang && w.rank == rank))
    || s.reqs.any (fun r => r.gang == gang && r.rank == rank && (match r.kind with
      | .store c => c &&& cls != 0
      | .amo _ _ _ => cls % 4 != 0
      | _ => false))
/-- Engine transfers of a strand that are not performed (R205). -/
def State.engineBusy (s : State) (gang rank : Nat) : Bool :=
  s.xfers.any (fun x => x.gang == gang && x.rank == rank && x.kind != 5)

/-- The completion of some transfer is on its way to its token (R36, R205). (DEDUCED, log 86) -/
def State.completing (s : State) : Bool :=
  s.tokMsgs.any (fun m => m.xfer.isSome) || s.txq.any (fun p => p.xfer.isSome) || s.pairs.any (fun p => p.goBack.any (fun f => f.xfer.isSome))

/-- A scalar store that another device has not acknowledged (R299). -/
def State.farStore (s : State) (gang rank : Nat) : Bool :=
  s.reqs.any (fun r => r.gang == gang && r.rank == rank && (match r.kind with | .store c => bit c 1 | _ => false))

/-- Every earlier access of the classes of a mask is performed at a scope (R299, R304): bit 4 is e. The vector classes and e are those of queued instructions too. At strand scope a store to this device need only be sent. -/
def State.performed (s : State) (pred scope : Nat) : Bool :=
  let t := s.core.st
  (pred < 4 || t.queue.isEmpty) && (!bit pred 0 || !s.scalarBusy)
    && (!bit pred 1 || (!s.buffered t.gang t.rank && !s.scalarBusy
      && !(if scope = 0 then s.farStore t.gang t.rank else s.unacked t.gang t.rank 2)))
    && (!bit pred 3 || !s.unacked t.gang t.rank 8)
    && (!bit pred 4 || (!s.engineBusy t.gang t.rank && !s.completing))

/-- A FENCE with ss and vs in pred has completed: what is not acknowledged yet was issued before it (R398). -/
def State.cover (s : State) : State :=
  let t := s.core.st
  { s with
    invals := mapIf (fun (v : Inval) => v.gang == t.gang && v.rank == t.rank) (fun v => { v with cls := v.cls ||| 128 }) s.invals
    ctlWrites := mapIf (fun (w : CtlWrite) => w.gang == t.gang && w.rank == t.rank) (fun w => { w with covered := true }) s.ctlWrites
    reqs := mapIf (fun (r : Req) => r.gang == t.gang && r.rank == t.rank) (fun r => { r with kind := match r.kind with
      | .store c => .store (c ||| 128)
      | k => k }) s.reqs }

/-- fn10 of an AMO (R114). -/
def amoFn (w q r : BitVec 1) (sc : BitVec 3) (op : Nat) : Nat := w.toNat * 512 + q.toNat * 256 + r.toNat * 128 + sc.toNat * 16 + op

/-- An AMO's access, its checks passed (R160–R162, R419): with RL 1 it waits for the vector stores and transfers before it; with AQ 1 what follows waits for its reply. (DESIGN CHOICE, log 30) (DESIGN CHOICE, log 110) -/
def State.amoAt (s : State) (d b : BitVec 5) (ea : Word) (n op : Nat) (aq rl : Bool) (fn : Nat) (p : Place) (x : Xlat) : Out :=
  let t := s.core.st
  if !t.drained || s.scalarBusy || !s.core.sb.isEmpty || s.unacked t.gang t.rank 2 || s.locked p n true || s.placeHeld p
    || (match p with | .slice pa _ => s.invalComing pa | _ => false) || (rl && !s.performed 24 4) then .next s
  else
    let e := (s.reg d).toNat % 256 ^ n
    let v := (s.reg b).toNat % 256 ^ n
    let out := fun (old : Nat) => extend (n == 4) n old
    let u := (s.useXlat x).modSt (fun t => { t with acq := aq })
    let here := u.amoApply p n (fun old => amoNew op n old v e) s.asid t.gang t.rank 3
    match p with
    | .peer _ _ c _ =>
      if s.coming s.core.id c then .next s
      else .next ((here.2.answer ⟨t.gang, t.rank, d.toNat, 0, here.1.2, out here.1.1, ea, c, 0⟩).setMark d .pending).finish
    | p =>
      if p.far then
        if s.tagsFree p.dev = 0 then .next s
        else .next ((u.sendAtomic p (if op = 9 then 16 else 8) (if op = 9 then e + v * 2 ^ 64 else v) fn t.gang t.rank (.amo d.toNat n ea)).setMark d .pending).finish
      else if here.1.2 then .next (here.2.setMark d .poisoned).finish
      else .next (here.2.setReg d (out here.1.1)).finish

/-- An AMO (R160): its operands, its alignment before everything else of its own (R420), checks 2 to 4 of R155. -/
def State.amo (s : State) (d a b : BitVec 5) (w q r : BitVec 1) (sc : BitVec 3) (op : Nat) : Out :=
  let n := if w = 1 then 4 else 8
  s.given (s.chkRegs (if op = 9 then [a, b, d] else [a, b]))
    (s.scalarAccess (s.reg a) n 0x06 .amo wAmo (s.amoAt d b (s.reg a) n op (q == 1) (r == 1) (amoFn w q r sc op)))

/-- AMOADD (R160). -/
def execAmoadd (d a b : BitVec 5) (w q r : BitVec 1) (sc : BitVec 3) (s : State) : Out := s.amo d a b w q r sc 0
/-- AMOAND (R160). -/
def execAmoand (d a b : BitVec 5) (w q r : BitVec 1) (sc : BitVec 3) (s : State) : Out := s.amo d a b w q r sc 1
/-- AMOOR (R160). -/
def execAmoor (d a b : BitVec 5) (w q r : BitVec 1) (sc : BitVec 3) (s : State) : Out := s.amo d a b w q r sc 2
/-- AMOXOR (R160). -/
def execAmoxor (d a b : BitVec 5) (w q r : BitVec 1) (sc : BitVec 3) (s : State) : Out := s.amo d a b w q r sc 3
/-- AMOMIN (R160). -/
def execAmomin (d a b : BitVec 5) (w q r : BitVec 1) (sc : BitVec 3) (s : State) : Out := s.amo d a b w q r sc 4
/-- AMOMAX (R160). -/
def execAmomax (d a b : BitVec 5) (w q r : BitVec 1) (sc : BitVec 3) (s : State) : Out := s.amo d a b w q r sc 5
/-- AMOMINN (R160). -/
def execAmominn (d a b : BitVec 5) (w q r : BitVec 1) (sc : BitVec 3) (s : State) : Out := s.amo d a b w q r sc 6
/-- AMOMAXN (R160). -/
def execAmomaxn (d a b : BitVec 5) (w q r : BitVec 1) (sc : BitVec 3) (s : State) : Out := s.amo d a b w q r sc 7
/-- AMOSWP (R160). -/
def execAmoswp (d a b : BitVec 5) (w q r : BitVec 1) (sc : BitVec 3) (s : State) : Out := s.amo d a b w q r sc 8
/-- AMOCAS (R160): s[d] is the expected value. -/
def execAmocas (d a b : BitVec 5) (w q r : BitVec 1) (sc : BitVec 3) (s : State) : Out := s.amo d a b w q r sc 9

/-- FENCE (R205): commits when every earlier access of the pred classes is performed; an empty set orders nothing; a note of a pred class abandons it (R437). -/
def execFence (p u : BitVec 5) (c : BitVec 3) (s : State) : Out :=
  if s.core.st.notes &&& p != 0 then .next (s.trapAt 0x11 0 0 0 none)
  else if p = 0 || u = 0 || s.performed p.toNat c.toNat then .next (if p.getLsbD 1 && p.getLsbD 3 then s.cover else s).finish
  else .next s

end Sys2Proof.Machine
end

