-- ==== Sys2Proof/Machine/Scalar.lean ====
section
/-!
DEFINITION. Scalar ALU, immediate forms and constants (R138, R142–R144).
-/
namespace Sys2Proof.Machine

/-- A three-register scalar instruction (R138): both sources are read, the destination is written, s0 discards. -/
def State.alu3 (s : State) (d a b : BitVec 5) (v : Word → Word → Word) : Out :=
  s.given (s.chkRegs [a, b]) (.next (s.setReg d (v (s.reg a) (s.reg b))).finish)

/-- A two-register scalar instruction. -/
def State.alu2 (s : State) (d a : BitVec 5) (v : Word → Word) : Out :=
  s.given (s.chkRegs [a]) (.next (s.setReg d (v (s.reg a))).finish)

/-- Signed quotient (R84): truncated, all ones on a zero divisor. -/
def divS (x y : Word) : Word := if y = 0 then BitVec.allOnes 64 else x.sdiv y
/-- Signed remainder (R84): the dividend's sign, the dividend on a zero divisor. -/
def remS (x y : Word) : Word := if y = 0 then x else x.srem y
/-- Unsigned quotient (R84). -/
def divU (x y : Word) : Word := if y = 0 then BitVec.allOnes 64 else x / y
/-- Unsigned remainder (R84). -/
def remU (x y : Word) : Word := if y = 0 then x else x % y
/-- Bits [127:64] of the exact signed product (R83). -/
def mulHi (x y : Word) : Word := ((x.signExtend 128 * y.signExtend 128) >>> 64).setWidth 64
/-- Bits [127:64] of the exact unsigned product (R83). -/
def mulHiU (x y : Word) : Word := ((x.setWidth 128 * y.setWidth 128) >>> 64).setWidth 64
/-- A comparison's result (R142). -/
def flag (b : Bool) : Word := if b then 1 else 0

/-- The number of 1 bits among the low n bits. -/
def popCount (x : Nat) : Nat → Nat
  | 0 => 0
  | n + 1 => x % 2 + popCount (x / 2) n
/-- Leading zeros of an n-bit value. -/
def clzN (n x : Nat) : Nat := if x = 0 then n else n - 1 - Nat.log2 x
/-- Trailing zeros among n bits. -/
def ctzN (x : Nat) : Nat → Nat
  | 0 => 0
  | n + 1 => if x % 2 = 1 then 0 else 1 + ctzN (x / 2) n
/-- The carry-less product p of R142, over the low n bits of y. -/
def clmulN (x y : Nat) : Nat → Nat
  | 0 => 0
  | n + 1 => (if y % 2 = 1 then x else 0) ^^^ (2 * clmulN x (y / 2) n)

/-- ADD (R142). -/
def execAdd (d a b : BitVec 5) (s : State) : Out := s.alu3 d a b (fun x y => x + y)
/-- SUB (R142). -/
def execSub (d a b : BitVec 5) (s : State) : Out := s.alu3 d a b (fun x y => x - y)
/-- AND (R142). -/
def execAnd (d a b : BitVec 5) (s : State) : Out := s.alu3 d a b (fun x y => x &&& y)
/-- OR (R142). -/
def execOr (d a b : BitVec 5) (s : State) : Out := s.alu3 d a b (fun x y => x ||| y)
/-- XOR (R142). -/
def execXor (d a b : BitVec 5) (s : State) : Out := s.alu3 d a b (fun x y => x ^^^ y)
/-- SLL (R142). -/
def execSll (d a b : BitVec 5) (s : State) : Out := s.alu3 d a b (fun x y => x <<< (y.toNat % 64))
/-- SRL (R142). -/
def execSrl (d a b : BitVec 5) (s : State) : Out := s.alu3 d a b (fun x y => x >>> (y.toNat % 64))
/-- SRA (R142). -/
def execSra (d a b : BitVec 5) (s : State) : Out := s.alu3 d a b (fun x y => x.sshiftRight (y.toNat % 64))
/-- MUL (R142). -/
def execMul (d a b : BitVec 5) (s : State) : Out := s.alu3 d a b (fun x y => x * y)
/-- MULH (R142). -/
def execMulh (d a b : BitVec 5) (s : State) : Out := s.alu3 d a b (fun x y => mulHi x y)
/-- MULHN (R142). -/
def execMulhn (d a b : BitVec 5) (s : State) : Out := s.alu3 d a b (fun x y => mulHiU x y)
/-- DIV (R142). -/
def execDiv (d a b : BitVec 5) (s : State) : Out := s.alu3 d a b (fun x y => divS x y)
/-- DIVN (R142). -/
def execDivn (d a b : BitVec 5) (s : State) : Out := s.alu3 d a b (fun x y => divU x y)
/-- REM (R142). -/
def execRem (d a b : BitVec 5) (s : State) : Out := s.alu3 d a b (fun x y => remS x y)
/-- REMN (R142). -/
def execRemn (d a b : BitVec 5) (s : State) : Out := s.alu3 d a b (fun x y => remU x y)
/-- SLT (R142). -/
def execSlt (d a b : BitVec 5) (s : State) : Out := s.alu3 d a b (fun x y => flag (x.slt y))
/-- SLTN (R142). -/
def execSltn (d a b : BitVec 5) (s : State) : Out := s.alu3 d a b (fun x y => flag (x.ult y))
/-- MIN (R142). -/
def execMin (d a b : BitVec 5) (s : State) : Out := s.alu3 d a b (fun x y => if x.slt y then x else y)
/-- MAX (R142). -/
def execMax (d a b : BitVec 5) (s : State) : Out := s.alu3 d a b (fun x y => if x.slt y then y else x)
/-- MINN (R142). -/
def execMinn (d a b : BitVec 5) (s : State) : Out := s.alu3 d a b (fun x y => if x.ult y then x else y)
/-- MAXN (R142). -/
def execMaxn (d a b : BitVec 5) (s : State) : Out := s.alu3 d a b (fun x y => if x.ult y then y else x)
/-- CLMUL (R142). -/
def execClmul (d a b : BitVec 5) (s : State) : Out := s.alu3 d a b (fun x y => BitVec.ofNat 64 (clmulN x.toNat y.toNat 64))
/-- CLMULH (R142). -/
def execClmulh (d a b : BitVec 5) (s : State) : Out := s.alu3 d a b (fun x y => BitVec.ofNat 64 (clmulN x.toNat y.toNat 64 / 2 ^ 64))
/-- CLZ (R142). -/
def execClz (d a : BitVec 5) (s : State) : Out := s.alu2 d a (fun x => BitVec.ofNat 64 (clzN 64 x.toNat))
/-- CTZ (R142). -/
def execCtz (d a : BitVec 5) (s : State) : Out := s.alu2 d a (fun x => BitVec.ofNat 64 (ctzN x.toNat 64))
/-- POPC (R142). -/
def execPopc (d a : BitVec 5) (s : State) : Out := s.alu2 d a (fun x => BitVec.ofNat 64 (popCount x.toNat 64))
/-- ADDI (R143): the immediate is sign-extended. -/
def execAddi (d a : BitVec 5) (i : BitVec 15) (s : State) : Out := s.alu2 d a (fun x => x + i.signExtend 64)
/-- ANDI (R143): the immediate is sign-extended. -/
def execAndi (d a : BitVec 5) (i : BitVec 15) (s : State) : Out := s.alu2 d a (fun x => x &&& i.signExtend 64)
/-- ORI (R143): the immediate is sign-extended. -/
def execOri (d a : BitVec 5) (i : BitVec 15) (s : State) : Out := s.alu2 d a (fun x => x ||| i.signExtend 64)
/-- XORI (R143): the immediate is sign-extended. -/
def execXori (d a : BitVec 5) (i : BitVec 15) (s : State) : Out := s.alu2 d a (fun x => x ^^^ i.signExtend 64)
/-- SLTI (R143): the immediate is sign-extended. -/
def execSlti (d a : BitVec 5) (i : BitVec 15) (s : State) : Out := s.alu2 d a (fun x => flag (x.slt (i.signExtend 64)))
/-- SLTNI (R143): the immediate is sign-extended. -/
def execSltni (d a : BitVec 5) (i : BitVec 15) (s : State) : Out := s.alu2 d a (fun x => flag (x.ult (i.signExtend 64)))
/-- SLLI (R143). -/
def execSlli (d a : BitVec 5) (n : BitVec 6) (s : State) : Out := s.alu2 d a (fun x => x <<< n.toNat)
/-- SRLI (R143). -/
def execSrli (d a : BitVec 5) (n : BitVec 6) (s : State) : Out := s.alu2 d a (fun x => x >>> n.toNat)
/-- SRAI (R143). -/
def execSrai (d a : BitVec 5) (n : BitVec 6) (s : State) : Out := s.alu2 d a (fun x => x.sshiftRight n.toNat)

/-- MOVW (R144). -/
def execMovw (d : BitVec 5) (i : BitVec 20) (s : State) : Out := .next (s.setReg d (i.signExtend 64 <<< 12)).finish
/-- ADRP (R144): the pc is not aligned first. -/
def execAdrp (d : BitVec 5) (i : BitVec 20) (s : State) : Out :=
  .next (s.setReg d (s.core.st.pc.setWidth 64 + (i.signExtend 64 <<< 12))).finish
/-- MOVK (R144): sixteen bits replaced, the others kept; it reads its destination (R138). -/
def execMovk (d : BitVec 5) (p : BitVec 2) (v : BitVec 16) (s : State) : Out :=
  s.alu2 d d (fun x => (x &&& ~~~(0xFFFF#64 <<< (16 * p.toNat))) ||| (v.setWidth 64 <<< (16 * p.toNat)))

end Sys2Proof.Machine
end

