-- ==== Sys2Proof/Machine/VInt.lean ====
section
/-!
DEFINITION. Element-wise integer instructions and carry-less multiply (R176, R177, R191).
-/
namespace Sys2Proof.Machine

/-- Where element i's second operand comes from: a vector register or a scalar captured at queue entry (R176). -/
inductive Src where
  | vec (v : BitVec 5) | sca (r : BitVec 5)
  deriving DecidableEq, Repr

/-- The scalar registers among the operands. -/
def Src.scalars : Src → List (BitVec 5)
  | .vec _ => []
  | .sca r => [r]

/-- y of R176 and whether it is poisoned. -/
def State.srcEl (s : State) (b : Src) (i : Nat) : Nat :=
  match b with
  | .vec v => s.el v s.w i
  | .sca r => (s.reg r).toNat % 2 ^ s.sewBits
def State.srcPsn (s : State) (b : Src) (i : Nat) : Bool :=
  match b with
  | .vec v => s.elPsn v s.w i
  | .sca _ => false

/-- The skeleton of R176: f of the width in bits, x, y and the old element; `useOld` says that the destination is read (R171). -/
def State.vop (s : State) (acc : Accepts) (d a : BitVec 5) (b : Src) (m : BitVec 3) (useOld : Bool)
    (f : Nat → Nat → Nat → Nat → Nat × Flags) : Out :=
  s.vrun b.scalars (acc.ok s.et) [m]
    (.next (s.elementwise m d (fun i =>
      let r := f s.sewBits (s.el a s.w i) (s.srcEl b i) (s.el d s.w i)
      ⟨r.1, s.elPsn a s.w i || s.srcPsn b i || (useOld && s.elPsn d s.w i), r.2⟩)))

/-- An integer f, which sets no flag. -/
def State.viop (s : State) (acc : Accepts) (d a : BitVec 5) (b : Src) (m : BitVec 3) (f : Nat → Nat → Nat → Nat) : Out :=
  s.vop acc d a b m false (fun n x y _ => (f n x y, 0))

/-- The f of R177, on N-bit values. -/
def iAdd (n x y : Nat) : Nat := (x + y) % 2 ^ n
def iSub (n x y : Nat) : Nat := (x + 2 ^ n - y % 2 ^ n) % 2 ^ n
def iMul (n x y : Nat) : Nat := x * y % 2 ^ n
def iMulh (n x y : Nat) : Nat := wrap n ((toInt n x * toInt n y) / 2 ^ n)
def iMulhn (n x y : Nat) : Nat := x * y / 2 ^ n
def iSll (n x y : Nat) : Nat := x * 2 ^ (y % n) % 2 ^ n
def iSrl (n x y : Nat) : Nat := x / 2 ^ (y % n)
def iSra (n x y : Nat) : Nat := wrap n (toInt n x / 2 ^ (y % n))
def iMin (n x y : Nat) : Nat := if toInt n x < toInt n y then x else y
def iMax (n x y : Nat) : Nat := if toInt n y < toInt n x then x else y
def iMinn (_ x y : Nat) : Nat := min x y
def iMaxn (_ x y : Nat) : Nat := max x y
/-- An exact result clamped to the range of ET (R83). -/
def clampTo (isSigned : Bool) (n : Nat) (z : Int) : Nat :=
  if isSigned then wrap n (max (-(2 ^ (n - 1))) (min z (2 ^ (n - 1) - 1)))
  else (max 0 (min z (2 ^ n - 1))).toNat
/-- An element as an integer of ET (R82). -/
def etInt (isSigned : Bool) (n x : Nat) : Int := if isSigned then toInt n x else x
def iSadd (isSigned : Bool) (n x y : Nat) : Nat := clampTo isSigned n (etInt isSigned n x + etInt isSigned n y)
def iSsub (isSigned : Bool) (n x y : Nat) : Nat := clampTo isSigned n (etInt isSigned n x - etInt isSigned n y)
/-- VMERGE's f (R177). -/
def iMerge (n x y old : Nat) : Nat := (y &&& x) ||| ((2 ^ n - 1 - y % 2 ^ n) &&& old)
/-- The carry-less product's halves (R191). -/
def clmulLow (n x y : Nat) : Nat := clmulN x y n % 2 ^ n
def clmulHigh (n x y : Nat) : Nat := clmulN x y n / 2 ^ n

/-- VADD_VV (R177). -/
def execVaddVV (d a b : BitVec 5) (m : BitVec 3) (s : State) : Out := s.viop .ints d a (.vec b) m iAdd
/-- VADD_VS (R177). -/
def execVaddVS (d a b : BitVec 5) (m : BitVec 3) (s : State) : Out := s.viop .ints d a (.sca b) m iAdd
/-- VSUB_VV (R177). -/
def execVsubVV (d a b : BitVec 5) (m : BitVec 3) (s : State) : Out := s.viop .ints d a (.vec b) m iSub
/-- VSUB_VS (R177). -/
def execVsubVS (d a b : BitVec 5) (m : BitVec 3) (s : State) : Out := s.viop .ints d a (.sca b) m iSub
/-- VMUL_VV (R177). -/
def execVmulVV (d a b : BitVec 5) (m : BitVec 3) (s : State) : Out := s.viop .ints d a (.vec b) m iMul
/-- VMUL_VS (R177). -/
def execVmulVS (d a b : BitVec 5) (m : BitVec 3) (s : State) : Out := s.viop .ints d a (.sca b) m iMul
/-- VMULH_VV (R177). -/
def execVmulhVV (d a b : BitVec 5) (m : BitVec 3) (s : State) : Out := s.viop .ints d a (.vec b) m iMulh
/-- VMULH_VS (R177). -/
def execVmulhVS (d a b : BitVec 5) (m : BitVec 3) (s : State) : Out := s.viop .ints d a (.sca b) m iMulh
/-- VMULHN_VV (R177). -/
def execVmulhnVV (d a b : BitVec 5) (m : BitVec 3) (s : State) : Out := s.viop .ints d a (.vec b) m iMulhn
/-- VMULHN_VS (R177). -/
def execVmulhnVS (d a b : BitVec 5) (m : BitVec 3) (s : State) : Out := s.viop .ints d a (.sca b) m iMulhn
/-- VAND_VV (R177). -/
def execVandVV (d a b : BitVec 5) (m : BitVec 3) (s : State) : Out := s.viop .any d a (.vec b) m (fun _ x y => x &&& y)
/-- VAND_VS (R177). -/
def execVandVS (d a b : BitVec 5) (m : BitVec 3) (s : State) : Out := s.viop .any d a (.sca b) m (fun _ x y => x &&& y)
/-- VOR_VV (R177). -/
def execVorVV (d a b : BitVec 5) (m : BitVec 3) (s : State) : Out := s.viop .any d a (.vec b) m (fun _ x y => x ||| y)
/-- VOR_VS (R177). -/
def execVorVS (d a b : BitVec 5) (m : BitVec 3) (s : State) : Out := s.viop .any d a (.sca b) m (fun _ x y => x ||| y)
/-- VXOR_VV (R177). -/
def execVxorVV (d a b : BitVec 5) (m : BitVec 3) (s : State) : Out := s.viop .any d a (.vec b) m (fun _ x y => x ^^^ y)
/-- VXOR_VS (R177). -/
def execVxorVS (d a b : BitVec 5) (m : BitVec 3) (s : State) : Out := s.viop .any d a (.sca b) m (fun _ x y => x ^^^ y)
/-- VSLL_VV (R177). -/
def execVsllVV (d a b : BitVec 5) (m : BitVec 3) (s : State) : Out := s.viop .any d a (.vec b) m iSll
/-- VSLL_VS (R177). -/
def execVsllVS (d a b : BitVec 5) (m : BitVec 3) (s : State) : Out := s.viop .any d a (.sca b) m iSll
/-- VSRL_VV (R177). -/
def execVsrlVV (d a b : BitVec 5) (m : BitVec 3) (s : State) : Out := s.viop .any d a (.vec b) m iSrl
/-- VSRL_VS (R177). -/
def execVsrlVS (d a b : BitVec 5) (m : BitVec 3) (s : State) : Out := s.viop .any d a (.sca b) m iSrl
/-- VSRA_VV (R177). -/
def execVsraVV (d a b : BitVec 5) (m : BitVec 3) (s : State) : Out := s.viop .any d a (.vec b) m iSra
/-- VSRA_VS (R177). -/
def execVsraVS (d a b : BitVec 5) (m : BitVec 3) (s : State) : Out := s.viop .any d a (.sca b) m iSra
/-- VMIN_VV (R177). -/
def execVminVV (d a b : BitVec 5) (m : BitVec 3) (s : State) : Out := s.viop .ints d a (.vec b) m iMin
/-- VMIN_VS (R177). -/
def execVminVS (d a b : BitVec 5) (m : BitVec 3) (s : State) : Out := s.viop .ints d a (.sca b) m iMin
/-- VMAX_VV (R177). -/
def execVmaxVV (d a b : BitVec 5) (m : BitVec 3) (s : State) : Out := s.viop .ints d a (.vec b) m iMax
/-- VMAX_VS (R177). -/
def execVmaxVS (d a b : BitVec 5) (m : BitVec 3) (s : State) : Out := s.viop .ints d a (.sca b) m iMax
/-- VMINN_VV (R177). -/
def execVminnVV (d a b : BitVec 5) (m : BitVec 3) (s : State) : Out := s.viop .ints d a (.vec b) m iMinn
/-- VMINN_VS (R177). -/
def execVminnVS (d a b : BitVec 5) (m : BitVec 3) (s : State) : Out := s.viop .ints d a (.sca b) m iMinn
/-- VMAXN_VV (R177). -/
def execVmaxnVV (d a b : BitVec 5) (m : BitVec 3) (s : State) : Out := s.viop .ints d a (.vec b) m iMaxn
/-- VMAXN_VS (R177). -/
def execVmaxnVS (d a b : BitVec 5) (m : BitVec 3) (s : State) : Out := s.viop .ints d a (.sca b) m iMaxn
/-- VSADD_VV (R177). -/
def execVsaddVV (d a b : BitVec 5) (m : BitVec 3) (s : State) : Out := s.viop .ints d a (.vec b) m (iSadd (s.et == 0))
/-- VSADD_VS (R177). -/
def execVsaddVS (d a b : BitVec 5) (m : BitVec 3) (s : State) : Out := s.viop .ints d a (.sca b) m (iSadd (s.et == 0))
/-- VSSUB_VV (R177). -/
def execVssubVV (d a b : BitVec 5) (m : BitVec 3) (s : State) : Out := s.viop .ints d a (.vec b) m (iSsub (s.et == 0))
/-- VSSUB_VS (R177). -/
def execVssubVS (d a b : BitVec 5) (m : BitVec 3) (s : State) : Out := s.viop .ints d a (.sca b) m (iSsub (s.et == 0))
/-- VMERGE_VV (R177): it reads its destination. -/
def execVmergeVV (d a b : BitVec 5) (m : BitVec 3) (s : State) : Out :=
  s.vop .any d a (.vec b) m true (fun n x y old => (iMerge n x y old, 0))
/-- VMERGE_VS (R177): it reads its destination. -/
def execVmergeVS (d a b : BitVec 5) (m : BitVec 3) (s : State) : Out :=
  s.vop .any d a (.sca b) m true (fun n x y old => (iMerge n x y old, 0))
/-- VCLMUL_VV (R191). -/
def execVclmulVV (d a b : BitVec 5) (m : BitVec 3) (s : State) : Out := s.viop .ints d a (.vec b) m clmulLow
/-- VCLMUL_VS (R191). -/
def execVclmulVS (d a b : BitVec 5) (m : BitVec 3) (s : State) : Out := s.viop .ints d a (.sca b) m clmulLow
/-- VCLMULH_VV (R191). -/
def execVclmulhVV (d a b : BitVec 5) (m : BitVec 3) (s : State) : Out := s.viop .ints d a (.vec b) m clmulHigh
/-- VCLMULH_VS (R191). -/
def execVclmulhVS (d a b : BitVec 5) (m : BitVec 3) (s : State) : Out := s.viop .ints d a (.sca b) m clmulHigh

end Sys2Proof.Machine
end

