-- ==== Sys2Proof/Machine/Matrix.lean ====
section
/-!
DEFINITION. The matrix unit's outer products and cell moves (R97, R243–R252).
-/
namespace Sys2Proof.Machine

/-- Cell width in bytes (R244). -/
def State.cw (s : State) : Nat := if s.et = 2 then 8 else 4

/-- Rows and columns in use (R245). -/
def State.rowsInUse (s : State) : Nat := 8 * 2 ^ kTr s.core.st.kvtype
def State.colsInUse (s : State) : Nat := 8 * 2 ^ kTc s.core.st.kvtype

/-- A row or column is enabled under its mask field (R245). -/
def State.lineOn (s : State) (m : BitVec 3) (inUse i : Nat) : Bool :=
  decide (i < inUse) && (m == 0 || (decide (i < s.vl) && (s.maskOf m).getLsbD i))

/-- Cell (i, j) is enabled (R245). -/
def State.cellOn (s : State) (r k : BitVec 3) (i j : Nat) : Bool := s.lineOn r s.rowsInUse i && s.lineOn k s.colsInUse j

/-- The enabled cells in ascending i, and within one i in ascending j. -/
def State.cellsOn (s : State) (r k : BitVec 3) : List (Nat × Nat) :=
  ((List.range 32).filter (s.lineOn r s.rowsInUse)).flatMap
    (fun i => ((List.range 32).filter (s.lineOn k s.colsInUse)).map (fun j => (i, j)))

/-- A cell's 64 bits and poison (R61). -/
def State.cell (s : State) (c : BitVec 3) (i j : Nat) : Nat :=
  (s.core.st.acc[c.toNat].extractLsb' (64 * (32 * i + j)) 64).toNat
def State.cellPsn (s : State) (c : BitVec 3) (i j : Nat) : Bool := s.core.st.accPsn[c.toNat].getLsbD (32 * i + j)
/-- The cell's value at the cell width (R244). -/
def State.cellVal (s : State) (c : BitVec 3) (i j : Nat) : Nat := s.cell c i j % 2 ^ (8 * s.cw)

/-- One cell written: bits above a cell of width 4 are zero in `v` (R61, R244). -/
structure CellWrite where
  i : Nat
  j : Nat
  val : Nat
  psn : Bool
  deriving DecidableEq, Repr

/-- An accumulator's bits with one cell replaced. -/
def cellPut (x : AccImg) (n v : Nat) : AccImg :=
  (x &&& ~~~(0xFFFFFFFFFFFFFFFF#65536 <<< (64 * n))) ||| (BitVec.ofNat 65536 (v % 2 ^ 64) <<< (64 * n))

/-- Cells written, every other cell kept (R65, R245). -/
def State.putCells (s : State) (c : BitVec 3) (ws : List CellWrite) : State :=
  s.modSt (fun t => { t with
    acc := t.acc.set c.toNat (ws.foldl (fun x w => cellPut x (32 * w.i + w.j) w.val) t.acc[c.toNat])
    accPsn := t.accPsn.set c.toNat (ws.foldl (fun x w => putBit x (32 * w.i + w.j) w.psn) t.accPsn[c.toNat]) })

/-- Values of a 64-bit operand element (R97). -/
def opValues (et : Nat) : Nat :=
  match et with
  | 2 => 1 | 3 => 2 | 4 => 4 | 5 => 4 | 8 => 16 | _ => 8

/-- Value t of operand element i (R97, R246). -/
def State.opVal (s : State) (v : BitVec 5) (i t : Nat) : Nat :=
  let b := 64 / opValues s.et
  vGet (s.vimg v.toNat) (8 * i) 8 / 2 ^ (t * b) % 2 ^ b

/-- The scale of value t of element i of an operand (R249): none is a scale of 0xFF, which is NaN. -/
def State.opScale (s : State) (v : BitVec 5) (i t : Nat) : Option Int :=
  if kMx s.core.st.kvtype then
    let e := vGet (s.vimg (v.toNat + 1)) ((opValues s.et * i + t) / 32) 1
    if e = 0xFF then none else some ((e : Int) - 127)
  else some 0

/-- A value moved by its scale's exponent. -/
def FVal.scaled (x : FVal) (k : Int) : FVal :=
  match x with
  | .fin n m e => .fin n m (e + k)
  | y => y

/-- An exact sum of terms rounded once (R97, R90): `nv` says that an invalid case has been met. The sign of a sum of more than two terms that is exactly zero is the sign of its terms only where all of them are zeros of one sign, and follows R88 otherwise. (DEDUCED, log 81) -/
def dotRound (f : Fmt) (mode : Nat) (nv : Bool) (ts : List FVal) : Nat × Flags :=
  let infs := ts.filterMap (fun t => match t with | .inf n => some n | _ => none)
  let clash := infs.contains true && infs.contains false
  if ts.any FVal.isNan || clash || nv then nanOut f (nv || clash || ts.any FVal.isSig)
  else match infs.head? with
  | some n => (f.signed n f.infCode, 0)
  | none =>
    let fin := ts.filterMap (fun t => match t with | .fin n m e => some (n, m, e) | _ => none)
    let zneg := if fin.all (fun t => t.2.1 == 0) && fin.all (fun t => t.1 == (fin.head?.map (·.1)).getD false)
      then (fin.head?.map (·.1)).getD false else mode == 2
    roundDy f mode zneg (fin.foldl (fun a t => dySum a (sgn t.1 t.2.1, t.2.2)) (0, (fin.head?.map (·.2.2)).getD 0))

/-- The update of an FP cell (R97): A element i of va with B element j of vb. -/
def State.fpUpdate (s : State) (a b : BitVec 5) (minus : Bool) (c : Nat) (i j : Nat) : Nat × Flags :=
  let vf := (fmtOf s.et).getD fp64
  let cf := if s.et = 2 then fp64 else fp32
  let ps := (List.range (opValues s.et)).map (fun t =>
    match s.opScale a i t, s.opScale b j t with
    | some x, some y =>
      let p := fMulV (unpack vf (s.opVal a i t)) (unpack vf (s.opVal b j t))
      ((if minus then p.1.neg else p.1).scaled (x + y), p.2)
    | _, _ => (.nan false, true))
  dotRound cf (if s.et = 2 then s.vrm else 0) (ps.any (·.2)) (unpack cf c :: ps.map (·.1))

/-- The update of an int32 cell (R97). -/
def State.intUpdate (s : State) (a b : BitVec 5) (minus : Bool) (c : Nat) (i j : Nat) : Nat :=
  let v := fun (x : Nat) => etInt (s.et == 0) 8 x
  let sum := (List.range 8).foldl (fun z t => z + v (s.opVal a i t) * v (s.opVal b j t)) 0
  wrap 32 ((c : Int) + if minus then -sum else sum)

/-- The type and range check of R243 for MOPA and MOPS. -/
def State.mopOk (s : State) (a b : BitVec 5) : Bool :=
  (decide (2 ≤ s.et) || kSew s.core.st.kvtype == 0)
    && (!kMx s.core.st.kvtype || (decide (a.toNat ≤ 30) && decide (b.toNat ≤ 30)))

/-- MOPA and MOPS (R248, R249): every enabled cell, then the flags of all of them (R247). -/
def State.mop (s : State) (c : BitVec 3) (a b : BitVec 5) (r k : BitVec 3) (minus : Bool) : Out :=
  s.vrun [] (s.mopOk a b) [r, k]
    (let us := (s.cellsOn r k).map (fun (i, j) =>
      let old := s.cellVal c i j
      let u := if s.et ≤ 1 then (s.intUpdate a b minus old i j, 0) else s.fpUpdate a b minus old i j
      ((⟨i, j, u.1, s.cellPsn c i j || (s.vslots a.toNat).getLsbD i || (s.vslots b.toNat).getLsbD j⟩ : CellWrite), u.2))
     .next ((s.putCells c (us.map (·.1))).addFlags (us.foldl (fun f u => f ||| u.2) 0)).finishQ)

/-- MOPA (R248). -/
def execMopa (c : BitVec 3) (a b : BitVec 5) (r k : BitVec 3) (s : State) : Out := s.mop c a b r k false
/-- MOPS (R248). -/
def execMops (c : BitVec 3) (a b : BitVec 5) (r k : BitVec 3) (s : State) : Out := s.mop c a b r k true

/-- MZERO (R250). -/
def execMzero (c r k : BitVec 3) (s : State) : Out :=
  s.vrun [] true [r, k] (.next (s.putCells c ((s.cellsOn r k).map (fun (i, j) => ⟨i, j, 0, false⟩))).finishQ)

/-- The enabled cells of row or column x, with their positions p (R251). -/
def State.lineCells (s : State) (o : BitVec 1) (x : Nat) (r k : BitVec 3) : List (Nat × Nat × Nat) :=
  if 32 ≤ x then []
  else ((List.range 32).map (fun p => if o = 0 then (p, x, p) else (p, p, x))).filter (fun q => s.cellOn r k q.2.1 q.2.2)

/-- MRD (R251). -/
def execMrd (c : BitVec 3) (o : BitVec 1) (a b : BitVec 5) (r k : BitVec 3) (s : State) : Out :=
  s.vrun [b] true [r, k]
    (let ws := ((s.lineCells o (s.reg b).toNat r k).filter (fun q => decide ((q.1 + 1) * s.cw ≤ s.vl * s.w))).map
      (fun q => (⟨q.1 * s.cw, s.cw, s.cellVal c q.2.1 q.2.2, s.cellPsn c q.2.1 q.2.2⟩ : VWrite))
     .next (s.putV a ws).finishQ)

/-- The bytes at position p of a register's front segment, and their poison (R246). -/
def State.frontVal (s : State) (v : BitVec 5) (p : Nat) : Nat := vGet (s.vimg v.toNat) (p * s.cw) s.cw
def State.frontPsn (s : State) (v : BitVec 5) (p : Nat) : Bool := (s.vslots v.toNat).getLsbD (p * s.cw / 8)

/-- MWR (R251). -/
def execMwr (c : BitVec 3) (o : BitVec 1) (a b : BitVec 5) (r k : BitVec 3) (s : State) : Out :=
  s.vrun [b] true [r, k]
    (.next (s.putCells c ((s.lineCells o (s.reg b).toNat r k).map
      (fun q => ⟨q.2.1, q.2.2, s.frontVal a q.1, s.frontPsn a q.1⟩))).finishQ)

/-- What MPATCH add writes (R252). -/
def State.patchAdd (s : State) (old u : Nat) : Nat × Flags :=
  if s.et = 2 then fAdd fp64 s.vrm old u
  else if s.et ≤ 1 then ((old + u) % 2 ^ 32, 0)
  else fAdd fp32 0 old u

/-- MPATCH (R252). -/
def execMpatch (c : BitVec 3) (o : BitVec 1) (a b : BitVec 5) (r k : BitVec 3) (s : State) : Out :=
  s.vrun [b] true [r, k]
    (let us := (s.lineCells 0 (s.reg b).toNat r k).map (fun q =>
      let u := s.frontVal a q.1
      if o = 0 then ((⟨q.2.1, q.2.2, u, s.frontPsn a q.1⟩ : CellWrite), (0 : Flags))
      else
        let x := s.patchAdd (s.cellVal c q.2.1 q.2.2) u
        (⟨q.2.1, q.2.2, x.1, s.frontPsn a q.1 || s.cellPsn c q.2.1 q.2.2⟩, x.2))
     .next ((s.putCells c (us.map (·.1))).addFlags (us.foldl (fun f u => f ||| u.2) 0)).finishQ)

end Sys2Proof.Machine
end

