-- ==== Sys2Proof/Machine/Reduce.lean ====
section
/-!
DEFINITION. Reductions and scans (R98, R99, R189, R190).
-/
namespace Sys2Proof.Machine

/-- Whether an operator is accepted under an ET (R164): 0 add, 1 min, 2 max, 3 minn, 4 maxn, 5 and, 6 or, 7 xor (R121). -/
def redOk (op et : Nat) : Bool := Accepts.ok (.ofOp (decide (op ≤ 2))) et

/-- The identity of an operator (R98, R189). -/
def redIdentity (op n : Nat) (f : Option Fmt) : Nat :=
  match f with
  | some f => if op = 0 then f.signed true 0 else f.signed (op == 2) f.infCode
  | none =>
    match op with
    | 1 => 2 ^ (n - 1) - 1
    | 2 => 2 ^ (n - 1)
    | 3 => 2 ^ n - 1
    | 5 => 2 ^ n - 1
    | _ => 0

/-- The operator on two values (R189): FP rounded in `mode`. -/
def redOp (op n : Nat) (f : Option Fmt) (mode : Nat) (x y : Nat) : Nat × Flags :=
  match f with
  | some f => if op = 0 then fAdd f mode x y else fMinMax f (op == 2) x y
  | none =>
    (match op with
     | 0 => iAdd n x y
     | 1 => iMin n x y
     | 2 => iMax n x y
     | 3 => iMinn n x y
     | 4 => iMaxn n x y
     | 5 => x &&& y
     | 6 => x ||| y
     | _ => x ^^^ y, 0)

/-- The tree of R98 over `2 ^ lvl` positions from `base` on: the value present, with the flags of its combinations. -/
def redTree (op n : Nat) (f : Option Fmt) (mode : Nat) (at_ : Nat → Option Nat) : Nat → Nat → Option Nat × Flags
  | 0, base => (at_ base, 0)
  | lvl + 1, base =>
    match redTree op n f mode at_ lvl base, redTree op n f mode at_ lvl (base + 2 ^ lvl) with
    | (some x, fx), (some y, fy) =>
      let r := redOp op n f mode x y
      (some r.1, fx ||| fy ||| r.2)
    | (some x, fx), (none, fy) => (some x, fx ||| fy)
    | (none, fx), (y, fy) => (y, fx ||| fy)

/-- VRED (R190). -/
def execVred (d a : BitVec 5) (m : BitVec 3) (o : BitVec 4) (s : State) : Out :=
  s.vrun [] (redOk o.toNat s.et) [m]
    (if s.vl = 0 then .next s.finishQ
     else
       let f := fmtOf s.et
       let r := redTree o.toNat s.sewBits f s.vrm (fun i => if s.active m i then some (s.el a s.w i) else none)
         (if s.vl = 1 then 0 else Nat.log2 (s.vl - 1) + 1) 0
       let p := (s.actives m).any (s.elPsn a s.w)
       .next ((s.putV d [⟨0, s.w, r.1.getD (redIdentity o.toNat s.sewBits f), p⟩]).addFlags r.2).finishQ)

/-- VSCAN (R99, R190). -/
def execVscan (d a : BitVec 5) (m : BitVec 3) (o : BitVec 4) (s : State) : Out :=
  s.vrun [] (redOk o.toNat s.et) [m]
    (let f := fmtOf s.et
     let r := (s.actives m).foldl
       (fun (acc : (Nat × Bool) × Flags × List VWrite) i =>
         let x := redOp o.toNat s.sewBits f s.vrm acc.1.1 (s.el a s.w i)
         let p := acc.1.2 || s.elPsn a s.w i
         ((x.1, p), acc.2.1 ||| x.2, ⟨i * s.w, s.w, x.1, p⟩ :: acc.2.2))
       ((redIdentity o.toNat s.sewBits f, false), 0, [])
     .next ((s.putV d r.2.2).addFlags r.2.1).finishQ)

end Sys2Proof.Machine
end

