-- ==== Sys2Proof/Machine/VMem.lean ====
section
/-!
DEFINITION. Vector loads and stores, peer forms and scatter-accumulate (R192–R203, R425, R442), and tiles between accumulators and memory (R253, R254).
-/
namespace Sys2Proof.Machine

/-- Where and why the checks of an instruction stop. -/
structure VStop where
  i : Nat
  grp : Nat
  cause : BitVec 8
  eval : Word
  psna : Option Nat
  hits : List Nat
  deriving DecidableEq, Repr

/-- What the checks of one element find. -/
inductive ECheck where
  | ok (p : Place) (x : Xlat) | stop (cause : BitVec 8) (eval : Word) (psna : Option Nat) (hits : List Nat) | held
  deriving DecidableEq, Repr

/-- Checks 2 to 5 of R195 for one element of w bytes; `psn` says that a store would consume its poison (R197, R254). (DEDUCED, log 18) -/
def State.elCheck (s : State) (acc : Acc) (k : WKind) (va : Word) (w : Nat) (psn : Bool) : ECheck :=
  if va.toNat % w != 0 then .stop 0x05 va none []
  else match s.xlate va w with
  | .fault c g => .stop c va g []
  | .held => .held
  | .at p x =>
    if !x.permits acc s.core.st.kMode || p.isCtl then .stop 0x08 va none []
    else match s.core.st.watchers k va.toNat w with
      | [] => if psn && p.consumes then .stop 0x09 va none [] else .ok p x
      | hs => .stop 0x0A va none hs

/-- The elements that pass, up to the first that does not; `held` when one must wait. -/
structure VScan where
  els : List VEl
  stop : Option VStop
  held : Bool
  deriving DecidableEq, Repr

/-- The checks over elements in order, stopping at the first failure (R195). (DEDUCED, log 18) -/
def scanEls (chk : Nat → ECheck) (grp : Nat → Nat) (va : Nat → Word) : List Nat → VScan
  | [] => ⟨[], none, false⟩
  | i :: r =>
    match chk i with
    | .stop c e g hs => ⟨[], some ⟨i, grp i, c, e, g, hs⟩, false⟩
    | .held => ⟨[], none, true⟩
    | .ok p x =>
      let t := scanEls chk grp va r
      { t with els := ⟨i, grp i, va i, p, x⟩ :: t.els }

/-- The elements of a group in progress: their pages as they were looked up (R425); a peer on this device as it stands now (R49, R442). -/
def replan (chk : Nat → ECheck) : List VEl → VScan
  | [] => ⟨[], none, false⟩
  | e :: r =>
    match (match e.p with | .peer _ _ _ _ => chk e.i | p => .ok p e.x) with
    | .stop c v g hs => ⟨[], some ⟨e.i, e.grp, c, v, g, hs⟩, false⟩
    | .held => ⟨[], none, true⟩
    | .ok p x =>
      let t := replan chk r
      { t with els := { e with p := p, x := x } :: t.els }

/-- Only the groups below a stop take effect. -/
def VScan.kept (a : VScan) : List VEl :=
  match a.stop with
  | none => a.els
  | some st => a.els.filter (fun e => decide (e.grp < st.grp))

/-- Adjacent repetitions removed. -/
def once {α : Type} [DecidableEq α] : List α → List α
  | [] => []
  | a :: r => match once r with
    | [] => [a]
    | b :: t => if a = b then b :: t else a :: b :: t

/-- The translations used are cached or become most recently used: group by group each page once, in the order of its first element (R276, R425). -/
def State.useAll (s : State) (es : List VEl) : State :=
  ((once (es.map (·.grp))).flatMap (fun g => firsts ((es.filter (fun e => e.grp == g)).map (·.x)))).foldl (fun s x => s.useXlat x) s

/-- The lines read at slices, allocating when asked (R279). -/
def State.readAll (s : State) (es : List VEl) (alloc : Bool) : State :=
  (once (es.filterMap (fun e => match e.p with | .slice pa key => some (pa / 64, key) | _ => none))).foldl
    (fun s l => s.readLine l.1 l.2 alloc s.asid) s

/-- What the core in turn has sent to the core of a peer place has not arrived (R14). -/
def State.peerBusy (s : State) (p : Place) : Bool := match p with | .peer _ _ c _ => s.coming s.core.id c | _ => false
/-- An access waits: for the reply of an AMO with AQ 1 (R162), its earlier vector stores (R482), the interlock, or a line whose invalidations are outstanding. (DEDUCED, log 76) -/
def State.elsWait (s : State) (es : List VEl) (n : Nat) (write read : Bool) : Bool :=
  s.acqWait || s.unacked s.core.st.gang s.core.st.rank 8 || es.any (fun e => s.locked e.p n write || (read && s.placeHeld e.p) || s.peerBusy e.p)

/-- The answer that has come for an element. -/
def State.answerOf (s : State) (i : Nat) : Option Answer := s.core.st.answers.find? (fun a => a.idx == i)
/-- Elements of other devices whose answer has not come. -/
def State.missing (s : State) (es : List VEl) : List VEl := es.filter (fun e => e.p.far && (s.answerOf e.i).isNone)
/-- An element's request is outstanding. -/
def State.askedFor (s : State) (i : Nat) : Bool :=
  s.reqs.any (fun r => r.gang == s.core.st.gang && r.rank == s.core.st.rank && (match r.kind with
    | .vec j _ => j == i
    | .vecStore j => j == i
    | _ => false))

/-- Requests sent for the elements that have none outstanding; the instruction waits at its pc (R439). One whose device has been fenced since its checks fails at issue (R442). -/
def State.ask (s : State) (es : List VEl) (send : State → VEl → State) : State :=
  (es.filter (fun e => !s.askedFor e.i)).foldl (fun s e =>
      if s.fenced e.p.dev then s.modSt (fun t => { t with answers := t.answers ++ [⟨e.i, 1, false, 0⟩] })
      else if s.tagsFree e.p.dev = 0 then s else send s e)
    (s.modSt (fun t => if t.asked then t else { t with asked := true, askedAt := s.now }))

/-- READs for elements of other devices; `alloc` as H has it (R279). -/
def State.askReads (s : State) (es : List VEl) (n : Nat) (alloc : Bool) : State :=
  s.ask es (fun s e => s.sendRead e.p n alloc s.core.st.gang s.core.st.rank (.vec e.i n))

/-- Value and poison of an element: from this device now, or from its answer (R361). -/
def State.fetchEl (s : State) (e : VEl) (n : Nat) : Nat × Bool :=
  match s.look e.p n with
  | some g => (g.val, g.psn)
  | none => match s.answerOf e.i with
    | some a => (a.value.toNat % 256 ^ n, a.psn)
    | none => (0, false)

/-- The cause of a lost answer (R270, R442). -/
def lostCause (st : Nat) : BitVec 8 := if st = 1 then 0x0E else 0x07

/-- A lost answer among the elements stops the instruction at its group (R442). -/
def State.lostStop (s : State) (a : VScan) : VScan :=
  match a.kept.find? (fun e => e.p.far && (match s.answerOf e.i with | some x => x.status != 0 | none => false)) with
  | none => a
  | some e => ⟨a.kept, some ⟨e.i, e.grp, lostCause (((s.answerOf e.i).map (·.status)).getD 1), e.va, none, []⟩, false⟩

/-- A group-wise memory instruction ends: completed, or trapped at the group of its stop with HIT set (R195, R257); its lookup there has been made, unless the stop stands before it. -/
def State.endGroups (s : State) (stop : Option VStop) : Out :=
  match stop with
  | none => .next s.finishQ
  | some st =>
    let index := st.cause == 0x09 && st.psna.isNone && st.eval == BitVec.ofNat 64 st.i
    (((if st.cause = 0x05 || index then s else s.walkFault st.eval)).modSt (fun t => t.hit st.hits)).vtrap st.cause st.eval st.grp st.psna

/-- Elements active from the start group on. -/
def State.fromStart (s : State) (m : BitVec 3) : List Nat := (s.actives m).filter (fun i => decide (s.startGroup ≤ eg s.w i))

/-- What an instruction takes up now, and the group that follows where it takes up one alone. -/
structure VPart where
  scan : VScan
  next : Option Nat
  deriving DecidableEq, Repr

/-- The first group above g with an active element. -/
def State.groupAfter (s : State) (m : BitVec 3) (g : Nat) : Option Nat := ((s.fromStart m).map (eg s.w)).find? (fun h => decide (g < h))

/-- The group in progress as it was looked up; every group where all end on this device; else the first alone (R391, R425, R439). -/
def State.part (s : State) (m : BitVec 3) (chk : Nat → ECheck) (va : Nat → Word) : VPart :=
  match s.core.st.prog with
  | some ⟨g, e :: r, _⟩ => ⟨replan chk (e :: r), s.groupAfter m g⟩
  | _ =>
    let a := scanEls chk (eg s.w) va (s.fromStart m)
    if !a.held && !a.kept.any (·.p.far) then ⟨a, none⟩
    else match s.fromStart m with
    | [] => ⟨a, none⟩
    | i :: _ => ⟨scanEls chk (eg s.w) va ((s.fromStart m).filter (fun j => eg s.w j == eg s.w i)), s.groupAfter m (eg s.w i)⟩

/-- The group in progress remembered with its elements (R425). -/
def State.begin (s : State) (es : List VEl) (trim : Option Nat) : State :=
  s.modSt (fun t => { t with prog := some ⟨(es.head?.map (·.grp)).getD 0, es, trim⟩ })
/-- The groups below g are done; g comes next. -/
def State.toGroup (s : State) (g : Nat) : State := s.modSt (fun t => { t with prog := some ⟨g, [], none⟩, answers := [], asked := false })
/-- After some groups: on to the next one, or to the end. -/
def State.goOn (s : State) (stop : Option VStop) (next : Option Nat) : Out :=
  match stop, next with
  | none, some g => .next (s.toGroup g)
  | st, _ => s.endGroups st
/-- The same for a writing instruction: it traps only when what the groups below wrote is performed (R482). -/
def State.goOnW (s : State) (stop : Option VStop) (next : Option Nat) : Out :=
  match stop with
  | some st => if s.unacked s.core.st.gang s.core.st.rank 8 then .next (s.toGroup st.grp) else s.endGroups stop
  | none => s.goOn none next

/-- VLDFF's trim (R198): the first failing element on checks 2 to 5, unless it is the first active one. -/
def State.trims (s : State) (m : BitVec 3) (st : VStop) : Bool :=
  (st.cause == 0x05 || st.cause == 0x07 || st.cause == 0x08 || st.cause == 0x0A) && (s.actives m).head? != some st.i

/-- A vector load's work once its checks are made (R192–R198). -/
def State.vloadGo (s : State) (d : BitVec 5) (m : BitVec 3) (alloc ff : Bool) (q : VPart) : Out :=
  let a := q.scan
  let trim : Option Nat := match a.stop with
    | some st => if ff && s.trims m st then some st.i else none
    | none => s.core.st.prog.bind (·.trim)
  let a' : VScan := if trim.isSome then { a with stop := none } else a
  if a.held || s.elsWait a'.kept s.w false true then .next s
  else match s.missing a'.kept with
  | e :: es => .next ((s.begin a'.kept trim).askReads (e :: es) s.w alloc)
  | [] =>
    let b := s.lostStop a'
    let ws := b.kept.map (fun e => let v := s.fetchEl e s.w; (⟨e.i * s.w, s.w, v.1, v.2⟩ : VWrite))
    let s' := ((s.useAll b.els).readAll b.kept alloc).putV d ws
    match trim, b.stop with
    | some j, none => .next (s'.modSt (fun t => { t with vl := j })).finishQ
    | _, st => s'.goOn st q.next

/-- The address of element i (R193). -/
def State.addrUnit (s : State) (a : BitVec 5) (i : Nat) : Word := s.reg a + BitVec.ofNat 64 (i * s.w)
def State.addrStride (s : State) (a b : BitVec 5) (i : Nat) : Word := s.reg a + BitVec.ofNat 64 i * s.reg b
def State.addrIdx (s : State) (a b : BitVec 5) (i : Nat) : Word := s.reg a + s.idxVal b i

/-- R195's checks of one element: `idx` is the first index register where there is one. -/
def State.vchk (s : State) (acc : Acc) (k : WKind) (va : Nat → Word) (idx : Option (BitVec 5)) (psn : Nat → Bool) (i : Nat) : ECheck :=
  if (match idx with | some b => s.idxPsn b i | none => false) then .stop 0x09 (BitVec.ofNat 64 i) none []
  else s.elCheck acc k (va i) s.w (psn i)
/-- R195's checks over the elements that an instruction takes up now. -/
def State.vscan (s : State) (m : BitVec 3) (acc : Acc) (k : WKind) (va : Nat → Word) (idx : Option (BitVec 5)) (psn : Nat → Bool) : VPart :=
  s.part m (s.vchk acc k va idx psn) va

/-- The index registers lie below v32 and, for a load, apart from vd (R193). -/
def State.idxOk (s : State) (b : BitVec 5) (d : Option (BitVec 5)) : Bool :=
  decide (b.toNat + s.idxRegs ≤ 32) && (match d with
    | none => true
    | some d => !(decide (b.toNat ≤ d.toNat) && decide (d.toNat < b.toNat + s.idxRegs)) || (s.idxRegs == 1 && d == b))

/-- VLD (R192, R195). -/
def execVld (d a : BitVec 5) (m : BitVec 3) (h : BitVec 1) (s : State) : Out :=
  s.vrun [a] true [m] (s.vloadGo d m (h == 1) false (s.vscan m .load wLoad (s.addrUnit a) none (fun _ => false)))
/-- VLDS (R192, R195). -/
def execVlds (d a b : BitVec 5) (m : BitVec 3) (h : BitVec 1) (s : State) : Out :=
  s.vrun [a, b] true [m] (s.vloadGo d m (h == 1) false (s.vscan m .load wLoad (s.addrStride a b) none (fun _ => false)))
/-- VLDX (R192, R195). -/
def execVldx (d a b : BitVec 5) (m : BitVec 3) (h : BitVec 1) (s : State) : Out :=
  s.vrun [a] (s.idxOk b (some d)) [m] (s.vloadGo d m (h == 1) false (s.vscan m .load wLoad (s.addrIdx a b) (some b) (fun _ => false)))
/-- VLDFF (R198). -/
def execVldff (d a : BitVec 5) (m : BitVec 3) (h : BitVec 1) (s : State) : Out :=
  s.vrun [a] true [m] (s.vloadGo d m (h == 1) true (s.vscan m .load wLoad (s.addrUnit a) none (fun _ => false)))

/-- Unordered elements that write the same bytes: each later one takes them or leaves them (R196, log 8). -/
def State.orderEls (s : State) : List VEl → List Place → List VEl × State
  | [], _ => ([], s)
  | e :: r, seen =>
    if seen.contains e.p then
      let (c, s) := s.choose 2
      let (l, s') := State.orderEls s r seen
      (if c = 0 then e :: l else l, s')
    else
      let (l, s') := State.orderEls s r (e.p :: seen)
      (e :: l, s')

/-- The chunks that the kept elements of each group form, group by group. -/
def groupChunks (me n : Nat) (val : VEl → Nat × Bool) (es : List VEl) : List Chunk :=
  (once (es.map (·.grp))).flatMap (fun g =>
    gather ((es.filter (fun e => e.grp == g)).filterMap (fun e => e.p.chunk me n (val e).1 (val e).2)))

/-- The elements of a store below the group from which it resumes (R262, R391): one store wrote them too. (DEDUCED, log 74) -/
def State.below (s : State) (m : BitVec 3) (va : Nat → Word) : List VEl :=
  ((s.actives m).filter (fun i => decide (eg s.w i < s.startGroup))).filterMap (fun i =>
    match s.xlate (va i) s.w with
    | .at p x => some ⟨i, eg s.w i, va i, p, x⟩
    | _ => none)

/-- A plain vector store's work once its checks are made (R194, R196, R197). Elements with an answer have been performed before what was held behind the store (R300, R380). -/
def State.vstoreGo (s : State) (d : BitVec 5) (m : BitVec 3) (va : Nat → Word) (strided : Bool) (q : VPart) : Out :=
  let a := q.scan
  let chunksOf := groupChunks s.core.id s.w (fun e => (s.el d s.w e.i, s.elPsn d s.w e.i))
  if a.held || s.elsWait a.kept s.w true false then .next s
  else
    let (es, s1) := if strided then s.orderEls a.kept [] else (a.kept, s)
    let cs := chunksOf (es.filter (fun e => (s.answerOf e.i).isNone))
    if !s.tagsFor cs then .next s
    else
      let t := s.core.st
      ((cs.foldl (fun s c => s.putChunk s.asid t.gang t.rank 8 c) (s1.useAll a.els)).clearWhole (chunksOf (s.below m va ++ es))).goOnW a.stop q.next

/-- VST (R192, R195). -/
def execVst (d a : BitVec 5) (m : BitVec 3) (h : BitVec 1) (s : State) : Out :=
  s.vrun [a] true [m] (s.vstoreGo d m (s.addrUnit a) false (s.vscan m .store wStore (s.addrUnit a) none (fun i => h == 0 && s.elPsn d s.w i)))
/-- VSTS (R192, R195). -/
def execVsts (d a b : BitVec 5) (m : BitVec 3) (h : BitVec 1) (s : State) : Out :=
  s.vrun [a, b] true [m] (s.vstoreGo d m (s.addrStride a b) true (s.vscan m .store wStore (s.addrStride a b) none (fun i => h == 0 && s.elPsn d s.w i)))
/-- VSTX (R192, R195). -/
def execVstx (d a b : BitVec 5) (m : BitVec 3) (h : BitVec 1) (s : State) : Out :=
  s.vrun [a] (s.idxOk b none) [m] (s.vstoreGo d m (s.addrIdx a b) true (s.vscan m .store wStore (s.addrIdx a b) (some b) (fun i => h == 0 && s.elPsn d s.w i)))

/-- VSTXO's elements one at a time (R196): each is performed before the next starts, so it stops where one awaits acknowledgement. The elements done of the group in progress are remembered as answers; a group's pages are looked up once (R425). (DEDUCED, log 74) -/
def State.ordered (s : State) (d : BitVec 5) (q : VPart) (all : List Chunk) : List VEl → Out
  | [] => (s.clearWhole all).goOnW q.scan.stop q.next
  | e :: r =>
    let t := s.core.st
    let wait := s.begin (q.scan.kept.filter (fun x => x.grp == e.grp)) none
    if (s.answerOf e.i).isSome then State.ordered s d q all r
    else if s.unacked t.gang t.rank 8 then .next (wait.modSt (fun u => { u with askedAt := if t.prog.any (fun p => !p.els.isEmpty) then t.askedAt else s.now }))
    else match e.p.chunk s.core.id s.w (s.el d s.w e.i) (s.elPsn d s.w e.i) with
      | none => State.ordered s d q all r
      | some c =>
        if !s.tagsFor [c] then .next wait
        else
          State.ordered ((s.putChunk s.asid t.gang t.rank 8 c).modSt
            (fun t => { t with answers := t.answers ++ [⟨e.i, 0, false, 0⟩] })) d q all r

/-- VSTXO (R192, R196). -/
def execVstxo (d a b : BitVec 5) (m : BitVec 3) (h : BitVec 1) (s : State) : Out :=
  s.vrun [a] (s.idxOk b none) [m]
    (let q := s.vscan m .store wStore (s.addrIdx a b) (some b) (fun i => h == 0 && s.elPsn d s.w i)
     let es := q.scan.kept
     if q.scan.held || s.acqWait || es.any (fun e => s.locked e.p s.w true || s.peerBusy e.p) || (s.core.st.answers.isEmpty && s.unacked s.core.st.gang s.core.st.rank 8) then .next s
     else
       (s.useAll q.scan.els).ordered d q
         ((s.below m (s.addrIdx a b) ++ es).filterMap (fun e => e.p.chunk s.core.id s.w (s.el d s.w e.i) (s.elPsn d s.w e.i))) es)

/-- Where a peer address leads (R199): a place, a failing element, or a parked target. -/
inductive PeerAt where
  | at (p : Place) | fails | held
  deriving DecidableEq, Repr

/-- A peer address resolved for n bytes as far as this device can test it (R199, R362). `multi` allows multicast groups. -/
def State.peerAt (s : State) (a : Word) (n align : Nat) : PeerAt :=
  let x := a.toNat
  let dev := bits x 56 48
  let rank := bits x 47 32
  let off := bits x 18 0
  if bits x 63 57 != 0 || bits x 31 19 != 0 || off % align != 0 || 0xFE00 ≤ rank then .fails
  else if !s.isHere dev then
    if s.fenced dev || 0x80000 < off + n then .fails else .at (.farPad dev rank off)
  else match s.myGang with
    | none => .fails
    | some g => match s.peerIn g rank off n with
      | .at gi r c o => .at (.peer gi r c o)
      | .held => .held
      | _ => .fails

/-- An element of a peer form. -/
structure PEl where
  i : Nat
  at_ : PeerAt
  deriving DecidableEq, Repr

/-- Fault-mask bits written, the others kept (R199, R213, R216). -/
def State.putF (s : State) (f : BitVec 3) (bs : List (Nat × Bool)) : State := s.putM f bs

/-- Where a peer element leads: as looked up for the group in progress where that is another device, else now. -/
def State.peerOf (s : State) (a b : BitVec 5) (i : Nat) : PeerAt :=
  match s.core.st.prog.bind (fun p => p.els.find? (fun e => e.i == i)) with
  | some e => .at e.p
  | none => s.peerAt (s.addrIdx a b i) s.w s.w

/-- What a peer form takes up now: its elements, why it stops, and the group that follows. -/
structure PPart where
  els : List PEl
  stop : Option VStop
  next : Option Nat
  deriving DecidableEq, Repr

/-- The checks of a peer form's elements, in their order (R195 check 1, R197, R199): a poisoned index, and a poisoned datum for another device. (DEDUCED, log 18) -/
def State.peerEls (s : State) (a b : BitVec 5) (psn : Nat → Bool) (es : List Nat) : List PEl × Option VStop :=
  let bad := fun (i : Nat) =>
    if s.idxPsn b i then some (BitVec.ofNat 64 i)
    else if psn i && (match s.peerOf a b i with | .at p => p.consumes | _ => false) then some (s.addrIdx a b i)
    else none
  let el := fun (i : Nat) => (⟨i, s.peerOf a b i⟩ : PEl)
  match es.find? (fun i => (bad i).isSome) with
  | none => (es.map el, none)
  | some j => ((es.filter (fun i => decide (eg s.w i < eg s.w j))).map el, some ⟨j, eg s.w j, 0x09, (bad j).getD 0, none, []⟩)

/-- An element that goes to another device. -/
def PEl.isFar (e : PEl) : Bool := match e.at_ with | .at p => p.far | _ => false

/-- The elements of a peer form that are taken up now: every group where all end on this device; else the first alone. (DEDUCED, log 18) -/
def State.peerScan (s : State) (a b : BitVec 5) (m : BitVec 3) (psn : Nat → Bool) : PPart :=
  let r := s.peerEls a b psn (s.fromStart m)
  if !r.1.any PEl.isFar then ⟨r.1, r.2, none⟩
  else match s.fromStart m with
  | [] => ⟨r.1, r.2, none⟩
  | i :: _ =>
    let r := s.peerEls a b psn ((s.fromStart m).filter (fun j => eg s.w j == eg s.w i))
    ⟨r.1, r.2, s.groupAfter m (eg s.w i)⟩

/-- The elements as VEl, for the requests. -/
def PEl.far? (w : Nat) (e : PEl) : Option VEl :=
  match e.at_ with
  | .at p => if p.far then some ⟨e.i, eg w e.i, 0, p, windowXlat⟩ else none
  | _ => none

/-- A peer form waits: a parked target, the interlock, an AMO with AQ 1, earlier vector stores (R49, R162, R233, R482). -/
def State.peerWait (s : State) (es : List PEl) (write : Bool) : Bool :=
  s.acqWait || s.unacked s.core.st.gang s.core.st.rank 8 || es.any (fun e => match e.at_ with
    | .held => true
    | .at p => s.locked p s.w write || s.peerBusy p
    | .fails => false)

/-- The fault bit of an element (R199, R442). -/
def State.peerBit (s : State) (e : PEl) : Bool :=
  match e.at_ with
  | .at p => if p.far then (match s.answerOf e.i with | some x => x.status != 0 | none => true) else false
  | _ => true

/-- VLDXP (R199). -/
def execVldxp (d a b : BitVec 5) (m f : BitVec 3) (_h : BitVec 1) (s : State) : Out :=
  s.vrun [a] (s.idxOk b (some d)) [m]
    (let q := s.peerScan a b m (fun _ => false)
     let far := q.els.filterMap (PEl.far? s.w)
     if s.peerWait q.els false then .next s
     else match s.missing far with
     | e :: es => .next ((s.begin far none).askReads (e :: es) s.w false)
     | [] =>
       let ws := q.els.filterMap (fun e => match e.at_ with
         | .at p =>
           if s.peerBit e then none
           else
             let v := s.fetchEl ⟨e.i, 0, 0, p, windowXlat⟩ s.w
             some (⟨e.i * s.w, s.w, v.1, v.2⟩ : VWrite)
         | _ => none)
       ((s.putV d ws).putF f (q.els.map (fun e => (e.i, s.peerBit e)))).goOn q.stop q.next)

/-- The elements of a peer form that stay on this device. -/
def PEl.near? (w : Nat) (e : PEl) : Option VEl :=
  match e.at_ with
  | .at p => if p.far then none else some ⟨e.i, eg w e.i, 0, p, windowXlat⟩
  | _ => none

/-- VSTXP (R199): elements for other devices are written there first, and their answers give the fault bits. -/
def execVstxp (d a b : BitVec 5) (m f : BitVec 3) (h : BitVec 1) (s : State) : Out :=
  s.vrun [a] (s.idxOk b none) [m]
    (let q := s.peerScan a b m (fun i => h == 0 && s.elPsn d s.w i)
     let far := q.els.filterMap (PEl.far? s.w)
     if s.peerWait q.els true then .next s
     else match s.missing far with
     | e :: es => .next ((s.begin far none).ask (e :: es) (fun s x =>
         s.sendWrite x.p s.w (s.el d s.w x.i) (b2n (s.elPsn d s.w x.i)) s.asid s.core.st.gang s.core.st.rank (.vecStore x.i)))
     | [] =>
       let chunksOf := groupChunks s.core.id s.w (fun e => (s.el d s.w e.i, s.elPsn d s.w e.i))
       let (es, s1) := s.orderEls (q.els.filterMap (PEl.near? s.w)) []
       let cs := chunksOf es
       let done := ((s.actives m).filter (fun i => decide (eg s.w i < s.startGroup))).filterMap (fun i => PEl.near? s.w ⟨i, s.peerAt (s.addrIdx a b i) s.w s.w⟩)
       let t := s.core.st
       (((cs.foldl (fun s c => s.putChunk s.asid t.gang t.rank 8 c) s1).clearWhole (chunksOf done ++ cs)).putF f
         (q.els.map (fun e => (e.i, s.peerBit e)))).goOnW q.stop q.next)

/-- VSCA's element types (R201). -/
def State.scaOk (s : State) : Bool :=
  match s.et with
  | 0 => decide (2 ≤ kSew s.core.st.kvtype)
  | 1 => decide (2 ≤ kSew s.core.st.kvtype)
  | 2 => true
  | 3 => true
  | _ => false

/-- The operator of R121 that VSCA's tree uses: signedness by ET (R201). -/
def scaRed (op et : Nat) : Nat := if op = 0 then 0 else if et = 1 then op + 2 else op

/-- One update that leaves the core (R202): its place, its address, the run's tree, its poison. -/
structure Upd where
  e : VEl
  val : Nat
  psn : Bool
  deriving DecidableEq, Repr

/-- Sort-and-segment over one group (R202): runs of equal address in ascending order, each reduced by the tree of R98. -/
def State.segment (s : State) (d : BitVec 5) (op : Nat) (es : List VEl) : List Upd × Flags :=
  let vas := (es.map (fun e => e.va.toNat)).mergeSort (fun a b => decide (a ≤ b))
  (once vas).foldl (fun (acc : List Upd × Flags) va =>
    let run := es.filter (fun e => e.va.toNat == va)
    match run with
    | [] => acc
    | e :: _ =>
      let k := run.length
      let tr := redTree (scaRed op s.et) s.sewBits (fmtOf s.et) s.vrm (fun i => (run[i]?).map (fun e => s.el d s.w e.i))
        (if k = 1 then 0 else Nat.log2 (k - 1) + 1) 0
      (acc.1 ++ [⟨e, tr.1.getD 0, run.any (fun e => s.elPsn d s.w e.i)⟩], acc.2 ||| tr.2)) ([], 0)

/-- fn10 of an update sent to another device: the AMO's code for integers, codes 10 to 12 with KVTYPE.RM in [5:4] for FP (DEDUCED, log 16). -/
def scaFn (op et w mode : Nat) : Nat :=
  (if w = 4 then 512 else 0) + (match et with
    | 0 => if op = 0 then 0 else if op = 1 then 4 else 5
    | 1 => if op = 0 then 0 else if op = 1 then 6 else 7
    | _ => mode * 16 + 10 + op)

/-- One update applied at its owner, or sent to it (R202, R203). -/
def State.applyUpd (s : State) (op : Nat) (u : Upd) : State :=
  let t := s.core.st
  if u.e.p.far then s.sendAtomic u.e.p 8 u.val (scaFn op s.et s.w s.vrm) t.gang t.rank (.store 8)
  else (s.atomicAt u.e.p s.w (fun old => some (scaNew op s.et s.w s.vrm old u.val)) u.psn s.asid t.gang t.rank 8).2

/-- VSCA (R201–R203). -/
def execVsca (d a b : BitVec 5) (m : BitVec 3) (o : BitVec 2) (s : State) : Out :=
  s.vrun [a] (s.scaOk && s.idxOk b none) [m]
    (let q := s.vscan m .store wStore (s.addrIdx a b) (some b) (fun i => s.elPsn d s.w i)
     let es := q.scan.kept
     let far := es.filter (fun e => e.p.far)
     if q.scan.held || s.elsWait es s.w true true
       || far.any (fun e => decide (s.tagsFree e.p.dev < (far.filter (fun x => x.p.dev == e.p.dev)).length)) then .next s
     else
       let us := (once (es.map (·.grp))).map (fun g => s.segment d o.toNat (es.filter (fun e => e.grp == g)))
       let s' := us.foldl (fun s u => u.1.foldl (fun s x => s.applyUpd o.toNat x) s) (s.useAll q.scan.els)
       (s'.addFlags (us.foldl (fun f u => f ||| u.2) 0)).goOnW q.scan.stop q.next)

/-- Address of cell (i, j) in memory (R253): pitch signed, addresses wrap. -/
def State.cellAddr (s : State) (o : BitVec 1) (a b : BitVec 5) (i j : Nat) : Word :=
  let r := if o = 0 then i else j
  let c := if o = 0 then j else i
  s.reg a + BitVec.ofNat 64 r * s.reg b + BitVec.ofNat 64 (c * s.cw)

/-- The checks of MLDT and MSTT over every enabled cell (R254); cell (i, j) is element 32·i + j, all in group 0. Once begun, the cells are as they were looked up (R425). -/
def State.cellScan (s : State) (o : BitVec 1) (a b : BitVec 5) (r k : BitVec 3) (acc : Acc) (w : WKind) (psn : Nat → Nat → Bool) : VScan :=
  let chk := fun n => s.elCheck acc w (s.cellAddr o a b (n / 32) (n % 32)) s.cw (psn (n / 32) (n % 32))
  match s.core.st.prog with
  | some ⟨_, e :: l, _⟩ => replan chk (e :: l)
  | _ => scanEls chk (fun _ => 0) (fun n => s.cellAddr o a b (n / 32) (n % 32)) ((s.cellsOn r k).map (fun c => 32 * c.1 + c.2))

/-- MLDT (R253, R254): whole, or not at all. -/
def execMldt (c : BitVec 3) (o : BitVec 1) (a b : BitVec 5) (r k : BitVec 3) (s : State) : Out :=
  s.vrun [a, b] true [r, k]
    (let v := s.cellScan o a b r k .load wLoad (fun _ _ => false)
     match v.stop with
     | some st => s.endGroups (some st)
     | none =>
       if v.held || s.elsWait v.els s.cw false true then .next s
       else match s.missing v.els with
       | e :: es => .next ((s.begin v.els none).askReads (e :: es) s.cw false)
       | [] =>
         match (s.lostStop v).stop with
         | some st => s.endGroups (some st)
         | none =>
           let ws := v.els.map (fun e => let x := s.fetchEl e s.cw; (⟨e.i / 32, e.i % 32, x.1, x.2⟩ : CellWrite))
           .next (((s.useAll v.els).readAll v.els false).putCells c ws).finishQ)

/-- MSTT (R253, R254). -/
def execMstt (c : BitVec 3) (o : BitVec 1) (a b : BitVec 5) (r k : BitVec 3) (s : State) : Out :=
  s.vrun [a, b] true [r, k]
    (let v := s.cellScan o a b r k .store wStore (fun i j => s.cellPsn c i j)
     match v.stop with
     | some st => s.endGroups (some st)
     | none =>
       if v.held || s.elsWait v.els s.cw true false then .next s
       else
         let (es, s1) := s.orderEls v.els []
         let cs := groupChunks s.core.id s.cw (fun e => (s.cellVal c (e.i / 32) (e.i % 32), s.cellPsn c (e.i / 32) (e.i % 32))) es
         if !s.tagsFor cs then .next s
         else
           let t := s.core.st
           .next ((cs.foldl (fun s c => s.putChunk s.asid t.gang t.rank 8 c) (s1.useAll v.els)).clearWhole cs).finishQ)

end Sys2Proof.Machine
end

