-- ==== Sys2Proof/Machine/TileInstr.lean ====
section
/-!
DEFINITION. Tile instructions (R206–R217).
-/
namespace Sys2Proof.Machine

/-- A tile address checked (R207): the offset in the core's scratchpad, or the check that failed; a valid translation of any other memory type gives 0x08, whatever has become of its target. -/
def State.tileOff (s : State) (va : Word) (acc : Acc) : Except Chk Nat :=
  if va.toNat % 256 != 0 then .error (.trap 0x05 va none)
  else match s.typed va 256 with
  | .fault c g => .error (.trap c va g)
  | .held => .error .stall
  | .at p x => match p with
    | .local_ off => if x.permits acc s.core.st.kMode then .ok off else .error (.trap 0x08 va none)
    | _ => .error (.trap 0x08 va none)

/-- A tile address used: the instruction goes on with the offset, waits, or traps. (DEDUCED, log 47) -/
def State.withTile (s : State) (va : Word) (acc : Acc) (k : Nat → Out) : Out :=
  match s.tileOff va acc with
  | .ok off => k off
  | .error .stall => .next s
  | .error c => (if va.toNat % 256 = 0 then s.walkFault va else s).given c (.next s)

/-- An offset in the scratchpad as an offset in the strand's allotment. -/
def State.inAllot (s : State) (off : Nat) : Nat := off - s.core.st.allotBase

/-- Suspension is refused in K mode and in a handler (R77). -/
def State.mayNotSuspend (s : State) : Bool := s.core.st.kMode || s.core.st.uin

/-- Consecutive tiles from one that are full and not armed, at most n (R211). -/
def Core.fullRun (k : Core) (idx : Nat) : Nat → Nat
  | 0 => 0
  | n + 1 => if (k.tile idx).full && !(k.tile idx).armed then 1 + k.fullRun (idx + 1) n else 0

/-- Tiles emptied by a TLDF, and the fills that waited for them admitted (R210, R211). -/
def State.emptyTiles (s : State) (idx n : Nat) : State :=
  ((List.range n).map (· + idx)).foldl
    (fun s i => (s.modCore (fun k => k.modTile i (fun t => { t with full := false }))).letIn s.core.id i Config.overrunMax) s

/-- A TLDF's step on the tags: `off` is the first tile, n the tiles of VL, m those inside the allotment (R211). -/
def State.tldfGo (s : State) (d a : BitVec 5) (mk : BitVec 3) (off n m : Nat) : Out :=
  let f := s.core.fullRun (off / 256) m
  if f = 0 then
    (if s.mayNotSuspend then .next (s.trap 0x0C (s.reg a) 0)
     else s.given (s.chkK [0x003]) (.next (s.suspend (.tile (off / 256)) s.core.st.klm s.core.st.pc s.core.st.pc)))
  else
    let s1 := if f < n then s.modSt (fun t => { t with vl := f * 256 / s.w }) else s
    let ws := (s1.actives mk).map (fun i =>
      let o := off + i * s.w
      (⟨i * s.w, s.w, s.core.padGet o s.w, s.core.padPsnIn o s.w⟩ : VWrite))
    .next (((s1.putV d ws).emptyTiles (off / 256) f).finishQ)

/-- TLDF (R207, R211). -/
def execTldf (d a : BitVec 5) (mk : BitVec 3) (s : State) : Out :=
  s.vrun [a] true [mk]
    (s.withTile (s.reg a) .load (fun off =>
      let n := ceilDiv (s.vl * s.w) 256
      let m := min n ((s.core.st.allotSize - s.inAllot off) / 256)
      match s.core.st.watchers wLoad (s.reg a).toNat (256 * m) with
      | h :: hs => .next ((s.modSt (fun t => t.hit (h :: hs))).trap 0x0A (s.core.st.firstWatch wLoad (s.reg a).toNat (256 * m)) 0)
      | [] =>
        if n = 0 then .next s.finishQ
        else if s.acqWait || s.unacked s.core.st.gang s.core.st.rank 8 || s.lockedAt (s.inAllot off) (256 * m) false then .next s
        else s.tldfGo d a mk off n m))

/-- A tag operation: its operands, its address, the interlock, an AMO with AQ 1 and the vector stores before it (R207, R218, R233, R305, R482). -/
def State.tagOp (s : State) (regs : List (BitVec 5)) (a : BitVec 5) (acc : Acc) (k : Nat → Out) : Out :=
  s.given (s.chkRegs regs) (s.withTile (s.reg a) acc (fun off =>
    if s.acqWait || s.lockedAt (s.inAllot off) 256 true || s.unacked s.core.st.gang s.core.st.rank 8 then .next s else k (off / 256)))

/-- TWAIT (R212). (DEDUCED, log 47) -/
def execTwait (a : BitVec 5) (s : State) : Out :=
  s.tagOp [a] a .load (fun i =>
    let t := s.core.tile i
    if t.full && !t.armed then .next s.finishQ
    else if s.mayNotSuspend then .next (s.trap 0x0C (s.reg a) 0)
    else s.given (s.chkK [0x003]) (.next (s.suspend (.tile i) s.core.st.klm (s.core.st.pc + 4) s.core.st.pc)))

/-- TSTAT (R209). -/
def execTstat (d a : BitVec 5) (s : State) : Out :=
  s.tagOp [a] a .load (fun i => .next (s.setReg d (s.core.tagWord i)).finishQ)

/-- TSET's change to a tile (R210); `h` is the handle when BIND is 1. -/
def Tile.set (t : Tile) (b : Word) (h : BitVec 32) : Tile :=
  let t := if b.getLsbD 1 then { t with armed := false, cnt := 0, cnt0 := 0, op := 0, absent := 0, slots := [] } else t
  let t := if b.getLsbD 2 then { t with bound := if h = 0 then none else some h } else t
  { t with full := b.getLsbD 0 }

/-- TSET (R208, R210): a tile set full wakes its waiters, one set empty admits the oldest fill. -/
def execTset (a b : BitVec 5) (s : State) : Out :=
  s.tagOp [a, b] a .store (fun i =>
    let v := s.reg b
    let h := v.extractLsb' 32 32
    if (s.core.tile i).armed && !v.getLsbD 1 then .next (s.trap 0x14 (s.reg a) 0)
    else if v.getLsbD 2 && h != 0 && !isHandle h then .next (s.trap 0x0C (h.setWidth 64) 0)
    else
      let s1 := s.modCore (fun k => k.modTile i (fun t => t.set v h))
      .next (if v.getLsbD 0 then s1.wakeTile s.core.id i else s1.letIn s.core.id i Config.overrunMax).finishQ)

/-- TARM's misuse (R208). -/
def State.armBad (s : State) (i : Nat) (v : Word) : Bool :=
  let n := bits v.toNat 4 0
  let t := s.core.tile i
  n == 0 || decide (16 < n) || v.getLsbD 7 || t.full || t.armed || decide (Config.armedMax ≤ s.core.tiles.countP (·.armed))

/-- TARM (R208, R215). -/
def execTarm (a b : BitVec 5) (s : State) : Out :=
  s.tagOp [a, b] a .store (fun i =>
    let v := s.reg b
    if s.armBad i v then .next (s.trap 0x14 (s.reg a) 0)
    else
      let n := bits v.toNat 4 0
      let s1 := s.modCore (fun k => k.modTile i (fun t =>
        { t with armed := true, cnt0 := n, cnt := n, op := bits v.toNat 6 5, absent := 0, slots := [] }))
      .next ((s1.present s.core.id i Config.overrunMax).finishQ))

/-- The runs of bytes in which a tile's writes go to another device, each within one 64-byte granule, or the whole tile (R213, R360). -/
def tileRuns (mask : Nat) : List (Nat × Nat) :=
  if mask = 2 ^ 256 - 1 then [(0, 256)]
  else (List.range 4).flatMap (fun g => (runs (mask / 2 ^ (64 * g)) 64 0).map (fun r => (64 * g + r.1, r.2)))

/-- A fill as it goes to another device: its first run of bytes, with the runs that follow it; a tile without a byte sends its last-beat flag alone. -/
def Arrival.split (a : Arrival) : Arrival :=
  match tileRuns a.mask.toNat with
  | [] => { a with mask := 0, last := true, rest := [] }
  | r :: rs => { a with mask := BitVec.ofNat 256 ((2 ^ r.2 - 1) * 2 ^ r.1), last := rs.isEmpty, rest := rs }

/-- Where a filling store's or contribution's peer address leads (R199): a rank of this device, another device's rank, a multicast group, nowhere; or a parked target. -/
inductive FillAt where
  | here (gang rank off : Nat) | far (dev rank off : Nat) | cast (group off : Nat) | fails | held
  deriving DecidableEq, Repr

/-- A peer address of a tile resolved (R199, R362); `multi` allows multicast groups whose member DEV names, where that device can be reached. -/
def State.fillAt (s : State) (a : Word) (multi : Bool) : FillAt :=
  let x := a.toNat
  let rank := bits x 47 32
  let dev := bits x 56 48
  if multi && decide (0xFE00 ≤ rank) then
    if bits x 63 57 != 0 || bits x 31 19 != 0 || x % 256 != 0
      || !(s.castMembers (rank - 0xFE00)).contains (if s.isHere dev then s.kdev else dev)
      || (!s.isHere dev && s.fenced dev) then .fails
    else .cast (rank - 0xFE00) (bits x 18 0)
  else match s.peerAt a 256 256 with
  | .fails => .fails
  | .held => .held
  | .at p => match p with
    | .peer g r _ _ => .here g r (bits x 18 0)
    | .farPad d r off => .far d r off
    | _ => .fails

/-- The arrivals of one tile or contribution on their way; none while tags are lacking or another fill of this device owns the tile. -/
def State.fillGo (s : State) (at_ : FillAt) (a : Arrival) : Option State :=
  let t := s.core.st
  let a := { a with unit := s.core.id }
  let f := if a.combine then a else a.split
  match at_ with
  | .here g r off => some ((s.modXfer a.xfer (fun x => { x with waiting := x.waiting + 1 })).sendArrival { a with gang := g, rank := r, off := off } s.asid t.gang t.rank)
  | .far d r off =>
    if s.tagsFree d = 0 || (!a.combine && s.fillUnder d r off a.xfer) then none
    else some ((s.modXfer a.xfer (fun x => { x with waiting := x.waiting + 1 })).sendArrival { f with rank := r, off := off, toDev := d } s.asid t.gang t.rank)
  | .cast g off => s.sendCast g { f with off := off } s.asid t.gang t.rank
  | _ => some s

/-- Bytes, mask and poison that a TSTF sends for tile t of vs (R213). -/
def State.tileImage (s : State) (d : BitVec 5) (mk : BitVec 3) (t : Nat) : Nat × Nat × Nat :=
  (s.actives mk).foldl (fun (r : Nat × Nat × Nat) i =>
    if eg s.w i = t then
      let o := i * s.w % 256
      (r.1 + s.el d s.w i * 256 ^ o, r.2.1 + (2 ^ s.w - 1) * 2 ^ o,
       if s.elPsn d s.w i && !bit r.2.2 (o / 64) then r.2.2 + 2 ^ (o / 64) else r.2.2)
    else r) (0, 0, 0)

/-- A transfer of the strand in the slot as it is accepted: kind, bytes, fault mask, failing parts. -/
def State.newXfer (s : State) (kind total mf : Nat) (fbits : BitVec 16) : Xfer where
  id := s.nextId
  kind := kind
  gang := s.core.st.gang
  rank := s.core.st.rank
  segs := []
  total := total
  done := 0
  handle := none
  mf := mf
  hasPeer := false
  filling := false
  group := 0
  waiting := 0
  fbits := fbits
  failed := false
  cut := false
  late := false
  xlats := []
  packet := 0
  asid := s.asid
  landed := []
  base := 0
  va := 0

/-- A transfer put among the accepted ones. -/
def State.addXfer (s : State) (x : Xfer) : State := { s with xfers := s.xfers ++ [x], nextId := s.nextId + 1 }

/-- A transfer with nothing to wait for completes at once. -/
def State.finishIfDone (s : State) (id : Nat) : State :=
  match s.xfer? id with
  | some x => if x.segs.isEmpty && x.waiting == 0 then s.xferFinish x else s
  | none => s

/-- The tiles of a TSTF that lie in the issuer's own allotment: first byte and end (R213). -/
def State.ownTiles (s : State) (ats : List FillAt) : Nat × Nat :=
  let offs := ats.filterMap (fun f => match f with
    | .here g r off => if g == s.core.st.gang && r == s.core.st.rank then some off else none
    | _ => none)
  match offs with
  | [] => (0, 0)
  | o :: os => (os.foldl min o, os.foldl max o + 256)

/-- A scalar store of the strand to a range of its own allotment has not left yet: a transfer of that range waits for it (R233, R300). -/
def State.ownStored (s : State) (lo hi : Nat) : Bool :=
  (s.core.sb ++ s.core.st.heldOps).any (fun e => e.kind == 2 && e.gang == s.core.st.gang && e.unit == s.core.st.rank
    && decide (e.addr < hi) && decide (lo < e.addr + e.n))

/-- TSTF (R213): accepted as an engine transfer, its tiles sent; a failing tile sends nothing and sets its fault bit. -/
def execTstf (d a : BitVec 5) (m f : BitVec 3) (s : State) : Out :=
  s.vrun [a] true [m]
    (let n := ceilDiv (s.vl * s.w) 256
     let ats := (List.range n).map (fun t => s.fillAt (s.reg a + BitVec.ofNat 64 (256 * t)) true)
     let own := s.ownTiles ats
     if ats.contains .held || !s.engineRoom 1 || s.lockedAt own.1 (own.2 - own.1) true || s.acqWait || s.ownStored own.1 own.2 then .next s
     else
       let fb := (List.range n).foldl (fun b t => if ats[t]? == some .fails then b ||| (1#16 <<< t) else b) 0#16
       let id := s.nextId
       let s1 := (s.addXfer { s.newXfer 3 (256 * n) f.toNat fb with failed := fb != 0 }).lockRange id own.1 own.2 true
       let r := (ats.zip (List.range n)).foldl (fun s (x : FillAt × Nat) => s.bind (fun s =>
         let im := s.tileImage d m x.2
         s.fillGo x.1 (newArrival false id x.2 im.2.1 im.1 im.2.2 (s.reg a + BitVec.ofNat 64 (256 * x.2))))) (some s1)
       match r with
       | none => .next s
       | some s2 => .next (s2.finishIfDone id).finishQ)

/-- Bytes 0 to 255 of a register with the poison of their granules (R216). -/
def State.tileOfReg (s : State) (d : BitVec 5) : Nat × Nat :=
  (vGet (s.vimg d.toNat) 0 256,
   (List.range 4).foldl (fun p g => if bits (s.vslots d.toNat).toNat (8 * g + 7) (8 * g) != 0 then p + 2 ^ g else p) 0)

/-- TCMB (R216). -/
def execTcmb (d a b : BitVec 5) (m f : BitVec 3) (s : State) : Out :=
  s.vrun [a, b] true [m]
    (let at_ := s.fillAt (s.reg a) false
     if at_ == .held || !s.engineRoom 0 || s.acqWait then .next s
     else
       let id := s.nextId
       let bad := at_ == .fails
       let im := s.tileOfReg d
       let s1 := s.addXfer { s.newXfer 4 256 f.toNat (if bad then 1 else 0) with failed := bad }
       match s1.fillGo at_ (newArrival true id (bits (s.reg b).toNat 3 0) (2 ^ 256 - 1) im.1 im.2 (s.reg a)) with
       | none => .next s
       | some s2 => .next (s2.finishIfDone id).finishQ)

end Sys2Proof.Machine
end

