-- ==== Sys2Proof/Machine/Porch.lean ====
section
/-!
DEFINITION. Groups and the porch (R234–R236, R282, R365, R435).
-/
namespace Sys2Proof.Machine

/-- A strand added to a list that has it at most once. -/
def withPair (l : List (Nat × Nat)) (p : Nat × Nat) : List (Nat × Nat) := if l.contains p then l else l ++ [p]

/-- A device group, and its hold counter (R234). -/
def State.group? (s : State) (g : Nat) : Option Group := s.groups.find? (fun x => x.g == g)
def State.holdOf (s : State) (g : Nat) : Nat := ((s.holds.find? (fun h => h.1 == g)).map (·.2)).getD 4096
/-- A strand is enrolled in a group. -/
def State.enrolled (s : State) (g gang rank : Nat) : Bool :=
  match s.group? g with
  | some x => x.members.contains (gang, rank)
  | none => false

/-- The local slice that a piece's source belongs to (R282, R365). -/
def Side.slice : Side → Nat
  | .mem pa _ => sliceOf pa
  | .farMem _ pa _ => sliceOf pa
  | _ => 0

/-- The distinct strands among a porch entry's requests. -/
def Porch.strands (p : Porch) : List (Nat × Nat) := p.members.foldl (fun l m => withPair l (m.1, m.2.1)) []

/-- A router's egress entry (R363). -/
def State.egressAt (s : State) (r g : Nat) : BitVec 5 := ((s.egress.find? (fun e => e.1 == (r, g))).map (·.2)).getD 0
/-- The cores of a row that a group fill reaches, from the bridge router of hub die 0 eastwards or of hub die 1 westwards (R363). The first argument bounds the routers. -/
def State.alongRow (s : State) (g : Nat) (east : Bool) : Nat → Nat → List Nat
  | 0, _ => []
  | n + 1, r =>
    (if (s.egressAt r g).getLsbD 4 then [r] else [])
      ++ (if (s.egressAt r g).getLsbD (if east then 2 else 3) then s.alongRow g east n (if east then r + 1 else r - 1) else [])
/-- The cores that a group fill from a hub die reaches: it is presented to every bridge router of the die whose entry is not empty (R363). -/
def State.reached (s : State) (g hub : Nat) : List Nat :=
  (List.range 32).flatMap (fun row => s.alongRow g (hub == 0) 9 (9 * row + (if hub = 0 then 0 else 8)))

/-- Strands in the order in which a group fill from a hub die reaches their cores: along the tree that the egress entries make, and last those that the tree does not reach, by single fills (R236, R363). (DEDUCED, log 94) -/
def State.inTree (s : State) (g hub : Nat) (l : List (Nat × Nat)) : List (Nat × Nat) :=
  let tree := s.reached g hub
  tree.flatMap (fun c => l.filter (fun m => s.coreOf m.1 m.2 == c)) ++ l.filter (fun m => !tree.contains (s.coreOf m.1 m.2))

/-- One tile of a fill to every strand of a porch entry whose load goes on (R282): a strand's second request for the piece is answered by the same fill (R235). -/
def State.fillMembers (s : State) (members : List (Nat × Nat × Nat)) (group slice off data psn : Nat) : State :=
  let live := members.filter (fun m => match s.xfer? m.2.2 with | some x => !x.failed | none => false)
  (s.inTree group (if slice < 96 then 0 else 1) (live.foldl (fun l m => withPair l (m.1, m.2.1)) [])).foldl (fun s (m : Nat × Nat) =>
    match (live.filter (fun x => x.1 == m.1 && x.2.1 == m.2)).map (·.2.2) with
    | [] => s
    | x :: xs =>
      { s with fills := s.fills ++ [{ newArrival false x 0 (2 ^ 256 - 1) data psn
          (BitVec.ofNat 64 (s.kdev * 2 ^ 48 + m.2 * 2 ^ 32 + off)) with gang := m.1, rank := m.2, off := off, also := xs, unit := 300 + slice, seq := s.stamp }] }) s

/-- The piece read once and sent to every arrived member; from another device it is asked for 256 bytes at a time, and a device fenced since fails it (R236, R282, R365, R431). (DEDUCED, log 46) -/
def State.serve (s : State) (p : Porch) : State :=
  let tiles := List.range (p.len / 256)
  match p.src with
  | .mem pa key =>
    let asid := match p.members with | m :: _ => ((s.gang? m.1).map (·.kasid)).getD 0 | [] => 0
    let s1 := s.readLines pa key p.len true asid
    tiles.foldl (fun s' t =>
      let a := pa + 256 * t
      let psn := (List.range 4).foldl (fun m g => if (s.peek (a + 64 * g) key 64).2.isSome then m + 2 ^ g else m) 0
      s'.fillMembers p.members p.group p.slice (p.off + 256 * t) (s.peek a key 256).1 psn) s1
  | .farMem dev pa key =>
    if s.fenced dev then p.members.foldl (fun s m => s.xferFail m.2.2 1 0 0) s
    else tiles.foldl (fun s t =>
      let pk := s.packet 0x14 dev 256 (match p.members with | m :: _ => ((s.gang? m.1).map (·.kasid)).getD 0 | [] => 0) 0
        (BitVec.ofNat 64 (pa + 256 * t + p.group * 2 ^ 48)) 0 key
      s.sendReq pk 0 0 (.gforward p.slice pa (256 * t) p.len p.members (p.off + 256 * t) p.group)) s
  | _ => s

/-- A piece can be read now: no invalidation of its lines is outstanding (R296), and request tags are free. -/
def State.servable (s : State) (p : Porch) : Bool :=
  match p.src with
  | .mem pa _ => !s.invals.any (fun v => decide (pa / 64 ≤ v.line) && decide (v.line < (pa + p.len) / 64))
  | .farMem dev _ _ => decide (p.len / 256 ≤ s.tagsFree dev)
  | _ => true

/-- PORCH_RELEASE (R236): the entry is served and stays for one more hold period. -/
def State.release (s : State) (p : Porch) : State :=
  { s.serve p with porch := (s.serve p).porch.map (fun q =>
      if q == p then { q with released := true, expiry := s.now + s.holdOf p.group } else q) }

/-- Every strand enrolled in the entry's group has its request arrived (R236, events 1 and 3). -/
def State.allArrived (s : State) (p : Porch) : Bool :=
  match s.group? p.group with
  | some g => g.members.all (fun m => p.members.any (fun x => x.1 == m.1 && x.2.1 == m.2))
  | none => true

/-- An entry tested again (R236); one whose piece cannot be read yet is released later by HOLD_EXPIRY. -/
def State.testPorch (s : State) (p : Porch) : State :=
  if s.porch.contains p && !p.released && s.allArrived p && s.servable p then s.release p else s
def State.retest (s : State) (g : Nat) : State :=
  (s.porch.filter (fun p => p.group == g)).foldl (fun s p => s.testPorch p) s

/-- The ports of a router that a group fill bound for a member core takes: one bridge router of each hub die, that of the core's own row, passes it along the row (R14, R363). Ports are bits 0 to 4: north, south, east, west, core. (DEDUCED, log 94) -/
def portsTowards (router core : Nat) : BitVec 5 :=
  if router / 9 != core / 9 then 0 else if router = core then 16 else if router < core then 4 else 8
/-- The cores that have a strand of a group (R234). -/
def State.groupCores (s : State) (x : Group) : List Nat := x.members.filterMap (fun m => (s.strand? m.1 m.2).map (·.1))
/-- The command processor writes a group's egress entries, the union over its member cores (R234, R363). -/
def State.writeEgress (s : State) (g : Nat) : State :=
  let cores := match s.group? g with | some x => s.groupCores x | none => []
  let entry := fun (r : Nat) => cores.foldl (fun (e : BitVec 5) c => e ||| portsTowards r c) 0
  { s with egress := s.egress.filter (fun e => e.1.2 != g)
      ++ (List.range Config.cores).filterMap (fun r => if cores.isEmpty || entry r = 0 then none else some ((r, g), entry r)) }
/-- A strand withdrawn from a group (R234): unbound with its last member, its loads tested again. -/
def State.leaveGroup (s : State) (g gang rank : Nat) : State :=
  if !s.enrolled g gang rank then s
  else
    let gs := mapIf (fun (x : Group) => x.g == g) (fun x => { x with members := x.members.filter (fun m => m != (gang, rank)) }) s.groups
    ({ s with groups := gs.filter (fun x => !x.members.isEmpty) }.writeEgress g).retest g

/-- A strand withdrawn from every group (R240, R435). (DEDUCED, log 44) -/
def State.leaveAll (s : State) (gang rank : Nat) : State :=
  ((s.groups.filter (fun x => x.members.contains (gang, rank))).map (·.g)).foldl (fun s g => s.leaveGroup g gang rank) s

/-- A strand enrolled (R234). -/
def State.joinGroup (s : State) (g asid gang rank : Nat) : State :=
  let gs := match s.group? g with
    | some _ => mapIf (fun (x : Group) => x.g == g) (fun x => { x with members := withPair x.members (gang, rank) }) s.groups
    | none => s.groups ++ [(⟨g, asid, [(gang, rank)]⟩ : Group)]
  { s with groups := gs }.writeEgress g

/-- A porch entry is of a piece. -/
def Porch.isFor (p : Porch) (x : Piece) : Bool := p.group == x.group && p.src == x.src && p.len == x.len && p.off == x.off

/-- A piece arrives at its slice (R236): late, joined, or the first of a new entry; none while it must wait there. (DEDUCED, log 46) -/
def State.arrivePiece (s : State) (x : Piece) : Option State :=
  let m := (x.gang, x.rank, x.xfer)
  let gone := s.porch.filter (fun p => p.isFor x && p.released)
  let served := gone.any (fun p => p.strands.contains (x.gang, x.rank))
  if !gone.isEmpty && !served then
    -- late: a single fill, LATE in its token
    let p : Porch := ⟨x.src.slice, x.group, x.src, x.len, x.off, [m], 0, true⟩
    if s.servable p then some ((s.serve p).modXfer x.xfer (fun y => { y with late := true })) else none
  else match s.porch.find? (fun p => p.isFor x && !p.released) with
  | some p =>
    let q := { p with members := p.members ++ [m] }
    some ({ s with porch := s.porch.map (fun y => if y == p then q else y) }.testPorch q)
  | none =>
    if Config.porchMax ≤ s.porch.countP (fun p => p.slice == x.src.slice) then none
    else
      let p : Porch := ⟨x.src.slice, x.group, x.src, x.len, x.off, [m], s.now + s.holdOf x.group, false⟩
      some ({ s with porch := s.porch ++ [p] }.testPorch p)

end Sys2Proof.Machine
end

