-- ==== Sys2Proof/Machine/CopyInstr.lean ====
section
/-!
DEFINITION. Copies (R229–R233, R235, R431): entry into the vector queue, the front end's checks, acceptance, and the moving of a copy's bytes.
-/
namespace Sys2Proof.Machine

/-- What one page of a copy's side translates to (R230): a slice, the own allotment, a peer or pod window, another device's page, control space. -/
inductive SpanAt where
  | mem (pa key : Nat) | own (off : Nat) | peer (dev rank off : Nat) | far (dev pa key : Nat) | ctl
  deriving DecidableEq, Repr

/-- A run of a side inside one page. -/
structure Span where
  va : Nat
  len : Nat
  x : Xlat
  at_ : SpanAt
  deriving DecidableEq, Repr

/-- The bytes of memory that a run names, of this device or, above them all, of another (R265). -/
def Span.physical (p : Span) : Option (Nat × Nat) :=
  match p.at_ with
  | .mem pa _ => some (pa, p.len)
  | .far dev pa _ => some ((dev + 1) * 2 ^ 48 + pa, p.len)
  | _ => none

/-- Why a check of R230 fails: cause, KEVAL, poisoned granule, watch registers hit. -/
structure CFail where
  cause : BitVec 8
  eval : Word
  psna : Option Nat
  hits : List Nat
  deriving DecidableEq, Repr

/-- One page's run translated (R230 check 1); it fails, or (none) waits for a table line whose reads are held (R296). -/
def State.spanAt (s : State) (va len : Nat) : Except (Option CFail) Span :=
  let bad := fun (a : Nat) => Except.error (some (⟨0x07, BitVec.ofNat 64 a, none, []⟩ : CFail))
  if 2 ^ 55 ≤ va then bad va
  else if bits va 54 53 != 3 then
    match s.findXlat s.asid s.ptbase va with
    | .error .held => .error none
    | .error (.fault c p) => .error (some ⟨c, BitVec.ofNat 64 va, p, []⟩)
    | .ok x => match s.placeOf x va with
      | some p =>
        if p.isCtl then .ok ⟨va, len, x, .ctl⟩
        else (match p with
          | .slice pa key => .ok ⟨va, len, x, .mem pa key⟩
          | .farMem dev pa key => .ok ⟨va, len, x, .far dev pa key⟩
          | _ => bad va)
      | none => bad va
  else if bits va 54 44 == 0x600 then .ok ⟨va, len, windowXlat, .peer (bits va 43 35) (bits va 34 19) (bits va 18 0)⟩
  else if 0x70000000000000 ≤ va && va < 0x70000000080000 then
    let off := va - 0x70000000000000
    if off + len ≤ s.core.st.allotSize then .ok ⟨va, len, windowXlat, .own off⟩
    else bad (va + (s.core.st.allotSize - off))
  else bad va

/-- What check 1 of R230 finds, page after page: what it has looked up, and why it has stopped (none inside: it waits). -/
structure Looked (α : Type) where
  found : List α
  stop : Option (Option CFail)

/-- A row's pages: `va` and `len` in virtual addresses, cut at every 64 KiB; the fuel is the number of pages. -/
def State.rowSpans (s : State) : Nat → Nat → Nat → Looked Span
  | 0, _, _ => ⟨[], none⟩
  | n + 1, va, len =>
    if len = 0 then ⟨[], none⟩
    else
      let k := min len (65536 - va % 65536)
      match s.spanAt va k with
      | .error e => ⟨[], some e⟩
      | .ok p => let r := s.rowSpans n (va + k) (len - k); ⟨p :: r.found, r.stop⟩

/-- A run inside the peer window. -/
def Span.window (p : Span) : Bool := match p.at_ with | .peer _ _ _ => true | _ => false
/-- Bytes of a list of runs. -/
def spanBytes (l : List Span) : Nat := l.foldl (fun n p => n + p.len) 0

/-- One side of a row: its pages, the bytes of it that lie before the peer window, and its peer or pod side resolved (R199, R230). A row may run from table space into the window (R268). -/
structure RowSide where
  va : Nat
  spans : List Span
  skip : Nat
  /-- none where the row has no peer side -/
  peer : Option FillAt
  deriving DecidableEq, Repr

/-- The peer window's bytes of a side, from (device, rank, offset) for len bytes: no byte lies beyond the last offset of the rank (R199, R362). -/
def State.resolve (s : State) (dev rank off len : Nat) (dest : Bool) : FillAt :=
  if 0x80000 < off + len then .fails
  else if 0xFE00 ≤ rank then
    (if dest && (s.castMembers (rank - 0xFE00)).contains (if s.isHere dev then s.kdev else dev) then .cast (rank - 0xFE00) off else .fails)
  else if !s.isHere dev then (if s.fenced dev then .fails else .far dev rank off)
  else match s.myGang with
    | none => .fails
    | some g => match s.peerIn g rank off len with
      | .at gi r _ _ => .here gi r off
      | .held => .held
      | _ => .fails

/-- A row's peer side (R199, R230): what it has in the peer window; pages of a fenced device fail it too. -/
def State.rowPeer (s : State) (spans : List Span) (dest : Bool) : Option FillAt :=
  if spans.any (fun q => match q.at_ with | .far d _ _ => s.fenced d | _ => false) then some .fails
  else match spans.find? Span.window with
  | some ⟨_, _, _, .peer dev rank off⟩ => some (s.resolve dev rank off (spanBytes (spans.filter Span.window)) dest)
  | _ => none

/-- The rows of a copy as (source, destination), and their length (R232). -/
def VqEntry.rows (e : VqEntry) : List (Nat × Nat) × Nat :=
  let len := bits e.opnd.toNat 31 0
  if e.kind = 1 then
    ((List.range (bits e.opnd.toNat 63 32)).map (fun r =>
      ((e.src + BitVec.ofNat 64 (r * bits e.pitch.toNat 31 0)).toNat, (e.dst + BitVec.ofNat 64 (r * bits e.pitch.toNat 63 32)).toNat)), len)
  else ([(e.src.toNat, e.dst.toNat)], len)

/-- A check over a list, the first failure deciding. -/
def firstFail {α : Type} (f : α → Option CFail) : List α → Option CFail
  | [] => none
  | a :: r => match f a with
    | some e => some e
    | none => firstFail f r

/-- Every row's side translated (R230 check 1). -/
def State.sides (s : State) (vas : List Nat) (len : Nat) (dest : Bool) : Looked RowSide :=
  match vas with
  | [] => ⟨[], none⟩
  | va :: r =>
    let sp := s.rowSpans (len / 65536 + 2) va len
    let l := if sp.stop.isSome then ⟨[], sp.stop⟩ else State.sides s r len dest
    ⟨⟨va, sp.found, spanBytes (sp.found.filter (fun p => !p.window)), s.rowPeer sp.found dest⟩ :: l.found, l.stop⟩

/-- Check 2 of R230 over a side. -/
def State.sidePerm (s : State) (acc : Acc) (rs : List RowSide) : Option CFail :=
  firstFail (fun (p : Span) =>
    if p.at_ == .ctl || !p.x.permits acc s.core.st.kMode then some ⟨0x08, BitVec.ofNat 64 p.va, none, []⟩ else none)
    (rs.flatMap (·.spans))

/-- The physical ranges of a side, with what they are ranges of (R230 check 4). -/
def State.physical (s : State) (r : RowSide) : List (SpanAt × Nat × Nat) :=
  let n := spanBytes (r.spans.filter Span.window)
  (match r.peer with
    | some (.here g k off) => (match s.strand? g k with
      | some (c, t) => [(SpanAt.peer 0 c 0, t.allotBase + off, n)]
      | none => [])
    | some (.far d k off) => [(SpanAt.peer (d + 1) k 0, off, n)]
    | _ => [])
  ++ r.spans.filterMap (fun p => match p.at_ with
    | .mem pa _ => some (SpanAt.mem 0 0, pa, p.len)
    | .own off => some (SpanAt.peer 0 s.core.id 0, s.core.st.allotBase + off, p.len)
    | .far d pa _ => some (SpanAt.far d 0 0, pa, p.len)
    | _ => none)

/-- Two sides overlap. -/
def State.overlaps (s : State) (a b : List RowSide) : Bool :=
  let pa := a.flatMap s.physical
  let pb := b.flatMap s.physical
  pa.any (fun x => pb.any (fun y => x.1 == y.1 && decide (x.2.1 < y.2.1 + y.2.2) && decide (y.2.1 < x.2.1 + x.2.2)))

/-- The kinds of access that an engine makes (R69). -/
def wEngRead : WKind := ⟨true, false, true⟩
def wEngWrite : WKind := ⟨false, true, true⟩

/-- Check 5 of R230 over a side. -/
def State.sideWatch (s : State) (k : WKind) (len : Nat) (rs : List RowSide) : Option CFail :=
  firstFail (fun (r : RowSide) => match s.core.st.watchers k r.va len with
    | [] => none
    | hs => some ⟨0x0A, s.core.st.firstWatch k r.va len, none, hs⟩) rs

/-- A filling copy: a destination of memory type peer-window or pod (R230). -/
def filling (ds : List RowSide) : Bool := ds.any (fun r => r.spans.any Span.window)

/-- Checks 3 to 5 of R230, in their order. -/
def State.copyRest (s : State) (e : VqEntry) (len : Nat) (ss ds : List RowSide) : Option CFail :=
  let fill := filling ds
  let at_ := fun (c : BitVec 8) (a : Word) => some (⟨c, a, none, []⟩ : CFail)
  if (fill || e.kind == 2) && e.dst.toNat % 256 != 0 then at_ 0x05 e.dst
  else if e.kind == 2 && e.src.toNat % 256 != 0 then at_ 0x05 e.src
  else
    let pd := bits e.pitch.toNat 63 32
    let bad4 := (fill && (len % 256 != 0 || (e.kind == 1 && (pd % 256 != 0 || decide (pd < len)))))
      || (e.kind == 2 && (len == 0 || len % 256 != 0
        || ds.any (fun r => r.spans.any (fun p => match p.at_ with | .own _ => false | _ => true))
        || ss.any (fun r => r.spans.any (fun p => match p.at_ with | .mem _ _ => false | .far _ _ _ => false | _ => true))))
      || s.overlaps ss ds
    if bad4 then at_ 0x13 e.dst
    else match s.sideWatch wEngRead len ss with
    | some f => some f
    | none => s.sideWatch wEngWrite len ds

/-- A side's run from an offset in its row: what it is and how many bytes it goes on for. -/
def RowSide.sideAt (r : RowSide) (gang rank off : Nat) : Option (Side × Nat) :=
  if r.skip ≤ off then
    let d := off - r.skip
    match r.peer with
    | some (.here g k o) => some (.pad g k (o + d), 2 ^ 32)
    | some (.far v k o) => some (.farPad v k (o + d), 2 ^ 32)
    | some (.cast g o) => some (.cast g (o + d), 2 ^ 32)
    | _ => none
  else
    match r.spans.find? (fun p => decide (p.va ≤ r.va + off) && decide (r.va + off < p.va + p.len)) with
    | none => none
    | some p =>
      let d := r.va + off - p.va
      let left := p.len - d
      match p.at_ with
      | .mem pa key => some (.mem (pa + d) key, left)
      | .own o => some (.pad gang rank (o + d), left)
      | .far dev pa key => some (.farMem dev (pa + d) key, left)
      | _ => none

/-- How many of k bytes one request to another device takes from an address (R359, R360): whole 64-byte granules, or to the end of one; a FILL takes a whole tile, or bytes of one granule. -/
def Side.fit (filling : Bool) (k : Nat) : Side → Nat
  | .farMem _ pa _ => if pa % 64 = 0 && 64 ≤ k then k / 64 * 64 else min k (64 - pa % 64)
  | .farPad _ _ off => if off % 64 = 0 && decide ((if filling then 256 else 64) ≤ k) then k / 64 * 64 else min k (64 - off % 64)
  | .cast _ off => if off % 256 = 0 && 256 ≤ k then 256 else min k (64 - off % 64)
  | _ => k

/-- A row as segments in ascending order (R231): none goes beyond a 256-byte block of the destination, so no naturally aligned 8-byte word of sides congruent modulo 8 is cut. -/
def rowSegs (a b : RowSide) (filling : Bool) (gang rank len : Nat) : Nat → Nat → List Seg
  | 0, _ => []
  | n + 1, off =>
    if len ≤ off then []
    else match a.sideAt gang rank off, b.sideAt gang rank off with
    | some (x, lx), some (y, ly) =>
      let k := min (min (len - off) (256 - (b.va + off) % 256)) (min lx ly)
      let k := max 1 (y.fit filling (x.fit false k))
      ⟨x, y, BitVec.ofNat 64 (b.va + off), k⟩ :: rowSegs a b filling gang rank len n (off + k)
    | _, _ => []

/-- The part of a side in the issuer's own allotment, from its first byte to its last (R233). -/
def State.ownRange (s : State) (len : Nat) (rs : List RowSide) : Nat × Nat :=
  let l := rs.flatMap (fun r =>
    (match r.peer with
      | some (.here g k o) => if g == s.core.st.gang && k == s.core.st.rank then [(o, o + (len - r.skip))] else []
      | _ => [])
    ++ r.spans.filterMap (fun p => match p.at_ with | .own o => some (o, o + p.len) | _ => none))
  match l with
  | [] => (0, 0)
  | x :: t => (t.foldl (fun m y => min m y.1) x.1, t.foldl (fun m y => max m y.2) x.2)

/-- The 4,096-byte granules of a group load's source (R235, R282). -/
def piecesOf (a : RowSide) (xfer gang rank group len dst : Nat) : Nat → Nat → List Piece
  | 0, _ => []
  | n + 1, off =>
    if len ≤ off then []
    else match a.sideAt gang rank off with
    | none => []
    | some (x, lx) =>
      let pa := match x with | .mem pa _ => pa | .farMem _ pa _ => pa | _ => 0
      let k := max 256 (min (min (len - off) lx) (4096 - pa % 4096))
      ⟨xfer, gang, rank, group, x, k, dst + off⟩ :: piecesOf a xfer gang rank group len dst n (off + k)

/-- A copy leaves the head of the queue: it is complete for the strand, which goes on (R220, R231). -/
def State.dequeue (s : State) : State := (s.modSt (fun t => { t with vq := none })).finishQ

/-- The translations of a copy are cached or become most recently used, and its walks' reads allocate (R276, R279). -/
def State.useSpans (s : State) (l : List Span) : State := (firsts (l.map (·.x))).foldl (fun s x => s.useXlat x) s

/-- COPY_ACCEPT's traps: at the copy, with the queue empty. The pages looked up before have been used; a walk that failed has read its tables (R276). -/
def State.copyTrap (s : State) (rs : List RowSide) (f : CFail) : State :=
  let s := s.useSpans (rs.flatMap (·.spans))
  (((if f.cause = 0x07 || f.psna.isSome then s.walkFault f.eval else s).modSt (fun t => ({ t with vq := none } : Strand).hit f.hits))).trapAt f.cause f.eval 0 0 f.psna

/-- A copy accepted (R231): its token's pending rises, its local ranges are entered, its bytes wait to be moved; one without a byte, or whose peer side fails, completes at once. -/
def State.acceptCopy (s : State) (e : VqEntry) (len : Nat) (ss ds : List RowSide) (bad : Bool) : State :=
  let t := s.core.st
  let id := s.nextId
  let window := fun (a : Word) => bits a.toNat 63 55 == 0 && bits a.toNat 54 44 == 0x600
  let peer := ss.any (fun r => r.peer.isSome) || ds.any (fun r => r.peer.isSome) || (len == 0 && (window e.src || window e.dst))
    || (ss ++ ds).any (fun r => r.spans.any (fun p => match p.at_ with | .far _ _ _ => true | _ => false))
  let own1 := s.ownRange len ss
  let own2 := s.ownRange len ds
  let total := len * (if e.kind = 1 then bits e.opnd.toNat 63 32 else 1)
  let segs := if bad || e.kind == 2 then []
    else (ss.zip ds).flatMap (fun p => rowSegs p.1 p.2 (filling ds) t.gang t.rank len (len + 1) 0)
  let s := s.useSpans ((ss ++ ds).flatMap (·.spans))
  let s := match e.handle with
    | some h => s.toToken ⟨0, h, 0, false, none, false, s.core.id, 0, none⟩ s.asid
    | none => s
  let x : Xfer := { s.newXfer e.kind total e.mf (if bad then 1 else 0) with
    segs := segs, handle := e.handle, hasPeer := peer && e.kind != 2, filling := filling ds, failed := bad
    group := bits e.opnd.toNat 43 32
    xlats := (ss ++ ds).flatMap (fun r => r.spans.filterMap Span.physical)
    waiting := if e.kind = 2 && !bad then len / 256 else 0
    base := own2.1 / 256
    va := e.dst }
  let s := s.addXfer x
  let s := if bad || e.kind = 2 then s else s.lockRange id own1.1 own1.2 false
  let s := if bad then s else s.lockRange id own2.1 own2.2 true
  let s := if e.kind = 2 && !bad then
      match ss with
      | a :: _ => { s with pieces := s.pieces ++ piecesOf a id t.gang t.rank (bits e.opnd.toNat 43 32) len own2.1 (len + 1) 0 }
      | [] => s
    else s
  (s.finishIfDone id).dequeue

/-- COPY_ACCEPT for the copy at the head of the strand's queue (R230, R231, R235): a trap, an acceptance, or none while it must wait: for a table line or a target, for room, for the strand's own stores to its local ranges (R233, R300), for the reply of an AMO with AQ 1 (R162). Each check looks at the source side first. (DESIGN CHOICE, log 88) -/
def State.tryCopy (s : State) (e : VqEntry) : Option State :=
  let (rows, n) := e.rows
  let len := if rows.isEmpty then 0 else n
  let rs := if len = 0 then [] else rows
  match s.sides (rs.map (·.1)) len false, s.sides (rs.map (·.2)) len true with
  | ⟨_, some none⟩, _ => none
  | ⟨ss, some (some f)⟩, _ => some (s.copyTrap ss f)
  | ⟨_, none⟩, ⟨_, some none⟩ => none
  | ⟨ss, none⟩, ⟨ds, some (some f)⟩ => some (s.copyTrap (ss ++ ds) f)
  | ⟨ss, none⟩, ⟨ds, none⟩ =>
    match s.sidePerm .load ss, s.sidePerm .store ds with
    | some f, _ => some (s.copyTrap (ss ++ ds) f)
    | none, some f => some (s.copyTrap (ss ++ ds) f)
    | none, none =>
      if (ss ++ ds).any (fun r => r.peer == some .held) then none
      else
        let bad := (ss ++ ds).any (fun r => r.peer == some .fails)
        let f := if bad || (len == 0 && e.kind != 2) then none
          else s.copyRest e len ss ds
        match f with
        | some f => some (s.copyTrap (ss ++ ds) f)
        | none =>
          let a := s.ownRange len ss
          let b := s.ownRange len ds
          let full := match e.handle with | some h => s.tokenFull h | none => false
          if full || !s.engineRoom ((if a.1 < a.2 && e.kind != 2 then 1 else 0) + (if b.1 < b.2 then 1 else 0))
            || s.lockedAt a.1 (a.2 - a.1) true || s.lockedAt b.1 (b.2 - b.1) true
            || s.ownStored a.1 a.2 || s.ownStored b.1 b.2 || s.acqWait then none
          else some (s.acceptCopy e len ss ds bad)

/-- A copy enters the vector queue with its operands captured (R220); it stays at the queue's head, at its own pc, until it is accepted. -/
def State.queueCopy (s : State) (kind : Nat) (d a b : BitVec 5) (f : BitVec 3) (t : BitVec 5) (pitch : Word) : State :=
  let e : VqEntry := ⟨s.core.st.pc, kind, s.reg a, s.reg b, s.reg d, pitch, if t = 0 then none else some ((s.reg t).setWidth 32), f.toNat⟩
  s.modSt (fun st => { st with vq := some e })

/-- The checks of a copy before it enters the queue (R220, R221, R235); a CPYG's token operand comes before its enrolment (DESIGN CHOICE, log 88). -/
def State.copyEntry (s : State) (kind : Nat) (regs : List (BitVec 5)) (d : BitVec 5) (t : BitVec 5) (k : Out) : Out :=
  s.given (s.chkRegs regs)
    (let o := (s.reg d).toNat
     let h := (s.reg t).setWidth 32
     if (kind == 0 && bits o 63 32 != 0) || (kind == 2 && bits o 63 44 != 0) then .next (s.trap 0x02 0 0)
     else if t != 0 && !isHandle h then .next (s.trap 0x0C (h.setWidth 64) 0)
     else if kind == 2 && !s.enrolled (bits o 43 32) s.core.st.gang s.core.st.rank then
       .next (s.trap 0x0F (BitVec.ofNat 64 (bits o 43 32)) 0)
     else if s.core.st.vq.isSome then .next s
     else k)

/-- CPY (R229–R231). -/
def execCpy (d a b : BitVec 5) (f : BitVec 3) (t : BitVec 5) (s : State) : Out :=
  s.copyEntry 0 [d, a, b, t] d t (.next (s.queueCopy 0 d a b f t 0))
/-- CPY2D (R232). -/
def execCpy2d (d a b : BitVec 5) (f : BitVec 3) (t : BitVec 5) (s : State) : Out :=
  s.copyEntry 1 [d, d + 1, a, b, t] d t (.next (s.queueCopy 1 d a b f t (s.reg (d + 1))))
/-- CPYG (R235). -/
def execCpyg (d a b t : BitVec 5) (s : State) : Out :=
  s.copyEntry 2 [d, a, b, t] d t (.next (s.queueCopy 2 d a b 0 t 0))

/-- Each byte of a source as poisoned as its 64-byte granule: `g` tells a granule's poison by its number (R231). -/
def byBytes (off n : Nat) (g : Nat → Bool) : Nat := (List.range n).foldl (fun m i => if g ((off + i) / 64) then m + 2 ^ i else m) 0

/-- Granule bits of PSN as byte bits, for a payload of n bytes (R359). -/
def psnBytes (psn n : Nat) : Nat := (List.range n).foldl (fun m i => if bit psn (i / 64) then m + 2 ^ i else m) 0
/-- And back. -/
def bytesPsn (bad : Nat) : Nat := (List.range 4).foldl (fun m g => if bad / 2 ^ (64 * g) % 2 ^ 64 != 0 then m + 2 ^ g else m) 0

/-- The address space that a transfer works for. -/
def Xfer.space (x : Xfer) : Nat := x.asid

/-- A segment is done with: its bytes landed, or its part awaits an answer; the copy's source entry retires with the last byte read (R233). -/
def State.segDone (s : State) (x : Xfer) (landed wait : Nat) : State :=
  let rest := x.segs.drop 1
  let s := s.modXfer x.id (fun y => { y with segs := rest, done := y.done + landed, waiting := y.waiting + wait })
  if rest.isEmpty then s.unlock x false else s

/-- A segment whose destination lies in the peer window: a fill (R230). -/
def Seg.fills (g : Seg) : Bool := bits g.va.toNat 63 55 == 0 && bits g.va.toNat 54 44 == 0x600

/-- A segment's bytes go to its destination (R231); a filling copy's are a write of its tile's fill, the tile's last byte with the last-beat flag (R214). None while request tags are lacking or the target is parked. -/
def State.deliver (s : State) (x : Xfer) (g : Seg) (v bad : Nat) : Option State :=
  let asid := x.space
  let fill := fun (off : Nat) (m : Arrival → Arrival) =>
    let o := off % 256
    m { newArrival false x.id 0 ((2 ^ g.len - 1) * 2 ^ o) (v % 256 ^ g.len * 256 ^ o) (bytesPsn (bad * 2 ^ o)) 0 with
      off := off / 256 * 256, va := g.va, last := o + g.len == 256, unit := s.coreOf x.gang x.rank }
  match g.dst with
  | .mem pa key => some ((s.writePa pa key g.len v bad true asid none x.gang x.rank 16).segDone x g.len 0)
  | .pad gang rank off =>
    if g.fills then
      some ((s.sendArrival (fill off (fun a => { a with gang := gang, rank := rank, peer := BitVec.ofNat 64 (s.kdev * 2 ^ 48 + rank * 2 ^ 32 + off / 256 * 256) })) asid x.gang x.rank).segDone x 0 1)
    else match s.strand? gang rank with
    | some (c, t) =>
      -- a parked target holds the bytes back, but not a transfer of its own gang while it is being parked (R49, R342)
      let held : Bool := match s.gang? gang with | some g => g.state == .parked || (g.state == .parking && x.gang != gang) | none => false
      if held || s.coming (s.coreOf x.gang x.rank) c then none else some ((s.modCoreAt c (fun k => k.padPut (t.allotBase + off) g.len v bad)).segDone x g.len 0)
    | none => some (s.xferFail x.id 1 0 g.va)
  | .farMem dev pa key =>
    if s.fenced dev then some (s.xferFail x.id 1 0 g.va)
    else if s.tagsFree dev = 0 then none
    else some ((s.sendReq (s.packet 0x02 dev g.len asid 0 (BitVec.ofNat 64 (pa + bytesPsn bad * 2 ^ 48)) v key) x.gang x.rank (.xfer x.id false g.len g.va)).segDone x 0 1)
  | .farPad dev rank off =>
    if s.fenced dev then some (s.xferFail x.id 1 0 g.va)
    else if s.tagsFree dev = 0 || s.fillUnder dev rank off x.id then none
    else some ((s.sendArrival (fill off (fun a => { a with rank := rank, toDev := dev, peer := BitVec.ofNat 64 (dev * 2 ^ 48 + rank * 2 ^ 32 + off / 256 * 256) })) asid x.gang x.rank).segDone x 0 1)
  | .cast grp off =>
    (s.sendCast grp (fill off (fun a => { a with peer := BitVec.ofNat 64 ((0xFE00 + grp) * 2 ^ 32 + off / 256 * 256) })) asid x.gang x.rank).map (fun s => s.segDone x 0 0)

/-- A local source segment's bytes with the poison of each, and the slice's own effects of the read (R231, R284): none while an invalidation is outstanding or the target is parked; a lost rank is an error. -/
def State.segRead (s : State) (x : Xfer) (g : Seg) : Option (Except Unit (Nat × Nat × State)) :=
  match g.src with
  | .mem pa key =>
    if s.rangeHeld pa g.len then none
    else
      let r := s.peek pa key g.len
      let bad := byBytes pa g.len (fun l => (s.peek (64 * l) key 64).2.isSome)
      some (.ok (r.1, bad, s.readLines pa key g.len false (x.space)))
  | .pad gang rank off =>
    (match s.gang? gang with
     | none => some (.error ())
     | some gg =>
       match s.peerIn (if gang == x.gang && gg.state == .parking then { gg with state := .placed } else gg) rank off g.len with
       | .held => none
       | .at _ _ c o =>
         let k := s.coreAt c
         if s.coming (s.coreOf x.gang x.rank) c then none
         else some (.ok (k.padGet o g.len, byBytes o g.len (fun q => k.padPsn.contains q), s))
       | _ => some (.error ()))
  | _ => some (.error ())

/-- The next run of a copy moves, or its far source is asked for; none while it must wait (R231). (DESIGN CHOICE, log 36) -/
def State.moveSeg (s : State) (x : Xfer) (g : Seg) : Option State :=
  match g.src with
  | .farMem dev pa key =>
    if s.fenced dev then some (s.xferFail x.id 1 0 g.va)
    else if s.tagsFree dev = 0 then none
    else some ((s.sendReq (s.packet 0x01 dev g.len (x.space) 0 (BitVec.ofNat 64 pa) 0 key) x.gang x.rank (.xfer x.id true g.len g.va)).modXfer x.id
      (fun y => { y with waiting := y.waiting + 1 }))
  | .farPad dev rank off =>
    if s.fenced dev then some (s.xferFail x.id 1 0 g.va)
    else if s.tagsFree dev = 0 then none
    else some ((s.sendReq (s.packet 0x01 dev g.len (x.space) 0 (BitVec.ofNat 64 (2 ^ 63 + rank * 2 ^ 19 + off)) 0 0) x.gang x.rank (.xfer x.id true g.len g.va)).modXfer x.id
      (fun y => { y with waiting := y.waiting + 1 }))
  | _ =>
    match s.segRead x g with
    | none => none
    | some (.error _) => some (s.xferFail x.id 1 0 g.va)
    | some (.ok (v, bad, s')) => s'.deliver x g v bad

/-- The transfer's strand is about to be stopped (R395): it sends nothing more. -/
def State.stopping (s : State) (x : Xfer) : Bool :=
  s.contains.any (fun c => c.gang == x.gang && (c.rank == x.rank || (match s.gang? x.gang with
    | some g => !g.task.isolate && !g.exited.any (fun e => e.rank == x.rank)
    | none => false)))

/-- A transfer moves its next run, or completes when every byte has landed and its writes are performed (R231); none while it waits. (DESIGN CHOICE, log 36) -/
def State.advance (s : State) (x : Xfer) : Option State :=
  if x.waiting != 0 || s.pieces.any (fun p => p.xfer == x.id) || s.stopping x then none
  else match x.segs with
  | g :: _ => s.moveSeg x g
  | [] => if s.invals.any (fun v => v.gang == x.gang && v.rank == x.rank && v.cls == 16) then none else some (s.xferFinish x)

end Sys2Proof.Machine
end

