-- ==== Sys2Proof/Machine/TokenInstr.lean ====
section
/-!
DEFINITION. Token instructions, AWAIT and YIELD (R222–R228), and what a token table does with a message (R36, R37, R39, R225, R412, R434, R483).
-/
namespace Sys2Proof.Machine

/-- A handle operand (R221). -/
def State.handle (s : State) (r : BitVec 5) : BitVec 32 := (s.reg r).setWidth 32

/-- An own token (R222): of this device, this core, this gang. -/
def State.ownToken (s : State) (h : BitVec 32) : Option Token :=
  if isHandle h && hDev h == s.kdev && hCore h == s.core.id then
    (s.core.token? (hSlot h)).bind (fun t => if t.gang == s.core.st.gang && t.gang != 0 then some t else none)
  else none

/-- An instruction that takes only an own token: 0x0C for any other handle, 0x09 where an error has struck the entry (R222, R412). (DEDUCED, log 41) -/
def State.withToken (s : State) (h : BitVec 32) (errors : Bool) (k : Token → Out) : Out :=
  match s.ownToken h with
  | none => .next (s.trap 0x0C (h.setWidth 64) 0)
  | some t => if errors && t.bad then .next (s.trap 0x09 0 0) else k t

/-- The free entries of the core's token table. -/
def Core.freeTokens (k : Core) : List Nat := (List.range Config.tokenSlots).filter (fun i => (k.token? i).isNone)

/-- TKNEW's allocation (R223): any free entry, or all ones. -/
def State.newToken (s : State) (d : BitVec 5) : State :=
  let fr := s.core.freeTokens
  if fr.isEmpty then s.setReg d (BitVec.allOnes 64)
  else
    let (c, s) := s.choose fr.length
    let i := (fr[c]?).getD 0
    (s.modCore (fun k => { k with tokens := k.tokens ++ [Token.fresh i s.core.st.gang] })).setReg d ((handleOf s.kdev s.core.id i).setWidth 64)

/-- TKNEW (R223). -/
def execTknew (d a : BitVec 5) (s : State) : Out :=
  if a = 0 then .next (s.newToken d).finishQ
  else s.given (s.chkRegs [a]) (s.withToken (s.handle a) true (fun t =>
    if t.pend != 0 then .next s
    else .next ((s.modCore (fun k => k.modToken t.slot (fun t => { t with count := 0, late := false, arm := none }))).setReg d
      ((s.handle a).setWidth 64)).finishQ))

/-- A wait is registered on an entry of a core. -/
def Core.awaited (k : Core) (slot : Nat) : Bool :=
  (k.st :: k.rest).any (fun t => match t.wait with | .token i _ => i == slot | _ => false)

/-- TKFREE (R224). -/
def execTkfree (a : BitVec 5) (s : State) : Out :=
  s.given (s.chkRegs [a]) (s.withToken (s.handle a) true (fun t =>
    if t.pend != 0 then .next s
    else if s.core.awaited t.slot then .next (s.trap 0x0C ((s.handle a).setWidth 64) 0)
    else .next (s.modCore (fun k => { k with tokens := k.tokens.filter (fun x => x.slot != t.slot) })).finishQ))

/-- TOKEN_FORWARD (R225): an armed token whose count has reached its threshold signals once, and its arming ends. -/
def State.forwardToken (s : State) (c slot : Nat) : State :=
  match (s.coreAt c).token? slot with
  | none => s
  | some t => match t.arm with
    | none => s
    | some (h, thr) =>
      if t.count < thr then s
      else (s.modCoreAt c (fun k => k.modToken slot (fun t => { t with arm := none }))).toToken ⟨2, h, 1, false, none, false, c, 0, none⟩ (((s.gang? t.gang).map (·.kasid)).getD 0)

/-- TKARM (R225). -/
def execTkarm (a b : BitVec 5) (s : State) : Out :=
  s.given (s.chkRegs [a, b]) (s.withToken (s.handle a) false (fun t =>
    let target := (s.reg b).extractLsb' 32 32
    if !isHandle target then .next (s.trap 0x0C (target.setWidth 64) 0)
    else .next ((s.modCore (fun k => k.modToken t.slot (fun t => { t with arm := some (target, bits (s.reg b).toNat 31 0) }))).forwardToken s.core.id t.slot).finishQ))

/-- TKSIG (R226, R433): leaves once every earlier scalar and vector access is performed at the signal's scope. -/
def execTksig (a b : BitVec 5) (s : State) : Out :=
  s.given (s.chkRegs [a, b])
    (let h := s.handle a
     let dev := hDev h
     let scope := if dev == s.kdev then (if hCore h == s.core.id then 1 else 3) else 4
     if !isHandle h then .next (s.trap 0x0C (h.setWidth 64) 0)
     else if dev != s.kdev && s.fenced dev then .next (s.trap 0x0E (h.setWidth 64) 0)
     else if !s.performed 15 scope then .next s
     else .next (s.toToken ⟨2, h, bits (s.reg b).toNat 31 0, false, none, false, s.core.id, 0, none⟩ s.asid).finishQ)

/-- TKRD (R227): an access that an AMO with AQ 1 comes before (R305). -/
def execTkrd (d a : BitVec 5) (s : State) : Out :=
  s.given (s.chkRegs [a]) (s.withToken (s.handle a) true (fun t =>
    if s.acqWait then .next s
    else .next (s.setReg d (BitVec.ofNat 64 (b2n t.late * 2 ^ 63 + t.pend % 65536 * 2 ^ 32 + t.count))).finishQ))

/-- The live set of AWAIT and YIELD: KLM where the operand is s0 (R40). -/
def State.liveSet (s : State) (d : BitVec 5) : Word := if d = 0 then s.core.st.klm else s.reg d

/-- KLM is read where it gives the live set (R412). -/
def State.chkLive (s : State) (d : BitVec 5) : Chk := if d = 0 then s.chkK [0x003] else .ok

/-- AWAIT (R39, R228); an AMO with AQ 1 comes before it too (R305). -/
def execAwait (d a b : BitVec 5) (s : State) : Out :=
  s.given ((s.chkRegs [a, b, d]).andThen (s.chkLive d))
    (let h := s.handle a
     if s.core.st.kMode || s.core.st.uin then .next (s.trap 0x0C (h.setWidth 64) 0)
     else if bits (s.liveSet d).toNat 63 48 != 0 then .next (s.trap 0x02 0 0)
     else s.withToken h true (fun t =>
       let thr := bits (s.reg b).toNat 31 0
       if s.acqWait then .next s
       else if thr ≤ t.count then .next s.finish
       else .next (s.suspend (.token t.slot thr) (s.liveSet d) (s.core.st.pc + 4) s.core.st.pc)))

/-- YIELD (R39, R228). -/
def execYield (d : BitVec 5) (s : State) : Out :=
  s.given ((s.chkRegs [d]).andThen (s.chkLive d))
    (if s.core.st.kMode || s.core.st.uin then .next (s.trap 0x0C 0 0)
     else if bits (s.liveSet d).toNat 63 48 != 0 then .next (s.trap 0x02 0 0)
     else .next (s.suspend .none (s.liveSet d) (s.core.st.pc + 4) s.core.st.pc))

/-- A completion or signal at its entry (R36, R361, R455, R483): the count saturates; a completion lowers pending, and REMOTE where its INCREMENT came from another device. -/
def Token.apply (t : Token) (m : TokMsg) : Token :=
  let t := { t with count := min (t.count + m.amount) 0xFFFFFFFF, late := t.late || m.late }
  if m.kind != 1 then t
  else
    let t := { t with pend := t.pend - 1 }
    if m.source.isNone then t
    else
      let r := t.remote - 1
      { t with remote := r, source := if r = 0 then none else t.source, multi := t.multi && r != 0 }

/-- An entry that no gang holds is freed when its pending reaches 0 (R434). -/
def Core.freeOrphan (k : Core) (slot : Nat) : Core :=
  { k with tokens := k.tokens.filter (fun t => !(t.slot == slot && t.gang == 0 && t.pend == 0)) }

/-- WAIT_SATISFIED (R39): every wait that the count now meets ends. -/
def State.wakeTokens (s : State) (c slot : Nat) : State :=
  match (s.coreAt c).token? slot with
  | none => s
  | some t => s.wakeIf c (fun x => match x.wait with | .token i thr => i == slot && decide (thr ≤ t.count) | _ => false)

/-- TOKEN_COMPLETION (R36, R37): a message applied at this device's table in one step. A free entry, or one an error has struck, discards it (R433, R412). -/
def State.applyToken (s : State) (m : TokMsg) : State :=
  let c := hCore m.handle
  let i := hSlot m.handle
  match (s.coreAt c).token? i with
  | none => s
  | some t =>
    if t.bad then s
    else ((((s.modCoreAt c (fun k => k.modToken i (fun t => t.apply m))).wakeTokens c i).forwardToken c i)).modCoreAt c (fun k => k.freeOrphan i)

end Sys2Proof.Machine
end

