-- ==== Sys2Proof/Machine/GroupStrand.lean ====
section
/-!
DEFINITION. Group, barrier and strand instructions (R234, R237–R241) with barrier phases and balancing (R237, R345).
-/
namespace Sys2Proof.Machine

/-- A rank that a barrier no longer counts: exited, or stopped under isolate (R237, R396). -/
def Gang.out (g : Gang) (rank : Nat) : Bool := g.exited.any (fun e => e.rank == rank) || g.contained.contains rank

/-- Every strand that has not exited has arrived (R237). -/
def Gang.phaseDone (g : Gang) : Bool :=
  !g.arrived.isEmpty && (List.range g.size).all (fun r => g.out r || g.arrived.any (fun a => a.rank == r))

/-- Up moves are withheld: by the power limit or the temperature (R477, R478, R479). (DESIGN CHOICE, log 100) -/
def State.noUp (s : State) : Bool := s.upBlocked || s.hot || decide (s.plim < s.pwr)
/-- A core whose gang completes or is parked returns to 0.50 V and 3.0 GHz (R345): a core below them only when no up move is withheld (R477). The spec does not say when a withheld return is made: at the power window or thermal reading that ends it. (DESIGN CHOICE, log 100) -/
def State.goHome (s : State) (k : Core) : Core :=
  if k.mv < 500 && s.noUp then { k with homing := true } else { k with mv := 500, mhz := 3000, homing := false }

/-- BARRIER_BALANCE (R345): the cores that arrived first move down, those that arrived last move up, on cores where the gang is the only resident. -/
def State.balance (s : State) (g : Gang) : State :=
  if g.task.c < 2 then s
  else
    let cs := g.coreOrder.filter (fun c => (s.coreAt c).residents.all (fun t => t.gang == g.id))
    let n := ceilDiv g.task.c 4
    { s with opMoves := s.opMoves ++ (cs.take n).map (fun c => (c, false)) ++ (cs.reverse.take n).map (fun c => (c, true)) }

/-- A fault record of the gang has been written and is not yet performed (R396, R462). -/
def State.recording (s : State) (gid : Nat) : Bool := s.invals.any (fun v => v.gang == gid && v.cls == 0)

/-- BARRIER_PHASE_COMPLETE (R237): tokens signalled, suspended arrivers Runnable, a new phase; not before the records of the strands that the phase no longer counts are performed (R396, R462). -/
def State.completePhase (s : State) (gid : Nat) : State :=
  match s.gang? gid with
  | none => s
  | some g =>
    if !g.phaseDone || s.recording gid then s
    else
      let s := (g.arrived.filterMap (·.handle)).foldl (fun s h => s.toToken ⟨1, h, 1, false, none, true, Config.cores, 0, none⟩ g.kasid) s
      let s := g.cores.foldl (fun s c => s.wakeIf c (fun t => t.gang == gid && t.wait == .barrier)) s
      (s.modGang gid (fun g => { g with arrived := [], coreOrder := [] })).balance g

/-- Cores of a gang that have arrived at the phase since the order was last taken (R345): every strand of the gang on one has arrived, exited or been contained, and one has arrived. -/
def Gang.ordered (g : Gang) : Gang :=
  let here := fun (k : Nat) => (List.range g.task.s).map (fun j => k * g.task.s + j)
  let whole := fun (k : Nat) => (here k).all (fun r => g.out r || g.arrived.any (fun a => a.rank == r)) && (here k).any (fun r => g.arrived.any (fun a => a.rank == r))
  let new := ((g.cores.zip (List.range g.cores.length)).filter (fun x => whole x.2 && !g.coreOrder.contains x.1)).map (·.1)
  { g with coreOrder := g.coreOrder ++ new }

/-- An arrival recorded, and the core's arrival when it is the last of its strands (R237, R345). -/
def Gang.arrive (g : Gang) (rank : Nat) (h : Option (BitVec 32)) : Gang := ({ g with arrived := g.arrived ++ [(⟨rank, h⟩ : Arrived)] } : Gang).ordered

/-- What a release for scope c waits for (R115): true when the instruction may go on. -/
def State.released (s : State) (scope : Nat) : Bool := s.performed 31 scope

/-- An instruction that waits as if a release preceded it (R237, R239), abandoned by a note (R437). -/
def State.afterRelease (s : State) (scope : Nat) (k : Out) : Out :=
  if s.core.st.notes != 0 then .next (s.trapAt 0x11 0 0 0 none)
  else if s.released scope then k
  else .next s

/-- BAR (R237). -/
def execBar (a : BitVec 5) (s : State) : Out :=
  s.given (s.chkRegs [a])
    (let h := s.handle a
     let t := s.core.st
     if h = 0 then
       (if t.kMode || t.uin then .next (s.trap 0x10 0 0)
        else match s.myGang with
        | none => .next s
        | some g =>
          if g.arrived.any (fun x => x.rank == t.rank) then .next s
          else s.afterRelease 2
            (let s1 := s.modGang g.id (fun g => g.arrive t.rank none)
             if (g.arrive t.rank none).phaseDone && !s.recording g.id then .next (s1.completePhase g.id).finishQ
             else s.given (s.chkK [0x003]) (.next (s1.suspend .barrier t.klm (t.pc + 4) t.pc))))
     else match s.ownToken h, s.myGang with
     | some _, some g =>
       if g.arrived.any (fun x => x.rank == t.rank) || s.tokenFull h then .next s
       else s.afterRelease 2
         (let s1 := (s.toToken ⟨0, h, 0, false, none, false, s.core.id, 0, none⟩ s.asid).modGang g.id (fun g => g.arrive t.rank (some h))
          .next (s1.completePhase g.id).finishQ)
     | _, _ => .next (s.trap 0x10 (h.setWidth 64) 0))

/-- GJOIN and GLEAVE (R234): the change goes to the command processor, and the instruction completes when it acknowledges. The acknowledgement comes as an answer of number 0; a status other than 0 says that the group had become another address space's. -/
def State.groupChange (s : State) (join : Bool) (a : BitVec 5) (i : BitVec 12) : Out :=
  s.given (s.chkRegs [a])
    (let g := (s.reg a + i.setWidth 64).toNat % 4096
     let t := s.core.st
     match t.answers.head? with
     | some x =>
       let s1 := s.modSt (fun t => { t with answers := [], asked := false })
       if x.status != 0 then .next (s1.trap 0x0F (BitVec.ofNat 64 g) 0) else .next s1.finish
     | none =>
       if t.asked then .next s
       else if (match s.group? g with | some x => x.asid != s.asid | none => false) then .next (s.trap 0x0F (BitVec.ofNat 64 g) 0)
       else .next ({ s with groupReqs := s.groupReqs ++ [(⟨join, g, t.gang, t.rank⟩ : GroupReq)] }.modSt (fun t => { t with asked := true, askedAt := s.now })))

/-- GJOIN (R234). -/
def execGjoin (a : BitVec 5) (i : BitVec 12) (s : State) : Out := s.groupChange true a i
/-- GLEAVE (R234). -/
def execGleave (a : BitVec 5) (i : BitVec 12) (s : State) : Out := s.groupChange false a i

/-- Entries of the spawn intake in use (R336): packets not yet examined, and spawned gangs that wait. -/
def State.intakeUsed (s : State) : Nat := s.spawns.length + s.gangs.countP (fun g => g.task.spawned && g.state == .waiting)

/-- A LAUNCH packet handed to the scheduler here, or sent to another device (R239, R336, R366): with its queue number and priority in dword 1 (DEDUCED, log 25). A fenced device and a full intake come before the packet's form (DESIGN CHOICE, log 107). -/
def State.spawnGo (s : State) (d : BitVec 5) (ws : List Word) : Out :=
  let t := s.core.st
  let dev := bits ((ws.headD 0).toNat) 40 32
  let say : State → Nat → Out := fun s st => .next ((s.answer ⟨t.gang, t.rank, d.toNat, 0, false, BitVec.ofNat 64 st, 0, Config.cores, 0⟩).setMark d .pending).finish
  match s.myGang with
  | none => say s 1
  | some g =>
    if s.isHere dev then
      (if Config.intakeMax ≤ s.intakeUsed then say s 2
       else .next (({ s with spawns := s.spawns ++ [(⟨ws, t.gang, t.rank, d.toNat, g.kasid, g.task.queue, g.task.prio, g.kptbase, g.homeStvec, 0, 0⟩ : Spawn)] }).setMark d .pending).finish)
    else if s.fenced dev then say s 3
    else if s.tagsFree dev = 0 then .next s
    else .next (((s.sendReq (s.packet 0x15 dev 64 g.kasid 0 (BitVec.ofNat 64 (g.task.queue + g.task.prio * 2 ^ 16)) (ws.foldr (fun w n => n * 2 ^ 64 + w.toNat) 0) 0) t.gang t.rank (.spawn d.toNat)).setMark d .pending)).finish

/-- The packet of a SPAWN read (R239): from this device now, from another by requests. -/
def State.spawnRead (s : State) (d : BitVec 5) (ea : Word) (p : Place) (x : Xlat) : Out :=
  if p.far then
    let els := (List.range 8).map (fun i => (⟨i, 0, ea, (match p with
      | .farMem v pa k => .farMem v (pa + 8 * i) k
      | .farPad v r o => .farPad v r (o + 8 * i)
      | q => q), x⟩ : VEl))
    let gran := match p with | .farMem v pa _ => some (v * 2 ^ 48 + pa) | _ => none
    match s.missing els with
    | e :: es => .next (s.askReads (e :: es) 8 false)
    | [] =>
      let as := els.filterMap (fun e => s.answerOf e.i)
      match as.find? (fun a => a.status != 0) with
      | some b => .next (s.trap (lostCause b.status) ea 0)
      | none =>
        if as.any (·.psn) then .next (s.trapAt 0x09 ea 0 0 gran)
        else (s.useXlat x).spawnGo d (as.map (·.value))
  else if s.placeHeld p then .next s
  else
    let u := match p with | .slice pa key => (s.useXlat x).readLines pa key 64 false s.asid | _ => s
    match s.look p 64 with
    | none => .next s
    | some g =>
      if g.psn then .next (u.trapAt 0x09 ea 0 0 g.gran)
      else u.spawnGo d ((List.range 8).map (fun i => BitVec.ofNat 64 (g.val / 2 ^ (64 * i))))

/-- SPAWN (R239): the address, then the release, then the packet's 64 bytes. Device and pod scope wait for the same events (R299), so the packet need not be known yet. -/
def execSpawn (d a : BitVec 5) (s : State) : Out :=
  s.given (s.chkRegs [a])
    (let ea := s.reg a
     if ea.toNat % 64 != 0 then .next (s.trap 0x05 ea 0)
     else match s.xlate ea 64 with
     | .fault c g => .next ((s.walkFault ea).trapAt c ea 0 0 g)
     | .held => .next s
     | .at p x =>
       if !x.permits .load s.core.st.kMode || p.isCtl then .next ((s.walkFault ea).trap 0x08 ea 0)
       else s.afterRelease 4 (s.spawnRead d ea p x))

/-- The strand in the slot exits (R240, R51): its deferred causes and notes end (R429, R437). (DEDUCED, log 44) -/
def State.exitStrand (s : State) : State :=
  let t := s.core.st
  let s := s.leaveAll t.gang t.rank
  let s := s.modGang t.gang (fun g => ({ g with exited := g.exited ++ [(⟨t.rank, t.pc, t.kMode, t.uin⟩ : ExitRec)] } : Gang).ordered)
  let s := s.vacate (fun t => { t with status := .exited, deferred := [], notes := 0, watchPass := false, wait := .none })
  s.completePhase t.gang

/-- SEXIT (R240). -/
def execSexit (s : State) : Out := if s.performed 15 3 then .next s.exitStrand else .next s

/-- SID (R241); it reads a K-register, but for the gang size (R412). (DEDUCED, log 82) -/
def execSid (d : BitVec 5) (sel : BitVec 4) (s : State) : Out :=
  let v := match sel.toNat with
    | 0 => s.core.st.rank
    | 1 => (s.myGang.map (·.size)).getD 0
    | 2 => s.core.id
    | 3 => s.kdev
    | _ => s.asid
  s.given (s.chkK (match sel.toNat with
    | 0 => [0x00A]
    | 1 => []
    | 2 => [0x00B]
    | 3 => [0x00C]
    | _ => [0x110])) (.next (s.setReg d (BitVec.ofNat 64 v)).finish)

end Sys2Proof.Machine
end

