-- ==== Sys2Proof/Machine/CoreEvents.lean ====
section
/-!
DEFINITION. What a core does by itself: deferred causes (R429), the selector, ageing, rotation and context saving (R44–R48, R340, R391, R439), replies (R42, R430), the store buffer (R158, R301), L1 fills and invalidations (R280, R404), page walks (R276).
An event answers none when nothing of its kind is ready; its row then changes nothing.
-/
namespace Sys2Proof.Machine

/-- The pick-th of the things for which an event is ready. -/
def nth {α : Type} (f : α → Option State) : Nat → List α → Option State
  | _, [] => none
  | k, a :: r => match f a with
    | none => nth f k r
    | some s => if k = 0 then some s else match nth f (k - 1) r with
      | some t => some t
      | none => some s

/-- An event that may find nothing to do. -/
def State.event (s : State) (r : Option State) : Out := .next (r.getD s)

/-- The pick-th message of a list that may arrive next, with the list that it leaves (R14). (DEDUCED, log 89) -/
def State.arriving {α : Type} (s : State) (first : α → Bool) (l : List α) : Option (α × List α) := takeNth first l (s.pick % max 1 (l.countP first))

/-- Every resident strand with its core. -/
def State.strands (s : State) : List (Nat × Strand) :=
  s.allCores.flatMap (fun k => ((k.st :: k.rest).filter (fun t => t.status != .none)).map (fun t => (k.id, t)))

/-- A deferred cause may be taken now: user mode, outside a handler (R429). -/
def Strand.mayDefer (t : Strand) : Bool := !t.deferred.isEmpty && !t.kMode && !t.uin

/-- The instruction at the pc has begun: it waits to be accepted, has done some of its groups, or waits for an answer. -/
def Strand.begun (t : Strand) : Bool := t.vq.isSome || t.prog.isSome || t.asked || !t.answers.isEmpty
/-- The resume depth that the next instruction would have (R392): one of the vector queue uses up one of the resumed window's. (DEDUCED, log 90) -/
def Strand.leftDepth (t : Strand) (queued : Bool) : Nat := if queued && t.resFirst.isNone then t.resN - 1 else t.resN
/-- The word at the pc is one of the vector queue (R220, R302). -/
def State.nextQueued (s : State) : Bool :=
  match s.fetch with
  | .word w _ _ _ _ => (match decodeWord w with | .instr i => inQueue i | _ => false)
  | _ => false

/-- The strand in the slot takes its oldest deferred cause at check 8 of the instruction that would commit next, with its group and depth (R400, R429). (DEDUCED, log 90) -/
def State.takeDeferred (s : State) : Option State :=
  let t := s.core.st
  if t.status != .running || t.begun || !t.drained || t.wait != .none || !t.mayDefer || !t.checked then none
  else match t.deferred with
  | d :: r => some ((s.modSt (fun t => { t with deferred := r, checked := false })).trapAt d.cause d.eval t.resGroup (t.leftDepth s.nextQueued) none)
  | [] => none

/-- A wait in AWAIT, TLDF or TWAIT is cancelled by a deferred cause: the strand is Runnable at that instruction (R429). -/
def Strand.cancelWait (t : Strand) (now : Nat) : Strand := { t with pc := t.waitPc }.woken now
def State.cancelDeferred (s : State) (x : Nat × Strand) : Option State :=
  let t := x.2
  match t.wait with
  | .none => none
  | .barrier => none
  | _ =>
    if !t.deferred.isEmpty && (t.status == .waiting || t.inPlace) then
      some (s.modCoreAt x.1 (fun k => k.modStrand t.gang t.rank (fun t => t.cancelWait s.now)))
    else none
/-- DEFERRED_TRAP (R429): at the instruction that would commit next, once its checks 1 to 7 have passed; a wait is cancelled. -/
def State.evDeferred (s : State) : Option State :=
  match s.takeDeferred with
  | some t => some t
  | none => nth s.cancelDeferred s.pick s.strands
def execDeferredTrap (s : State) : Out := s.event s.evDeferred

/-- The ageing boost with the rises that are due: they are counted up to when the issue slot was left (R340). -/
def State.boostOf (s : State) (k : Core) (t : Strand) : Nat :=
  t.boost + (if t.status == .runnable then ((if k.phase == .run then s.now else k.freeFrom) - t.agedAt) / 4096 else 0)
/-- Effective priority (R340). -/
def State.prioOf (s : State) (k : Core) (t : Strand) : Nat := min (((s.gang? t.gang).map (·.task.prio)).getD 0 + s.boostOf k t) 7

/-- STRAND_SELECT (R340): highest effective priority, then earliest Runnable, then lowest place. -/
def State.better (s : State) (k : Core) (a b : Strand) : Bool :=
  let pa := s.prioOf k a
  let pb := s.prioOf k b
  decide (pb < pa) || (pa == pb && (decide (a.readyAt < b.readyAt) || (a.readyAt == b.readyAt && decide (a.place < b.place))))
def State.bestOf (s : State) (k : Core) : List Strand → Option Strand
  | [] => none
  | t :: r => match s.bestOf k r with
    | none => some t
    | some b => if s.better k b t then some b else some t
/-- Runnable strands of a core, but for those of a gang that is being parked (R342). -/
def State.runnables (s : State) (k : Core) : List Strand :=
  k.rest.filter (fun t => t.status == .runnable && (match s.gang? t.gang with | some g => g.state != .parking | none => true))

/-- A place of a strand taken out of a list. -/
def Strand.same (a b : Strand) : Bool := a.gang == b.gang && a.rank == b.rank

/-- The selector's choice begins to be restored (R46). -/
def State.select (s : State) (c : Nat) : Option State :=
  let k := s.coreAt c
  match s.bestOf k (s.runnables k) with
  | none => none
  | some t =>
    some (s.putCore { k with
      slotFrom := s.now, st := t, rest := k.rest.filter (fun x => !(x.same t))
      phase := .restoring (s.now + t.image.cycles t.liveVecs) })

/-- The Runnable strand of a list that has been so longest; of two that have been so equally long the one that stands first, since R44 names only the oldest. (DESIGN CHOICE, log 99) -/
def oldest : List Strand → Option Strand
  | [] => none
  | t :: r => match oldest r with
    | none => some t
    | some b => if b.readyAt < t.readyAt then some b else some t
/-- An image whose head has moved into a larder slot: what is left takes the extent and the first of its KiB (R44, R45). (DEDUCED, log 23) -/
def Image.intoLarder (i : Image) : Image :=
  let rest := i.bytes - 2048
  let n := ceilDiv (rest - 512) 1024
  { i with larder := true, ext := min rest 512, kib := i.kib.take n, saveKiB := n - (i.kib.take n).length }
/-- Each free larder slot takes the image head of the oldest Runnable strand wholly outside the larder (R44), whenever one becomes free: at the end of a save or a restoration, and where a gang leaves the core. The first argument bounds the slots. -/
def Core.refillLarder : Nat → Core → Core
  | 0, k => k
  | n + 1, k =>
    if Config.larderSlots ≤ k.larderUsed then k
    else match oldest (k.rest.filter (fun t => t.status == .runnable && !t.image.larder && t.image.bytes != 0 && !t.saving)) with
    | none => k
    | some t => Core.refillLarder n { k with rest := mapIf (fun x => x.same t) (fun x => { x with image := x.image.intoLarder }) k.rest }

/-- A strand's save has ended: where its wait has been satisfied meanwhile it is Runnable now (R39). One that yielded or was rotated has been Runnable, and ages, since it left the slot (R39, R47). -/
def Strand.saved (t : Strand) (now : Nat) : Strand :=
  if !t.saving then t
  else if t.status == .waiting && t.wait == .none then { t with saving := false }.ready now
  else { t with saving := false }

/-- CONTEXT_SAVE_END (R46, R48): the save has ended, or the slot is idle; the selector chooses. -/
def State.saveEnd (s : State) (k : Core) : Option State :=
  let go := fun (k : Core) =>
    let s1 := s.putCore (Core.refillLarder Config.larderSlots { k with phase := .idle, rest := k.rest.map (fun t => t.saved s.now) })
    match s1.select k.id with
    | some t => some t
    | none => if k.phase == .idle then none else some s1
  match k.phase with
  | .saving till => if till ≤ s.now then go k else none
  | .idle => if k.st.status == .none then go k else none
  | _ => none
def State.evSaveEnd (s : State) : Option State := nth s.saveEnd s.pick s.allCores
def execContextSaveEnd (s : State) : Out := s.event s.evSaveEnd

/-- CONTEXT_RESTORE_END (R41, R46, R415): the strand runs, or its gang is contained because a granule of its header or of a mask is lost, which PSNA names (R397); one in the larder has no address that the spec gives, so PSNA is left open there (DESIGN CHOICE, log 8). Cycles without a holder of the slot do not age the others (R340). -/
def State.restoreEnd (s : State) (k : Core) : Option State :=
  match k.phase with
  | .restoring till =>
    if s.now < till then none
    else if let some off := k.st.image.bad then
      let t := k.st
      let (a, s) := match s.imageAddr k.id t off with | some a => (a, s) | none => s.choose (2 ^ 48)
      some { s.putCore { k with rest := k.rest ++ [{ t with status := .stopped }], st := Strand.empty, phase := .idle } with
        contains := s.contains ++ [⟨t.gang, t.rank, 0x09, 0, 0, 0, some a⟩] }
    else
      let f := fun (t : Strand) => if t.status == .runnable then { t with agedAt := t.agedAt + (s.now - max k.freeFrom t.readyAt) } else t
      let t := if k.st.zeroing && !k.st.inPlace then k.st.zeroDead else k.st
      some (s.putCore (Core.refillLarder Config.larderSlots { k with
        st := { t with status := .running, boost := 0, image := Image.none }, rest := k.rest.map f, phase := .run }))
  | _ => none
def State.evRestoreEnd (s : State) : Option State := nth s.restoreEnd s.pick s.allCores
def execContextRestoreEnd (s : State) : Out := s.event s.evRestoreEnd

/-- AGEING (R340). -/
def State.age (s : State) (x : Nat × Strand) : Option State :=
  let k := s.coreAt x.1
  let t := x.2
  if k.phase == .run && t.status == .runnable && !(k.st.same t) && decide (4096 ≤ s.now - t.agedAt) then
    some (s.modCoreAt x.1 (fun k => k.modStrand t.gang t.rank (fun t => { t with boost := t.boost + 1, agedAt := t.agedAt + 4096 })))
  else none
def State.evAgeing (s : State) : Option State := nth s.age s.pick s.strands
def execAgeing (s : State) : Out := s.event s.evAgeing

/-- TLBINV has begun: what it waits for belongs to no group (R264). -/
def Strand.flushing (t : Strand) : Bool := t.answers.any (fun a => a.status == 9)
/-- A group of a strand's vector instructions has been issued and has not committed (R439). -/
def Strand.inGroup (t : Strand) : Bool := !t.flushing && (t.asked || !t.answers.isEmpty || t.prog.any (fun p => !p.els.isEmpty) || t.turn != 0)

/-- Rotation wants the strand in a core's slot (R48, R441). -/
def State.rotationDue (s : State) (k : Core) : Bool :=
  k.phase == .run && k.st.status == .running && k.st.wait == .none && decide (16384 ≤ s.now - k.slotFrom)
    && (s.runnables k).any (fun t => decide (s.prioOf k { k.st with boost := 0 } ≤ s.prioOf k t))
    && (s.findRoom k k.st k.st.fullBytes).isSome

/-- The group in progress is given up, and the instructions below it keep what they have done (R391). -/
def Strand.dropGroup (t : Strand) : Strand :=
  { t with prog := t.prog.map (fun p => { p with els := [], trim := none }), answers := [], asked := false }

/-- A strand leaves the slot whole at a group boundary, with nothing zeroed afterwards; a copy that is not accepted is issued again (R48, R391). -/
def Strand.rotated (t : Strand) (now : Nat) : Strand :=
  { t.unwind.dropGroup with vq := none, zeroing := false, saving := true, live := BitVec.allOnes 48 |>.setWidth 64, code := none, codeAsked := none }.ready now

/-- ISSUE_ROTATION (R48): once nothing is left in a group and no store is held. -/
def State.rotate (s : State) (k : Core) : Option State :=
  if !s.rotationDue k || k.st.inGroup || !k.st.out.isEmpty then none
  else match s.findRoom k k.st k.st.fullBytes with
  | none => none
  | some im =>
    some ((s.spill k.st im.saveKiB).putCore { k with
      rest := k.rest ++ [{ k.st.rotated s.now with image := im }]
      st := Strand.empty, phase := .saving (s.now + im.cycles 32), freeFrom := s.now })
def State.evRotation (s : State) : Option State := nth s.rotate s.pick s.allCores
def execIssueRotation (s : State) : Out := s.event s.evRotation

/-- An answer that the group in progress awaits is still missing (R439). -/
def State.awaited (s : State) (t : Strand) : Bool :=
  s.groupReqs.any (fun q => q.gang == t.gang && q.rank == t.rank)
    || s.reqs.any (fun r => r.gang == t.gang && r.rank == t.rank && (match r.kind with
      | .vec _ _ => true
      | .vecStore _ => true
      | .store c => bit c 3
      | _ => false))

/-- A strand's outstanding vector requests are no longer awaited, and their answers will be discarded; a group change that the command processor has not made is withdrawn (R234). -/
def State.dropAsks (s : State) (gang rank : Nat) : State :=
  { s with
    groupReqs := s.groupReqs.filter (fun q => !(q.gang == gang && q.rank == rank))
    reqs := mapIf (fun (r : Req) => r.gang == gang && r.rank == rank && (match r.kind with
      | .vec _ _ => true
      | .vecStore _ => true
      | _ => false)) (fun r => { r with kind := match r.kind with
      | .vecStore _ => .store 8
      | _ => .store 0 }) s.reqs }

/-- GROUP_ROLLBACK (R391, R439): rotation or pre-emption is wanted, and a group has waited 4,096 cycles for an answer that is still missing. What it has overwritten is as it was, and it is issued again. -/
def State.rollback (s : State) (k : Core) : Option State :=
  let parking := match s.gang? k.st.gang with | some g => g.state == .parking | none => false
  if (s.rotationDue k || (parking && k.st.status == .running)) && k.st.inGroup && s.awaited k.st && decide (4096 ≤ s.now - k.st.askedAt) then
    some ((s.putCore { k with st := k.st.unwind.dropGroup }).dropAsks k.st.gang k.st.rank)
  else none
def State.evRollback (s : State) : Option State := nth s.rollback s.pick s.allCores
def execGroupRollback (s : State) : Out := s.event s.evRollback

/-- TOKEN_COMPLETION (R36, R37). -/
def State.evToken (s : State) : Option State :=
  match s.arriving (fun (m : TokMsg) => s.foremost m.unit (hCore m.handle) m.seq) s.tokMsgs with
  | none => none
  | some (m, r) => some ({ s with tokMsgs := r }.applyToken m)
def execTokenCompletion (s : State) : Out := s.event s.evToken

/-- A reply reaches its register, in the core or in the saved context (R42, R80, R430); one whose register has been written since is dropped. (DEDUCED, log 31) -/
def Strand.replyOne (t : Strand) (r : Reply) : Strand :=
  if t.marks[r.reg]? != some .pending then t
  else if r.status != 0 then t.setMark r.reg (.lost r.status r.addr)
  else if r.psn then t.setMark r.reg .poisoned
  else t.setReg r.reg r.value
/-- And to the same register of every queued instruction's scalar state, where it is awaited too (R390). (DEDUCED, log 31) -/
def Strand.reply (t : Strand) (r : Reply) : Strand :=
  { t.replyOne r with queue := t.queue.map (fun q => { q with ctx := ((q.ctx.onto t).replyOne r).ctx }) }
/-- REMOTE_REPLY (R42). -/
def State.evReply (s : State) : Option State :=
  match s.arriving (fun (r : Reply) => s.foremost r.unit (((s.strand? r.gang r.rank).map (·.1)).getD Config.cores) r.seq) s.replies with
  | none => none
  | some (r, l) => some ({ s with replies := l }.modStrand r.gang r.rank (fun t => t.reply r))
def execRemoteReply (s : State) : Out := s.event s.evReply

/-- Where a store-buffer entry goes, for R301's order: slice, control space, scratchpad, other device. -/
def SbEntry.dest (e : SbEntry) : Nat × Nat :=
  match e.kind with
  | 0 => (0, sliceOf e.addr)
  | 1 => (1, 0)
  | 2 => (2, e.unit)
  | 3 => (3, e.unit)
  | _ => (3, e.unit / 65536)

/-- A strand lives on a core. -/
def State.onCore (s : State) (c gang rank : Nat) : Bool := match s.strand? gang rank with | some (d, _) => d == c | none => false

/-- The destinations of a core's scalar stores that await acknowledgement (R301). -/
def State.sentDests (s : State) (c : Nat) : List (Nat × Nat) :=
  (s.invals.filter (fun v => v.cls % 128 == 2 && s.onCore c v.gang v.rank)).map (fun v => (0, sliceOf (64 * v.line)))
    ++ (s.ctlWrites.filter (fun w => w.gang != 0 && s.onCore c w.gang w.rank)).map (fun _ => (1, 0))
    ++ (s.reqs.filter (fun r => s.onCore c r.gang r.rank && (match r.kind with | .store c => c % 128 == 2 | _ => false))).map (fun r => (3, r.dst))

/-- The own L1 line, a fill of it on the way, and the own instruction line, after a scalar store (R280, R281, R404): a hit is updated and most recently used, and one that poisoned data reaches is dropped (R409). -/
def State.storeLocal (s : State) (c : Nat) (e : SbEntry) : State :=
  let ln := e.addr / 64 + 2 ^ 48 * e.key
  let put := fun (d : Line) => BitVec.ofNat 512 (writeByte64 d.toNat (e.addr % 64) e.n e.value.toNat)
  let mine := fun (f : L1Fill) => f.core == c && f.line == ln && !f.instr
  let s := s.modCoreAt c (fun k => { k with
    l1 := (if e.psn then [] else (k.l1.filter (fun l => l.line == ln)).map (fun l => { l with data := put l.data })) ++ k.l1.filter (fun l => l.line != ln)
    icache := k.icache.filter (fun l => l.line % 2 ^ 48 != e.addr / 64) })
  let s := { s with l1Fills := s.l1Fills.filter (fun f => !(f.core == c && f.instr && f.line % 2 ^ 48 == e.addr / 64)) }
  if e.psn then { s with l1Fills := s.l1Fills.filter (fun f => !mine f) }
  else { s with l1Fills := mapIf mine (fun f => { f with data := put f.data }) s.l1Fills }
where
  writeByte64 (d off n v : Nat) : Nat := d - (d / 256 ^ off % 256 ^ n) * 256 ^ off + v % 256 ^ n * 256 ^ off

/-- The value that a write brings to a register of control space: a register holds no poison, and the spec names no value that poisoned data leaves there. (DESIGN CHOICE, log 91) -/
def State.ctlValue (s : State) (v : Word) (psn : Bool) : Word × State :=
  if psn then (BitVec.ofNat 64 (s.choose (2 ^ 64)).1, (s.choose (2 ^ 64)).2) else (v, s)

/-- A gang's own scratchpads as its own stores reach them: while it is being parked they still do (R342). -/
def Gang.open (g : Gang) : Gang := if g.state == .parking then { g with state := .placed } else g

/-- A store-buffer entry leaves for its destination; none while a parked target or a lack of tags holds it. -/
def State.sendEntry (s : State) (c : Nat) (rest : List SbEntry) (e : SbEntry) : Option State :=
  let s1 := s.modCoreAt c (fun k => { k with sb := rest })
  let lost := s1.modStrand e.gang e.rank (fun t => t.note 2)
  let asid := e.asid
  let v := e.value.toNat
  match e.kind with
  | 0 => some ((s1.writePa e.addr e.key e.n v (if e.psn then 2 ^ e.n - 1 else 0) false asid (some c) e.gang e.rank 2).storeLocal c e)
  | 1 =>
    let (x, s1) := s1.ctlValue e.value e.psn
    some { s1 with ctlWrites := s1.ctlWrites ++ [⟨e.addr, e.n, x, false, s.kdev, e.gang, e.rank, 0, 0, false⟩] }
  | 2 =>
    (match s.gang? e.gang with
     | none => some lost
     | some g => match s.peerIn g.open e.unit e.addr e.n with
       | .held => none
       | .at _ _ d off => if s.coming c d then none else some (s1.modCoreAt d (fun k => k.padPut off e.n v (if e.psn then 2 ^ e.n - 1 else 0)))
       | _ => some lost)
  | 3 =>
    if s.fenced e.unit then some lost
    else if s.tagsFree e.unit = 0 then none
    else some (s1.sendWrite (.farMem e.unit e.addr e.key) e.n v (b2n e.psn) asid e.gang e.rank (.store 2))
  | _ =>
    let d := e.unit / 65536
    if s.fenced d then some lost
    else if s.tagsFree d = 0 then none
    else some (s1.sendWrite (.farPad d (e.unit % 65536) e.addr) e.n v (b2n e.psn) asid e.gang e.rank (.store 2))

/-- Stores that are no longer provisional enter the store buffer as it has room, and as no transfer before them holds their range (R233, R390). -/
def State.takeOut (s : State) : State :=
  let k := s.core
  let n := Config.storeEntries - k.sb.length
  let go := (k.st.out.take n).takeWhile (fun e => !(e.kind == 2 && e.unit == e.rank
    && k.locks.any (fun l => l.gang == e.gang && l.rank == e.rank && decide (l.lo < e.addr + e.n) && decide (e.addr < l.hi) && s.standing l)))
  s.modCore (fun k => { k with sb := k.sb ++ go, st := { k.st with out := k.st.out.drop go.length } })

/-- STORE_SEND for a core's oldest entry (R158, R301): none while it must wait. A slice performs it after the store before it, whose invalidations are then acknowledged (R298, R300). -/
def State.sendStore (s : State) (k : Core) : Option State :=
  match k.sb with
  | [] => none
  | e :: rest =>
    let busy := match s.strand? e.gang e.rank with | some (_, t) => s.strandBusy t | none => false
    if busy || (s.sentDests k.id).any (fun d => d != e.dest || d.1 == 0) then none else (s.sendEntry k.id rest e).map (fun s => ((s.turnTo k.id).takeOut).turnTo s.core.id)
def State.evStoreSend (s : State) : Option State := nth s.sendStore s.pick s.allCores
def execStoreSend (s : State) : Out := s.event s.evStoreSend

/-- A line enters an L1, the least recently used of its set leaving (R281). -/
def fillSet (l : List L1Line) (x : L1Line) : List L1Line :=
  let rest := l.filter (fun y => y.line != x.line)
  let same := rest.filter (fun y => y.line % 256 == x.line % 256)
  if same.length < 4 then x :: rest
  else match same.getLast? with
  | some v => x :: rest.filter (· != v)
  | none => x :: rest
/-- The L1 instruction cache of 64 KiB holds 1,024 lines (R16). The spec gives its size alone: the model lets a line stand anywhere in it, and the line that has stood in it longest leaves. (DESIGN CHOICE, log 39) -/
def fillI (l : List L1Line) (x : L1Line) : List L1Line := (x :: l.filter (fun y => y.line != x.line)).take 1024

/-- L1_FILL (R280, R404). -/
def State.evL1Fill (s : State) : Option State :=
  match takeNth (fun (_ : L1Fill) => true) s.l1Fills (s.pick % max 1 s.l1Fills.length) with
  | none => none
  | some (f, r) =>
    some ({ s with l1Fills := r }.modCoreAt f.core (fun k =>
      if f.instr then { k with icache := fillI k.icache ⟨f.line, f.data⟩ } else { k with l1 := fillSet k.l1 ⟨f.line, f.data⟩ }))
def execL1Fill (s : State) : Out := s.event s.evL1Fill

/-- An invalidation reaches one L1, which drops the line and acknowledges (R280); with the last one of a fault record the phase that waits for it completes (R462). -/
def State.ackInval (s : State) (x : Inval × Nat) : Option State :=
  let (v, c) := x
  let s1 := s.modCoreAt c (fun k => { k with
    l1 := k.l1.filter (fun l => l.line % 2 ^ 48 != v.line), icache := k.icache.filter (fun l => l.line % 2 ^ 48 != v.line) })
  let v' := { v with left := v.left.erase c }
  let s2 := { s1 with
    l1Fills := s.l1Fills.filter (fun f => f.core != c || f.line % 2 ^ 48 != v.line)
    invals := if v'.left.isEmpty then s.invals.erase v else s.invals.map (fun y => if y == v then v' else y) }
  some (if v.cls = 0 && v.gang != 0 then s2.completePhase v.gang else s2)
/-- INVALIDATION_ACK (R280). -/
def State.evInvalAck (s : State) : Option State :=
  let l := s.invals.flatMap (fun v => v.left.map (fun c => (v, c)))
  match l[s.pick % max 1 l.length]? with
  | some x => s.ackInval x
  | none => none
def execInvalidationAck (s : State) : Out := s.event s.evInvalAck

/-- PAGE_WALK (R274, R276): the walk's result enters the hub cache of its address and the core's TLB. The spec gives the TLB's replacement and not the hub cache's: from a full one the translation goes that was inserted, or used by a unit of the hub dies, longest ago. (DESIGN CHOICE, log 92) -/
def State.evPageWalk (s : State) : Option State :=
  match takeNth (fun (_ : Nat × Xlat) => true) s.walks (s.pick % max 1 s.walks.length) with
  | none => none
  | some ((c, x), r) =>
    let put := fun (n : Nat) (l : List Xlat) => (x :: l.filter (· != x)).take n
    let odd := if x.big then x.page % 2 == 1 else x.page / 8192 % 2 == 1
    let s := { s with walks := r }.modCoreAt c (fun k => { k with tlb := put Config.tlbEntries k.tlb })
    some (if odd then { s with hub1 := put Config.hubEntries s.hub1 } else { s with hub0 := put Config.hubEntries s.hub0 })
def execPageWalk (s : State) : Out := s.event s.evPageWalk

end Sys2Proof.Machine
end

