-- ==== Sys2Proof/Machine/EngineEvents.lean ====
section
/-!
DEFINITION. What the engines do: copies (R231), fills and contributions at their tiles (R214, R216, R432), the porch (R236), group changes (R234).
-/
namespace Sys2Proof.Machine

/-- COPY_ACCEPT (R231): the copy at the head of a running strand's queue. -/
def State.acceptAt (s : State) (k : Core) : Option State :=
  match k.st.vq with
  | some e => if k.phase == .run && k.st.status == .running then ((s.turnTo k.id).tryCopy e).map (·.turnTo s.core.id) else none
  | none => none
def State.evCopyAccept (s : State) : Option State := nth s.acceptAt s.pick s.allCores
def execCopyAccept (s : State) : Out := s.event s.evCopyAccept

/-- COPY_COMPLETE (R231): a transfer's next run moves, or the transfer completes. -/
def State.evCopyComplete (s : State) : Option State := nth s.advance s.pick s.xfers
def execCopyComplete (s : State) : Out := s.event s.evCopyComplete

/-- Where an arrival finds its target (R49, R362, R396, R442): a tile of a core, a target that is lost, or one that holds it back. -/
inductive Target where
  | tile (core idx : Nat) | lost | held
  deriving DecidableEq, Repr

/-- A fill of a transfer of the target's own gang: it lands while that gang is being parked (R342). -/
def State.ownFill (s : State) (a : Arrival) : Bool :=
  a.fromDev == 0 && (match s.xfer? a.xfer with | some x => x.gang == a.gang | none => false)

/-- The target of an arrival. -/
def State.targetOf (s : State) (a : Arrival) : Target :=
  match s.gang? a.gang with
  | none => .lost
  | some g =>
    if g.state == .done then .lost
    else if g.state == .contained && !g.task.isolate then .held
    else if g.lost a.rank then .lost
    else match s.strand? a.gang a.rank with
    | none => .lost
    | some (c, t) =>
      let i := (t.allotBase + a.off) / 256
      if g.state == .parked then .held
      else if g.state == .parking && ((s.coreAt c).tile i).owner != some a.source && !s.ownFill a then .held
      else .tile c i

/-- The queue takes an arrival, or refuses it: then its sender tries again (R214, R216, R432). -/
def State.queueArrival (s : State) (c : Nat) (a : Arrival) : State :=
  if (s.coreAt c).overrun.length < Config.overrunMax then s.modCoreAt c (fun k => { k with overrun := k.overrun ++ [a] })
  else if a.fromDev != 0 || decide (2048 ≤ a.tries + 1) then s.arrivalDone a 3
  else { s with retries := s.retries ++ [{ a with tries := a.tries + 1, due := s.now + 512 }] }

/-- A fill or a contribution reaches its tile (R214, R216). -/
def State.arriveAt (s : State) (a : Arrival) : Option State :=
  match s.targetOf a with
  | .held => none
  | .lost => some (s.arrivalDone a 1)
  | .tile c i =>
    if a.combine then
      match s.contribute c i a with
      | some t => some t
      | none => some (s.queueArrival c a)
    else if ((s.coreAt c).tile i).admits a then some (s.landFill c i a)
    else some (s.queueArrival c a)

/-- A refused arrival tried again (R432): here, or by a request to its device; a multicast run that could not be sent, and the end of a fill (R214). -/
def State.retry (s : State) (a : Arrival) : Option State :=
  let s1 := { s with retries := s.retries.erase a }
  if s.now < a.due then none
  else if a.isEnder then
    (if a.toDev = s.kdev then some { s1 with rx := s.rx ++ [{ s.arrivalPacket a a.asid with src := s.kdev }] }
    else if s.fenced a.toDev then some s1
    else if s.tagsFree a.toDev = 0 then none
    else some (s1.sendArrival a a.asid 0 0))
  else if a.toDev = 0 && a.isCast then
    (match s.xfer? a.xfer with
    | none => some s1
    | some x => (s1.sendCast a.group a x.asid x.gang x.rank).map (fun s => s.modXfer a.xfer (fun x => { x with waiting := x.waiting - 1 })))
  else if a.toDev = 0 then s1.arriveAt a
  else if s.fenced a.toDev then some (s1.arrivalDone a 1)
  else if s.tagsFree a.toDev = 0 then none
  else match s.xfer? a.xfer with
  | none => if a.absent then some (s1.sendArrival a a.asid 0 0) else some s1
  | some x => some (s1.sendArrival a x.space x.gang x.rank)
/-- FILL_RETRY (R432). -/
def State.evRetry (s : State) : Option State := nth s.retry s.pick s.retries
def execFillRetry (s : State) : Out := s.event s.evRetry

/-- FILL_END (R214): a fill that has ended owns no tile any more, and the next waiting fill is admitted. -/
def State.endFill (s : State) (o : Nat × Nat) : State :=
  s.allCores.foldl (fun s k =>
    (k.tiles.filter (fun t => t.owner == some o)).foldl (fun s t =>
      (s.modCoreAt k.id (fun k => k.modTile t.idx (fun t => { t with owner := none }))).letIn k.id t.idx Config.overrunMax) s) s
def State.evFillEnd (s : State) : Option State :=
  match s.fillEnds[s.pick % max 1 s.fillEnds.length]? with
  | some o => some ({ s with fillEnds := s.fillEnds.erase o }.endFill o)
  | none => none
def execFillEnd (s : State) : Out := s.event s.evFillEnd

/-- PORCH_REQUEST (R236). -/
def State.evPorch (s : State) : Option State := nth (fun p => { s with pieces := s.pieces.erase p }.arrivePiece p) s.pick s.pieces
def execPorchRequest (s : State) : Out := s.event s.evPorch

/-- HOLD_EXPIRY (R236): the hold has run out, or every member has arrived and the piece can now be read. -/
def State.expire (s : State) (p : Porch) : Option State :=
  if !p.released && (decide (p.expiry ≤ s.now) || s.allArrived p) && s.servable p then some (s.release p) else none
def State.evHold (s : State) : Option State := nth s.expire s.pick s.porch
def execHoldExpiry (s : State) : Out := s.event s.evHold

/-- RELEASED_ENTRY_EXPIRY (R236). (DEDUCED, log 46) -/
def State.forget (s : State) (p : Porch) : Option State :=
  if p.released && decide (p.expiry ≤ s.now) then some { s with porch := s.porch.erase p } else none
def State.evReleased (s : State) : Option State := nth s.forget s.pick s.porch
def execReleasedEntryExpiry (s : State) : Out := s.event s.evReleased

/-- A group change done and acknowledged (R234): a GLEAVE only after every fill released to the leaving core has landed there (R435). -/
def State.ackGroup (s : State) (q : GroupReq) : Option State :=
  let asid := ((s.gang? q.gang).map (·.kasid)).getD 0
  let s1 := { s with groupReqs := s.groupReqs.erase q }
  let say := fun (s : State) (st : Nat) => s.modStrand q.gang q.rank (fun t => if t.asked then { t with answers := [⟨0, st, false, 0⟩] } else t)
  let other := match s.group? q.g with | some x => x.asid != asid | none => false
  if other then some (say s1 1)
  else if q.join then some (say (s1.joinGroup q.g asid q.gang q.rank) 0)
  else if s.enrolled q.g q.gang q.rank && s.fills.any (fun a => a.gang == q.gang && a.rank == q.rank) then none
  else some (say (s1.leaveGroup q.g q.gang q.rank) 0)
/-- GROUP_CHANGE_ACK (R234). -/
def State.evGroupAck (s : State) : Option State := nth s.ackGroup s.pick s.groupReqs
def execGroupChangeAck (s : State) : Out := s.event s.evGroupAck

end Sys2Proof.Machine
end

