-- ==== Sys2Proof/Machine/HostMsg.lean ====
section
/-!
DEFINITION. Host messages (R332, R370, R371, R416) and the bridge's ring.
-/
namespace Sys2Proof.Machine

/-- A message's 32 bytes but for PHASE (R371). -/
def hostWords (tag dev queue status : Nat) (value va : Word) (under : Bool) : BitVec 256 :=
  BitVec.ofNat 256 (tag % 65536 * 2 ^ 48 + dev * 2 ^ 32 + queue * 2 ^ 16 + status * 2 ^ 8
    + value.toNat * 2 ^ 64 + va.toNat * 2 ^ 128 + b2n under * 2 ^ 192)

/-- The ring takes a message now (R370). -/
def State.ringRoom (s : State) : Bool := s.hmEn && s.hmWr - s.hmRd != 2 ^ s.hmSize
/-- The bridge writes a message to entry HMWR, PHASE by the pass, dwords 1 to 3 before dword 0, and counts it (R370, R371). -/
def State.ringPut (s : State) (w : BitVec 256) : State :=
  let n := 2 ^ s.hmSize
  let a := s.hmBase.toNat + 32 * (s.hmWr % n)
  { s with
    hostMem := s.hostMem ++ [(a + 8, 24, w >>> 64), (a, 8, w % 2 ^ 64 ||| BitVec.ofNat 256 (b2n (s.hmWr / n % 2 == 0)))]
    hmWr := s.hmWr + 1 }
/-- A message at the bridge: written behind those it holds, held up to 256, else dropped and counted (R370). -/
def State.bridgeTake (s : State) (w : BitVec 256) : State :=
  if s.hmKept.isEmpty && s.ringRoom then s.ringPut w
  else if s.hmKept.length < 256 then { s with hmKept := s.hmKept ++ [w] }
  else { s with hmLost := s.hmLost + 1 }

/-- The device that bridges this device's host group, when FBRIDGE names one (R449, R368). -/
def State.bridgeDev (s : State) : Option Nat :=
  if s.fbridge.getLsbD 3 then some (s.kdev / 8 * 8 + s.fbridge.toNat % 8) else none

/-- A member keeps up to 64 messages (R370, R458). -/
def State.keepMsg (s : State) (w : BitVec 256) : State :=
  if s.hmKept.length < 64 then { s with hmKept := s.hmKept ++ [w] } else s

/-- A host message leaves for the bridge (R370); one that meets a fenced bridge is kept (R458). (DESIGN CHOICE, log 109) -/
def State.hostMsg (s : State) (w : BitVec 256) : State :=
  match s.bridgeDev with
  | none => s.keepMsg w
  | some d =>
    if d = s.kdev then s.bridgeTake w
    else if s.fenced d then s.keepMsg w
    else { s with txq := s.txq ++ [s.packet 0x17 d 32 0 2 0 w.toNat 0] }

/-- DIRTY_LINE_LOST (R416): the message of status 7, once for each enabled queue of the charged address space. -/
def State.lostLine (s : State) (asid line : Nat) : State :=
  (s.queues.filter (fun q => q.en && q.asid == asid)).foldl
    (fun s q => s.hostMsg (hostWords 0 s.kdev q.q 7 (BitVec.ofNat 64 (s.podPa (64 * line))) 0 false)) s

end Sys2Proof.Machine
end

