-- ==== Sys2Proof/Machine/Contain.lean ====
section
/-!
DEFINITION. Containment (R395, R396, R435, R438) with the fault record (R397, R398), and the completion of a gang (R51, R434, R333).
-/
namespace Sys2Proof.Machine

/-- What one strand's record needs from the moment of its stop (R397). -/
structure Stop where
  rank : Nat
  core : Nat
  t : Strand
  reason : Nat
  cause : BitVec 8
  val : Word
  grp : Nat
  depth : Nat
  psna : Option Nat
  stw : Bool
  xfers : List Xfer

/-- A strand's transfers, oldest accepted first (R397). -/
def State.xfersOf (s : State) (gang rank : Nat) : List Xfer := s.xfers.filter (fun x => x.gang == gang && x.rank == rank && x.kind != 5)

/-- STW (R398): a store, AMO or the like that has not been acknowledged, or was lost (R437), and that no completed FENCE with ss and vs in pred follows. -/
def State.stwOf (s : State) (core gang rank : Nat) : Bool :=
  ((s.coreAt core).sb ++ ((s.coreAt core).st :: (s.coreAt core).rest).flatMap (·.out)).any (fun e => e.gang == gang && e.rank == rank)
    || s.invals.any (fun v => v.gang == gang && v.rank == rank && v.cls &&& 10 != 0 && !bit v.cls 7)
    || s.ctlWrites.any (fun w => w.gang == gang && w.rank == rank && !w.covered)
    || s.reqs.any (fun r => r.gang == gang && r.rank == rank && (match r.kind with
      | .store c => c &&& 10 != 0 && !bit c 7
      | .amo _ _ _ => true
      | .vecStore _ => true
      | _ => false))
    || (match s.strand? gang rank with
      | some (_, t) => t.notes &&& 10#5 != 0
      | none => false)

/-- Dwords 8 to 15 (R397). -/
def Xfer.entry (x : Xfer) : Nat :=
  (match x.handle with | some h => h.toNat / 64 * 2 ^ 38 + 2 ^ 35 | none => 0) + x.kind % 8 * 2 ^ 32 + min x.done 0xFFFFFFFF

/-- Pending and count of a token of this device, as dwords 6 and 7 hold them (R397). -/
def State.snapshot (s : State) (h : BitVec 32) : Nat :=
  if hDev h != s.kdev then 0
  else match (s.coreAt (hCore h)).token? (hSlot h) with
  | some t => t.pend % 65536 * 2 ^ 32 + t.count
  | none => 0

/-- FAULT_RECORD (R397): the 128 bytes as one number. (DEDUCED, log 21) (DEDUCED, log 49) -/
def State.recordOf (s : State) (g : Gang) (x : Stop) : Nat :=
  let t := x.t
  let wait := match t.wait with | .token i thr => if x.reason = 2 then none else some (handleOf s.kdev x.core i, thr) | _ => none
  let n := min x.xfers.length 8
  let d0 := g.id * 2 ^ 48 + n * 2 ^ 40 + b2n (8 < x.xfers.length) * 2 ^ 39 + b2n x.stw * 2 ^ 38 + b2n x.psna.isSome * 2 ^ 37
    + b2n t.kMode * 2 ^ 36 + b2n t.uin * 2 ^ 35 + x.reason * 2 ^ 33 + b2n wait.isSome * 2 ^ 32
    + (if x.reason = 2 then 0 else t.super.cause.toNat * 2 ^ 24 + t.user.cause.toNat * 2 ^ 16)
    + x.depth % 4 * 2 ^ 14 + x.grp % 16 * 2 ^ 8 + x.cause.toNat
  let d3 := g.kasid % 65536 * 2 ^ 48 + s.kdev * 2 ^ 39 + x.core * 2 ^ 30 + t.place * 2 ^ 24 + x.rank
  let d4 := match x.psna with | some a => (if a < 2 ^ 48 then s.podPa a else a) / 64 * 64 | none => 0
  let d5 := match wait with | some (h, thr) => h.toNat * 2 ^ 32 + thr | none => 0
  let d6 := match wait with | some (h, _) => s.snapshot h | none => 0
  let d7 := match x.xfers.head?.bind (·.handle) with | some h => s.snapshot h | none => 0
  ([d0, t.pc.toNat, x.val.toNat, d3, d4, d5, d6, d7] ++ (x.xfers.take 8).map Xfer.entry).foldr (fun d r => r * 2 ^ 64 + d % 2 ^ 64) 0

/-- A record written at KFREC + 128 · rank (R395 step 4), for its gang: the phase that the stop releases, and the gang's packet, wait until it is performed (R335, R396, R462). -/
def State.writeRecord (s : State) (g : Gang) (x : Stop) : State :=
  s.writePa (g.kfrec + 128 * x.rank) 0 128 (s.recordOf g x) 0 true g.kasid none g.id 0 0

/-- The strand in a core's slot waits at a FENCE, which containment abandons (R395 step 3, R437). (DEDUCED, log 50) -/
def State.atFence (s : State) (core : Nat) : Bool :=
  let s := s.turnTo core
  s.core.st.status == .running && s.core.st.queue.isEmpty && (match s.fetch with
    | .word w _ _ _ _ => (match decodeWord w with
      | .instr (.fence p u c) => p != 0 && u != 0 && !s.performed p.toNat c.toNat
      | _ => false)
    | _ => false)

/-- Each store-buffer entry of a stopped strand is sent or discarded, whole (R395 step 3): which of the two is open (DESIGN CHOICE, log 8). -/
def State.flushEntries (s : State) (core gang rank : Nat) : List SbEntry → State
  | [] => s
  | e :: r =>
    if e.gang == gang && e.rank == rank then
      let rest := (s.coreAt core).sb.erase e
      let (c, s1) := s.choose 2
      let drop := s1.modCoreAt core (fun k => { k with sb := rest })
      (if c = 0 then (s1.sendEntry core rest e).getD drop else drop).flushEntries core gang rank r
    else s.flushEntries core gang rank r

/-- What a contribution of a stopped strand becomes (R438): absent, without payload, and no transfer awaits it. -/
def Arrival.gone (a : Arrival) : Arrival := { a with absent := true, data := 0, psn := 0, xfer := 0, also := [] }
/-- Fills end with their sender; contributions become absent ones (R395, R438). -/
def dropFills (ids : List Nat) (l : List Arrival) : List Arrival :=
  (l.filter (fun a => a.combine || !(ids.contains a.xfer && a.fromDev == 0))).map (fun a =>
    if a.combine && a.fromDev == 0 && ids.contains a.xfer then a.gone else a)

/-- A packet that has not been sent yet. -/
def State.unsent (s : State) (r : Req) : Bool := s.txq.any (fun p => p.tag == r.tag && p.dst == r.dst && !p.mc && p.vc % 2 == 0)

/-- What kind of transfer a number names; 9 for none. -/
def State.xferKind (s : State) (id : Nat) : Nat := ((s.xfer? id).map (·.kind)).getD 9

/-- Requests of a stopped strand (R395 step 3): what has not been sent is withdrawn, a contribution becomes absent, the replies of the rest are discarded. (DEDUCED, log 24) (DEDUCED, log 48) -/
def State.dropReqs (s : State) (gang rank : Nat) : State :=
  let mine := fun (r : Req) => r.gang == gang && r.rank == rank
  let fillOf := fun (r : Req) => match r.kind with | .fill a => some a | _ => none
  let isCopy := fun (r : Req) => match r.kind with | .xfer _ _ _ _ => true | .fill a => !a.combine | _ => false
  let cut := s.reqs.filter (fun r => mine r && isCopy r && s.unsent r)
  -- an empty FILL without a last beat tells the target that the fill has ended (R214; log 24)
  let endOf := fun (p : Packet) => { p with len := 0, payload := 0, d1 := p.d1 &&& ~~~(1#64 <<< 52) }
  let ends := cut.filter (fun r => match fillOf r with | some a => a.last && s.xferKind a.xfer == 3 | none => false)
  let at_ := fun (p : Packet) (l : List Req) => l.any (fun r => p.tag == r.tag && p.dst == r.dst && !p.mc && p.vc == 0)
  let txq := (s.txq.filter (fun p => !at_ p cut || at_ p ends)).map (fun p =>
    if at_ p ends then endOf p else match s.reqs.find? (fun r => mine r && p.typ == 0x13 && p.tag == r.tag && p.dst == r.dst) with
    | some r => (match fillOf r with | some a => { s.arrivalPacket a.gone a.asid with tag := p.tag } | none => p)
    | none => p)
  { s with
    txq := txq
    reqs := (s.reqs.filter (fun r => !cut.contains r || ends.contains r)).map (fun r =>
      if mine r then (match r.kind with
        | .store _ => r
        | .fill a => if a.combine then { r with kind := .fill a.gone } else { r with kind := .store 0 }
        | _ => { r with kind := .store 0 }) else r) }

/-- Writes of a strand's transfers that have left for another device and are not answered: containment waits for them, so that DONE counts every byte that lands (R398, R399). (DEDUCED, log 48) -/
def State.landing (s : State) (gang rank : Nat) : Bool :=
  s.reqs.any (fun r => r.gang == gang && r.rank == rank && !s.unsent r && (match r.kind with
    | .xfer _ rd _ _ => !rd
    | .fill a => !a.combine
    | _ => false))

/-- The fills among them whose tiles have not been told yet that they end. -/
def State.toEnd (s : State) (gang rank : Nat) : List Arrival :=
  let fills := s.reqs.filterMap (fun r => match r.kind with | .fill a => if a.combine || r.mc != 0 then none else some (r, a) | _ => none)
  let told := fun (a : Arrival) => fills.any (fun x => x.2.toDev == a.toDev && x.2.rank == a.rank && x.2.off == a.off && x.2.mask == 0 && !x.2.last)
  (fills.filter (fun x => x.1.gang == gang && x.1.rank == rank && !s.unsent x.1 && s.tagsFree x.1.dst != 0 && !told x.2)).map (·.2)
/-- Their tiles are told: what waits there never lands, and is answered (R214, R395). (DEDUCED, log 48) -/
def State.sendEnds (s : State) (gang rank : Nat) : State :=
  (s.toEnd gang rank).foldl (fun s a => s.sendArrival a.ender a.asid gang rank) s

/-- The contributions of a strand that have left for another device and are not answered, as absent ones (R438). -/
def State.outCombines (s : State) (gang rank : Nat) : List Arrival :=
  s.reqs.filterMap (fun r => match r.kind with
    | .fill a => if r.gang == gang && r.rank == rank && a.combine && !a.absent && !s.unsent r then some a.gone else none
    | _ => none)

/-- The contribution that a stopped strand owes for a TCMB in its vector queue (R438): absent, to the TCMB's peer address and slot, unless its mask drops it (R60) or its address fails (R216). The strand stands in the slot of the core in turn. -/
def State.owedBy (s : State) (e : QEntry) : Option (FillAt × Arrival) :=
  let v := s.modSt e.ctx.onto
  match e.instr with
  | .tcmb _ a b m _ =>
    if v.allFalse m then none
    else
      let p := v.reg a
      let at_ := match v.fillAt p false with
        | .held => .here s.core.st.gang (bits p.toNat 47 32) (bits p.toNat 18 0)
        | x => x
      if at_ == .fails then none else some (at_, (newArrival true 0 (bits (v.reg b).toNat 3 0) (2 ^ 256 - 1) 0 0 p).gone)
  | _ => none
def State.owes (s : State) (core gang rank : Nat) : List (FillAt × Arrival) :=
  let t := (s.coreAt core).st
  if t.gang == gang && t.rank == rank then t.queue.filterMap ((s.turnTo core).owedBy) else []
/-- They are sent, and so is an absent contribution behind each that may still wait at its tile on another device (R438). (DEDUCED, log 97) -/
def State.sendOwed (s : State) (core gang rank : Nat) : State :=
  let s := (s.outCombines gang rank).foldl (fun s a => s.sendArrival a a.asid gang rank) s
  (s.owes core gang rank).foldl (fun s x => (((s.turnTo core).fillGo x.1 x.2).map (·.turnTo s.core.id)).getD s) s
/-- Tags lack for one that goes to another device. -/
def State.owedWait (s : State) (gang rank : Nat) : Bool :=
  match s.strand? gang rank with
  | none => false
  | some (c, _) =>
    let devs := (s.owes c gang rank).filterMap (fun x => match x.1 with | .far d _ _ => some d | _ => none) ++ (s.outCombines gang rank).map (·.toDev)
    devs.any (fun d => decide (s.tagsFree d < devs.length))

/-- One strand stops (R395 steps 1 to 3, R435, R438): its wait, transfers, requests, buffered stores, deferred causes and notes end, and it leaves its groups. -/
def State.haltStrand (s : State) (gang rank : Nat) : State :=
  match s.strand? gang rank with
  | none => s
  | some (c, t) =>
    -- accesses that are provisional no longer stand with the store buffer's entries
    let s := s.modCoreAt c (fun k => { k.modStrand gang rank (fun t => { t with out := [] }) with sb := k.sb ++ t.out })
    let s := s.sendOwed c gang rank
    let xs := s.xfersOf gang rank
    let ids := xs.map (·.id)
    let casts := s.retries.filter (fun a => ids.contains a.xfer && a.toDev == 0 && a.isCast)
    let s := s.flushEntries c gang rank (s.coreAt c).sb
    let s := s.dropReqs gang rank
    let s := { s with
      xfers := s.xfers.filter (fun x => !ids.contains x.id)
      fills := dropFills ids s.fills
      combines := dropFills ids s.combines
      retries := dropFills ids s.retries
      pieces := s.pieces.filter (fun p => !(p.gang == gang && p.rank == rank))
      replies := s.replies.filter (fun r => !(r.gang == gang && r.rank == rank))
      groupReqs := s.groupReqs.filter (fun q => !(q.gang == gang && q.rank == rank))
      porch := (s.porch.map (fun (p : Porch) => { p with members := p.members.filter (fun m => !(m.1 == gang && m.2.1 == rank)) })).filter
        (fun p => p.released || !p.members.isEmpty) }
    let s := s.allCores.foldl (fun (s : State) k => s.modCoreAt k.id (fun k => { k with overrun := dropFills ids k.overrun })) s
    let s := casts.foldl (fun s a => s.endAt a) (xs.foldl (fun s x => s.endOwned x) s)
    let s := s.modGang gang (fun g => { g with owed := g.owed ++ xs.filterMap Xfer.handle })
    let stop := fun (t : Strand) => { t.unwind with
      status := .stopped, wait := .none, inPlace := false, vq := none, prog := none, answers := [], asked := false, code := none
      codeAsked := none, deferred := [], notes := 0, watchPass := false }
    let s := s.modCoreAt c (fun k =>
      let k : Core := { k with locks := k.locks.filter (fun l => !(l.gang == gang && l.rank == rank)) }
      if k.st.gang == gang && k.st.rank == rank && k.st.status != .none then
        { k with rest := k.rest ++ [stop k.st], st := Strand.empty, phase := .idle, freeFrom := if k.phase == .run then s.now else k.freeFrom }
      else k.modStrand gang rank stop)
    s.leaveAll gang rank

/-- The stop of one strand, as its record will tell it. (DEDUCED, log 50) -/
def State.stopOf (s : State) (g : Gang) (rank : Nat) : Option Stop :=
  match s.strand? g.id rank with
  | none => none
  | some (c, t) =>
    let own := s.contains.find? (fun x => x.gang == g.id && x.rank == rank)
    let fenced := t.status == .running && !t.inPlace && s.atFence c
    let t := t.unwind
    let b : Stop := ⟨rank, c, t, 1, if fenced then 0x11 else 0x30, 0, t.stopGroup, t.stopDepth, none,
      s.stwOf c g.id rank, s.xfersOf g.id rank⟩
    match own with
    | some x => some { b with reason := 0, cause := x.cause, val := x.eval, grp := x.grp, depth := x.depth, psna := x.psna }
    | none => some b

/-- A stopped rank's tiles stay empty and accept no fill (R396). -/
def State.sealTiles (s : State) (gang rank : Nat) : State :=
  match s.strand? gang rank with
  | none => s
  | some (c, t) =>
    let k := s.coreAt c
    let inside := fun (i : Nat) => decide (t.allotBase ≤ 256 * i) && decide (256 * i < t.allotBase + t.allotSize)
    let waiting := k.overrun.filter (fun a => a.gang == gang && a.rank == rank)
    let s := s.putCore { k with
      tiles := k.tiles.filter (fun x => !inside x.idx)
      overrun := k.overrun.filter (fun a => !(a.gang == gang && a.rank == rank)) }
    waiting.foldl (fun s a => s.arrivalDone a 1) s

/-- CONTAINMENT (R395, R396): under the whole policy every strand of the gang stops, under isolate the containing one. Fills that have left for another device are ended there first; none while such writes are landing, or tags lack for what a strand owes. (DEDUCED, log 48) -/
def State.containOne (s : State) (x : Contain) : Option State :=
  match s.gang? x.gang with
  | none => some { s with contains := s.contains.erase x }
  | some g =>
    let ranks := if g.task.isolate then [x.rank] else (List.range g.size).filter (fun r => !g.exited.any (fun e => e.rank == r))
    if ranks.any (fun r => !(s.toEnd g.id r).isEmpty) then some (ranks.foldl (fun s r => s.sendEnds g.id r) s)
    else if ranks.any (fun r => s.landing g.id r || s.owedWait g.id r) then none
    else
      let stops := ranks.filterMap (s.stopOf g)
      let s := ranks.foldl (fun s r => s.haltStrand g.id r) s
      let s := stops.foldl (fun s p => s.writeRecord g p) s
      if g.task.isolate then
        let s := { s with contains := s.contains.erase x }
        let s := s.modGang g.id (fun g => ({ g with contained := g.contained ++ [x.rank], status := 1 } : Gang).ordered)
        some ((s.sealTiles g.id x.rank).completePhase g.id)
      else
        some ({ s with contains := s.contains.filter (fun c => c.gang != g.id) }.modGang g.id (fun g => { g with
          state := .contained, status := 1, owed := g.owed ++ g.arrived.filterMap Arrived.handle }))
def State.evContain (s : State) : Option State := nth s.containOne s.pick s.contains
def execContainment (s : State) : Out := s.event s.evContain

/-- Every strand of a gang has exited, or been contained under isolate (R51, R396). -/
def Gang.over (g : Gang) : Bool := (List.range g.size).all g.out

/-- Every token of a gang has pending 0 (R51). -/
def State.tokensQuiet (s : State) (gang : Nat) : Bool := s.allCores.all (fun k => k.tokens.all (fun t => t.gang != gang || t.pend == 0))

/-- The records of strands that exited (R396, R398). -/
def State.exitRecords (s : State) (g : Gang) : State :=
  g.exited.foldl (fun s e =>
    match s.strand? g.id e.rank with
    | none => s
    | some (c, t) =>
      let st : Word := if e.mode then 1 else 0
      let st := if e.uin then st ||| 4 else st
      s.writeRecord g ⟨e.rank, c, { t with pc := e.pc, kstatus := st }, 2, 0, 0, 0, 0, none, s.stwOf c g.id e.rank, s.xfersOf g.id e.rank⟩) s

/-- The record block copied to FAREA (R333). -/
def State.copyRecords (s : State) (g : Gang) : State :=
  (g.task.farea.foldl (fun (r : State × Nat) a =>
    let v := (r.1.peek (g.block + r.2) 0 a.2.2).1
    (r.1.writePa a.1 a.2.1 a.2.2 v 0 true g.kasid none g.id 0 0, r.2 + a.2.2)) (s, 0)).1

/-- The gang's tokens lowered by the operations that containment stopped, and freed (R434, R51); one with pending left belongs to no gang. -/
def Core.freeTokensOf (k : Core) (dev : Nat) (g : Gang) : Core :=
  { k with tokens := (k.tokens.map (fun t =>
      if t.gang == g.id then
        { t with gang := 0, arm := none, pend := t.pend - g.owed.countP (fun h => h == handleOf dev k.id t.slot) }
      else t)).filter (fun t => t.gang != 0 || t.pend != 0) }

/-- A core gives up a gang (R51, R345): places, allotments with their tiles, and its operating point. -/
def State.releaseCore (s : State) (g : Gang) (c : Nat) : State :=
  let k := s.coreAt c
  let mine := (k.st :: k.rest).filter (fun t => t.gang == g.id && t.status != .none && !t.away)
  let inside := fun (i : Nat) => mine.any (fun t => decide (t.allotBase ≤ 256 * i) && decide (256 * i < t.allotBase + t.allotSize))
  let slot := k.st.gang == g.id && k.st.status != .none
  let waiting := k.overrun.filter (fun a => a.gang == g.id)
  let k := (k.freeTokensOf s.kdev g)
  let s := { s with opMoves := s.opMoves.filter (fun m => m.1 != c) }
  let s := s.putCore (s.goHome (Core.refillLarder Config.larderSlots { k with
    st := if slot then Strand.empty else k.st
    phase := if slot then .idle else k.phase
    freeFrom := if slot && k.phase == Phase.run then s.now else k.freeFrom
    rest := k.rest.filter (fun t => t.gang != g.id)
    tiles := k.tiles.filter (fun t => !inside t.idx)
    overrun := k.overrun.filter (fun a => a.gang != g.id)
    locks := k.locks.filter (fun l => l.gang != g.id) }))
  waiting.foldl (fun s a => s.arrivalDone a 1) s

/-- What outlives a gang keeps a number that no gang will have (R481 gives KGANG out again). -/
def State.retire (s : State) (gid new : Nat) : State :=
  { s with
    xfers := mapIf (fun (x : Xfer) => x.gang == gid) (fun x => { x with gang := new }) s.xfers
    reqs := mapIf (fun (r : Req) => r.gang == gid) (fun r => { r with gang := new }) s.reqs
    replies := s.replies.filter (fun r => r.gang != gid)
    invals := mapIf (fun (v : Inval) => v.gang == gid) (fun v => { v with gang := new }) s.invals
    ctlWrites := mapIf (fun (w : CtlWrite) => w.gang == gid) (fun w => { w with gang := new }) s.ctlWrites
    fills := mapIf (fun (a : Arrival) => a.gang == gid && a.toDev == 0) (fun a => { a with gang := new }) s.fills
    combines := mapIf (fun (a : Arrival) => a.gang == gid && a.toDev == 0) (fun a => { a with gang := new }) s.combines
    retries := mapIf (fun (a : Arrival) => a.gang == gid && a.toDev == 0) (fun a => { a with gang := new }) s.retries
    contains := s.contains.filter (fun c => c.gang != gid)
    spawns := mapIf (fun (p : Spawn) => p.gang == gid) (fun p => { p with gang := new }) s.spawns }

/-- A gang completes (R51, R333, R396, R434): records and the fault area when it was contained, then its resources, then its packet is finished; its binding passes on (R362). -/
def State.endGang (s : State) (g : Gang) : State :=
  let s := if g.status = 0 then s else (s.exitRecords g).copyRecords g
  let s := g.cores.foldl (fun s c => s.releaseCore g c) s
  let s := (List.range g.size).foldl (fun s r => s.leaveAll g.id r) s
  let new := 2 ^ 20 + 2 * s.nextId + 1
  let s := { s.retire g.id new with nextId := s.nextId + 1 }
  { s with
    gangs := s.gangs.filter (fun x => x.id != g.id)
    waiting := s.waiting.filter (· != g.id)
    pkts := mapIf (fun (p : Pkt) => p.id == g.task.pkt) (fun p => { p with phase := 2, status := g.status, gang := new }) s.pkts
    reductions := s.reductions.map (fun r => { r with gangs := r.gangs.filter (· != g.id) }) : State }.rebind g.kasid

/-- A gang may complete: contained whole, or over with its tokens quiet (R51, R396). -/
def State.gangDone (s : State) (g : Gang) : Bool :=
  g.state == .contained || (g.state != .waiting && g.over && (g.status != 0 || s.tokensQuiet g.id))

/-- GANG_COMPLETE (R51). -/
def State.evGangComplete (s : State) : Option State := nth (fun g => if s.gangDone g then some (s.endGang g) else none) s.pick s.gangs
def execGangComplete (s : State) : Out := s.event s.evGangComplete

end Sys2Proof.Machine
end

