-- ==== Sys2Proof/Machine/Queue.lean ====
section
/-!
DEFINITION. User-mode queues: reading packets (R327), their checks (R330), signals (R332), and what makes a queue go on or stop (R325, R331).
-/
namespace Sys2Proof.Machine

/-- A signal's place: a naturally aligned 8-byte word with R and W (R330). -/
def State.cpWord (s : State) (asid pt va : Nat) : Cp (Nat × Nat) :=
  if va % 8 != 0 then .bad else (s.cpPage asid pt va true true).bind (fun r => .ok (r.2.1, r.2.2))
/-- The runs of a named range: none for address 0; an address with no bytes to cover translates all the same (R330). -/
def State.cpNamed (s : State) (asid pt va n : Nat) (r w : Bool) : Cp (List Run) :=
  if va = 0 then .ok []
  else if n = 0 then (s.cpPage asid pt va r w).bind (fun _ => .ok [])
  else s.cpRange asid pt va n r w

/-- What a packet's addresses translated to, kept for the packet's life (R330). -/
structure Named where
  sig : Option (Nat × Nat)
  target : Option (Nat × Nat)
  farea : List Run
  save : List Run
  src : List Run
  dst : List Run
  image : List Run
  deriving DecidableEq, Repr

/-- Fields of a packet's header (R328, R329). -/
def pktType (h : Nat) : Nat := bits h 15 8
def pktC (h : Nat) : Nat := bits h 56 48
def pktS (h : Nat) : Nat := bits h 62 57
def pktGrp (h : Nat) : Nat := bits h 47 45

/-- Check 1 of R330 on the dwords of a packet; `spawn` for one that a strand hands over. -/
def wellFormedPkt (spawn : Bool) (ws : List Word) : Bool :=
  let d := fun i => (ws.getD i 0).toNat
  let h := d 0
  let zero := fun (l : List Nat) => l.all (fun i => d i == 0)
  bits h 7 3 == 0 && (match pktType h with
    | 1 => bit h 63 == false && 1 ≤ pktS h && pktS h ≤ 32 && 1 ≤ pktC h && pktC h ≤ 288 && pktGrp h ≤ 4 && (spawn || bits h 40 32 == 0)
        && bits (d 1) 63 55 == 0 && d 1 % 4 == 0
        && bits (d 3) 31 0 % 256 == 0 && bits (d 3) 31 0 ≤ 524288 && bits (d 3) 34 32 ≤ pktGrp h && bits (d 3) 63 35 == 0
        && d 5 % 128 == 0 && d 6 % 65536 == 0 && zero [7]
    | 2 => !spawn && bits h 63 32 == 0 && bit (d 2) 63 == false && zero [3, 5, 6, 7]
    | 3 => !spawn && bits h 63 32 == 0 && bit (d 2) 63 == false && zero [3, 5, 6, 7]
    | 4 => !spawn && bits h 63 32 == 0 && bits (d 3) 63 40 == 0 && zero [5, 6, 7]
    | 5 => !spawn && bits h 63 32 == 0 && bits (d 1) 63 12 == 0 && bits (d 2) 63 32 == 0 && zero [5, 6, 7]
        && (decide (d 1 < 512) || d 3 == 0)
    | _ => false)

/-- Banks that a grant of 2^g leaves to the scratchpad (R17, R291). -/
def banks (g : Nat) : Nat := 96 - 2 * (2 ^ g - 1)

/-- The bank and row of a scratchpad offset (R291). The banks of an extension region are numbered after the others. (DEDUCED, log 96) -/
def Core.freed (k : Core) : Nat := 2 * (2 ^ k.layout - 2 ^ k.grant)
def Core.bankOf (k : Core) (o : Nat) : Nat × Nat :=
  let b := banks k.layout
  if o < b * 4096 then (o / 8 % b, o / 8 / b) else (b + (o - b * 4096) / 8 % k.freed, (o - b * 4096) / 8 / k.freed)
/-- The offset of a bank's row: the inverse (R291); none for a bank that is no part of the scratchpad. -/
def Core.offsetAt (k : Core) (bank row : Nat) : Option Nat :=
  let b := banks k.layout
  if 512 ≤ row then none
  else if bank < b then some (8 * (row * b + bank))
  else if bank < b + k.freed then some (b * 4096 + 8 * (row * k.freed + (bank - b)))
  else none

/-- A packet's named addresses with their lengths, in dwords: signal, target, FAREA, SAVE, source, destination, image (R330). -/
def pktNames (ws : List Word) : List (Nat × Nat) :=
  let d := fun i => (ws.getD i 0).toNat
  let n := pktC (d 0) * pktS (d 0)
  ((4, 8) :: (match pktType (d 0) with
    | 1 => [(5, 128 * n), (6, n * saveBytes (pktGrp (d 0)) (bits (d 3) 31 0))]
    | 2 => [(1, 8)]
    | 3 => [(1, 8)]
    | 4 => [(1, d 3), (2, d 3)]
    | _ => [(3, 64)]))

/-- Check 3 of R330: every non-zero address translates. (DEDUCED, log 62) -/
def State.namedBy (s : State) (asid pt : Nat) (ws : List Word) : Cp Named :=
  let d := fun i => (ws.getD i 0).toNat
  let typ := pktType (d 0)
  let word := fun va => if va = 0 then .ok none else (s.cpWord asid pt va).bind (fun a => .ok (some a))
  let range := fun (on : Bool) (i : Nat) (r w : Bool) =>
    if on then s.cpNamed asid pt (d i) (((pktNames ws).find? (fun x => x.1 == i)).map (·.2) |>.getD 0) r w else .ok []
  (word (d 4)).bind (fun sig =>
  (if typ = 2 || typ = 3 then word (d 1) else .ok none).bind (fun target =>
  (range (typ == 1) 5 false true).bind (fun fa =>
  (range (typ == 1) 6 false true).bind (fun sv =>
  (range (typ == 4) 1 true false).bind (fun a =>
  (range (typ == 4) 2 false true).bind (fun b =>
  (range (typ == 5) 3 true false).bind (fun im => .ok ⟨sig, target, fa, sv, a, b, im⟩)))))))

/-- The translations of a packet's addresses are cached, and their walks' reads allocate (R276, R279). (DEDUCED, log 63) -/
def State.noteNamed (s : State) (asid pt : Nat) (ws : List Word) : State :=
  (pktNames ws).foldl (fun s x => let va := (ws.getD x.1 0).toNat; if va = 0 then s else s.cpNote asid pt va (max x.2 1)) s

/-- Check 4 of R330: the gang fits an empty device at 2^GMIN, and its record block fits the pool. -/
def State.canEver (s : State) (x : Queue) (ws : List Word) : Bool :=
  let d := fun i => (ws.getD i 0).toNat
  let c := pktC (d 0)
  let n := pktS (d 0)
  let spad := bits (d 3) 31 0
  decide (c ≤ Config.cores) && decide (n ≤ Config.places) && decide (n * spad ≤ banks (bits (d 3) 34 32) * 4096)
    && decide (512 * n ≤ s.cellarKiB * 1024) && decide (128 * c * n ≤ x.frsize)

/-- The checks of R330, the first failure deciding; none while a table line's reads are held (R296). -/
def State.checkPkt (s : State) (x : Queue) (asid pt : Nat) (spawn : Bool) (ws : List Word) : Option (Except Nat Named) :=
  if !wellFormedPkt spawn ws then some (.error 2)
  else if pktType (ws.getD 0 0).toNat == 5 && !x.priv then some (.error 3)
  else match s.namedBy asid pt ws with
  | .held => none
  | .bad => some (.error 4)
  | .ok n => some (if pktType (ws.getD 0 0).toNat == 1 && !s.canEver x ws then .error 5 else .ok n)

/-- A queue stopped by a packet's status (R331). -/
def State.stopQueue (s : State) (q status : Nat) : State :=
  { s.putQueue { s.queue q with err := true, estat := status } with notified := delFrom s.notified q }

/-- The queue may read a packet: enabled, not stopped, and no earlier packet of it still waits to start (R325, R327, R337). -/
def State.mayRead (s : State) (q : Nat) : Bool :=
  let x := s.queue q
  s.boot == .full && x.en && !x.err && !s.pkts.any (fun p => p.queue == q && !p.spawned && (p.phase == 0 || p.phase == 3))

/-- A queue examined (R327): the slot at QRD read, freed and counted, if it holds a packet that may start. (DEDUCED, log 63) Poison in the slot is not looked at (DESIGN CHOICE, log 111). -/
def State.examine (s : State) (q : Nat) : State :=
  if !s.mayRead q then s
  else
    let x := s.queue q
    let va := x.base.toNat / 64 % 2 ^ 49 * 64 + 64 * (x.rd % 2 ^ x.qsize)
    match s.cpPage x.asid x.ptbase va true true with
    | .held => s
    | .bad => (s.cpNote x.asid x.ptbase va 64).stopQueue q 4
    | .ok (_, pa, key) =>
      if s.lineHeld (pa / 64) then s
      else
        let s := (s.cpNote x.asid x.ptbase va 64).readLine (pa / 64) key false x.asid
        let v := (s.peek pa key 64).1
        if v % 2 = 0 then { s with notified := delFrom s.notified q }
        else if bit v 1 && s.pkts.any (fun p => p.queue == q && !p.spawned) then s
        else
          let (id, s) := s.fresh
          let s := s.writePa pa key 8 (v % 2 ^ 64 - 1) 0 false x.asid none 0 0 0
          let ws := (List.range 8).map (fun i => BitVec.ofNat 64 (v / 2 ^ (64 * i)))
          { s.putQueue { x with rd := x.rd + 1 } with pkts := s.pkts ++ [⟨id, q, false, ws, 0, 0, none, none, 0⟩] }

/-- The examinations under way go on (R327). -/
def State.examineAll (s : State) : State := s.notified.foldl (fun s q => s.examine q) s

/-- A packet changed. -/
def State.modPkt (s : State) (id : Nat) (f : Pkt → Pkt) : State := { s with pkts := mapIf (fun p => p.id == id) f s.pkts }

/-- A packet that fails a check or a WAIT stops its queue and is finished (R331). (DEDUCED, log 66) -/
def State.failPkt (s : State) (p : Pkt) (status : Nat) (sig : Option (Nat × Nat)) : State :=
  (s.stopQueue p.queue status).modPkt p.id (fun p => { p with phase := 2, status := status, sig := sig })

/-- The completion signal of a packet that fails a check, where it has one that translates (R330, R331). (DEDUCED, log 66) -/
def State.failSig (s : State) (x : Queue) (p : Pkt) : Cp (Option (Nat × Nat)) :=
  let va := (p.dwords.getD 4 0).toNat
  if va = 0 then .ok none
  else match s.cpWord x.asid x.ptbase va with
  | .ok a => .ok (some a)
  | .bad => .ok none
  | .held => .held

/-- A signal's word written at its point of coherence (R332), for a unit that waits until it is performed (0: none does). -/
def State.putSignal (s : State) (unit : Nat) (at_ : Nat × Nat) (v : Nat) : State := s.writePa at_.1 at_.2 8 v 0 false 0 none unit 0 0
/-- The unit of a packet that has no gang: no gang has its number, and no retired one. -/
def Pkt.unit (p : Pkt) : Nat := 2 ^ 20 + 2 * p.id + 1
def State.signalWord (s : State) (at_ : Nat × Nat) : Nat := (s.peek at_.1 at_.2 8).1

/-- A WAIT tested (R334): status 6 where FAULT is set, finished where COUNT is at most its value. It reads the word at its slice, through its port where it must (R285, R287). (DEDUCED, log 63) (DESIGN CHOICE, log 111) -/
def State.testWait (s : State) (p : Pkt) : Option State :=
  if !(p.phase == 1 && pktType (p.dwords.getD 0 0).toNat == 3) then none
  else match p.target with
  | none => some (s.modPkt p.id (fun p => { p with phase := 2 }))
  | some a =>
    if s.lineHeld (a.1 / 64) then none
    else
      let v := s.signalWord a
      let s := s.readLine (a.1 / 64) a.2 false (s.queue p.queue).asid
      some (if bit v 63 then s.failPkt p 6 p.sig
      else if v % 2 ^ 63 ≤ (p.dwords.getD 2 0).toNat then s.modPkt p.id (fun p => { p with phase := 2 })
      else s)
def State.testWaits (s : State) : State := s.pkts.foldl (fun s p => (s.testWait p).getD s) s

/-- Packets of one type that have been read and not started. -/
def Pkt.fresh (p : Pkt) (types : List Nat) : Bool := p.phase == 0 && types.contains (pktType (p.dwords.getD 0 0).toNat)

/-- A packet starts (R330): its checks, then what it does; a failure stops its queue. None while a line that it must read is held (R296). -/
def State.startPkt (s : State) (p : Pkt) (go : State → Queue → Named → Pkt → Option State) : Option State :=
  let x := s.queue p.queue
  let s1 := s.noteNamed x.asid x.ptbase p.dwords
  match s.checkPkt x x.asid x.ptbase false p.dwords with
  | none => none
  | some (.error st) => (match s.failSig x p with
    | .ok sig => some ((if st = 4 then s1 else s).failPkt p st sig)
    | _ => none)
  | some (.ok n) =>
    (go (s1.modPkt p.id (fun p => { p with phase := 1, sig := n.sig, target := n.target })) x n { p with sig := n.sig, target := n.target }).map State.examineAll

/-- A LAUNCH's task (R329, R333): PRIO above the limit takes the limit (R330, R239). -/
def taskOf (p : Pkt) (x : Queue) (n : Named) (top asid pt : Nat) (stvec : Word) : Task :=
  let d := fun i => (p.dwords.getD i 0).toNat
  let h := d 0
  { queue := p.queue, pkt := p.id, spawned := p.spawned, c := pktC h, s := pktS h, grp := pktGrp h, gmin := bits (d 3) 34 32
    prio := min (min (bits h 44 42) x.maxPrio) top, isolate := bit h 41, code := BitVec.ofNat 55 (d 1), arg := p.dwords.getD 2 0
    spad := bits (d 3) 31 0, farea := n.farea, save := BitVec.ofNat 64 (d 6), saveAt := n.save, asid := asid, ptbase := pt, stvec := stvec }

/-- A gang that waits for a place (R337), under a number that no placed gang has. -/
def Gang.fresh (id joined : Nat) (t : Task) : Gang where
  id := id
  task := t
  state := .waiting
  grant := 0
  cores := []
  joined := joined
  placedAt := 0
  kutvec := 0
  kstvec := 0
  homeStvec := 0
  kasid := t.asid
  bound := false
  badK := []
  pastAsids := []
  kptbase := t.ptbase
  kfrec := 0
  block := 0
  oldUtvec := none
  oldStvec := none
  arrived := []
  coreOrder := []
  exited := []
  contained := []
  owed := []
  status := 0

/-- A gang joins the waiting list (R337). -/
def State.joinList (s : State) (t : Task) : State :=
  let id := 2 ^ 20 + 2 * s.nextId
  { s with
    nextId := s.nextId + 1, gangs := s.gangs ++ [Gang.fresh id s.now t], waiting := s.waiting ++ [id]
    pkts := mapIf (fun p => p.id == t.pkt) (fun p => { p with phase := 3, gang := id }) s.pkts }

end Sys2Proof.Machine
end

