-- ==== Sys2Proof/Machine/Fence.lean ====
section
/-!
DEFINITION. Answers to requests (R360, R361, R430, R431, R437, R442), fences (R454, R455) and what is found bound for a request from another device (R362).
-/
namespace Sys2Proof.Machine

/-- The fabric clock's cycles in a time (R13): 3,000 a microsecond. (DESIGN CHOICE, log 6) -/
def cyclesUs (n : Nat) : Nat := 3000 * n

/-- A log entry of a fabric event (R452). -/
def State.logFabric (s : State) (kind d1 : Nat) : State := s.logErr 0xFFFF 0 0 kind d1

/-- A fence lifted by join (R457), at the peer that is joined and, where it had one, at the device that has joined it. (DEDUCED, log 59) -/
def State.liftFence (s : State) (n : Nat) : State := { s with fence := putBit s.fence n false }.logFabric 13 (n * 2 ^ 48)

/-- A strand's answer to a waiting vector instruction; one that no longer waits for it drops it. -/
def Strand.takeAnswer (t : Strand) (a : Answer) : Strand := if t.asked then { t with answers := t.answers ++ [a] } else t

/-- A refused arrival of this device's own (R432): tried again after 512 cycles, or given up after 2,048 attempts. -/
def State.refusedFill (s : State) (a : Arrival) : State :=
  if 2048 ≤ a.tries + 1 then s.arrivalDone a 3
  else { s with retries := s.retries ++ [{ a with tries := a.tries + 1, due := s.now + 512 }] }

/-- A host request done: its reply, and the port goes on to the next (R368, R369). -/
def State.hostDone (s : State) (id : Nat) (ok : Bool) (data : BitVec 2048) : State :=
  { s with hostReqs := s.hostReqs.filter (fun r => r.id != id), hostOut := s.hostOut ++ [⟨id, ok, data⟩] }

/-- The response to a request, with its STATUS, PSN and payload (R360, R361): none while what it brings cannot be taken yet. (DEDUCED, log 33) -/
def State.answerReq (s : State) (r : Req) (status psn payload : Nat) (d1 : Nat) : Option State :=
  let s0 := { s with reqs := s.reqs.erase r }
  let word := payload % 2 ^ 64
  match r.kind with
  | .load reg n sgn addr => some (s0.answer ⟨r.gang, r.rank, reg, status, psn % 2 == 1, extend sgn n (word % 256 ^ n), addr, 1000 + r.dst, 0⟩)
  | .amo reg n addr => some (s0.answer ⟨r.gang, r.rank, reg, status, psn % 2 == 1, extend (n == 4) n (word % 256 ^ n), addr, 1000 + r.dst, 0⟩)
      |>.map (fun s => if status = 1 then s.modStrand r.gang r.rank (fun t => t.note 3) else s)
  | .fetch pc => some (s0.modStrand r.gang r.rank (fun t =>
      if t.codeAsked == some pc then { t with code := some (pc, ⟨0, status, psn % 2 == 1, BitVec.ofNat 64 word⟩), codeAsked := none } else t))
  | .store cls => some (if status != 0 then s0.modStrand r.gang r.rank (fun t => t.note (noteOf cls)) else s0)
  | .vec i n => some (s0.modStrand r.gang r.rank (fun t => t.takeAnswer ⟨i, status, psn % 2 == 1, BitVec.ofNat 64 (word % 256 ^ n)⟩))
  | .vecStore i => some (s0.modStrand r.gang r.rank (fun t =>
      let t := t.takeAnswer ⟨i, status, false, 0⟩
      if status = 1 then t.note 8 else t))
  | .xfer id true len va =>
    (match s0.xfer? id with
     | none => some s0
     | some x =>
       let s1 := s0.modXfer id (fun x => { x with waiting := x.waiting - 1 })
       if status != 0 then some (s1.xferFail id status 0 va)
       else match x.segs with
       | g :: _ => s1.deliver { x with waiting := x.waiting - 1 } g (payload % 256 ^ len) (psnBytes psn len)
       | [] => some s1)
  | .xfer id false len va => some (s0.xferAnswer id status 0 len va)
  | .fill a => some (if status = 3 then s0.refusedFill a else s0.arrivalDone a status)
  | .gforward r_slice _ _ _ members off grp =>
    some (if status = 0 then s0.fillMembers members grp r_slice off (payload % 256 ^ 256) psn
      else members.foldl (fun s m => s.xferFail m.2.2 status 0 0) s0)
  | .spawn reg =>
    some (s0.answer ⟨r.gang, r.rank, reg, 0, false, BitVec.ofNat 64 (if status = 1 then 3 else bits d1 15 8), 0, 1000 + r.dst, 0⟩)
  | .join =>
    let u := { s0 with joins := s0.joins.filter (fun j => j.1 != r.dst) }
    some (if status != 0 then s0 else if s0.fence.getLsbD r.dst then u.liftFence r.dst else u)
  | .host id =>
    let ok := status == 0 && psn == 0
    some (s0.hostDone id ok (if ok then BitVec.ofNat 2048 payload else 0))

/-- TOKEN_SETTLE at one entry (R455). -/
def Token.settle (t : Token) (n : Nat) : Token :=
  if t.multi then { t with pend := t.pend - t.remote, remote := 0, multi := false, source := none }
  else if t.source == some n then { t with pend := t.pend - t.remote, remote := 0, source := none }
  else t

/-- Tokens settled on every core; entries that no gang holds are freed at pending 0 (R434, R455). -/
def State.settleTokens (s : State) (n : Nat) : State :=
  s.allCores.foldl (fun s k => s.modCoreAt k.id (fun k =>
    { k with tokens := (k.tokens.map (fun t => t.settle n)).filter (fun t => t.gang != 0 || t.pend != 0) })) s

/-- A device fenced (R454): its bit and log entry; its requests end with STATUS 1; the pair's link state and everything on its way to or from it is gone; its fills lose their tiles (R214); tokens are settled (R455). Host messages for it are kept (R458). (DEDUCED, log 58) -/
def State.fenceDev (s : State) (n : Nat) : State :=
  let kept := (s.txq.filter (fun p => p.dst == n && !p.mc && p.typ == 0x17)).map (fun p => p.payload.setWidth 256)
  let s := { s with fence := putBit s.fence n true }.logFabric 12 (n * 2 ^ 48)
  let s := { s with
    txq := s.txq.filter (fun p => p.mc || p.dst != n)
    rx := s.rx.filter (fun p => p.src != n)
    rxParts := s.rxParts.filter (fun p => p.1 != n && !castWith p.1 n)
    pairs := s.pairs.filter (fun p => p.dev != n && !castWith p.dev n)
    joins := s.joins.filter (fun j => j.1 != n)
    fillEnds := s.fillEnds ++ [(n, 0)] }
  let s := (s.reqs.filter (fun r => r.dst == n)).foldl (fun s r => (s.answerReq r 1 0 0 0).getD s) s
  let s := kept.foldl (fun s w => s.keepMsg w) s
  s.settleTokens n

/-- The pod-bound gang of an address space (R362). -/
def State.bound (s : State) (asid : Nat) : Option Gang := s.gangs.find? (fun g => g.bound && g.kasid == asid)

/-- Where a request from another device ends (R272, R362): a place, a STATUS, or a parked target that holds it. -/
inductive Found where
  | at (p : Place) | status (n : Nat) | held
  deriving DecidableEq, Repr

/-- The target of a packet for n bytes. -/
def State.findTarget (s : State) (p : Packet) (n : Nat) : Found :=
  let d := p.d1.toNat
  if bit d 63 then
    match s.bound p.asid with
    | none => .status 1
    | some g =>
      match s.peerIn g (bits d 34 19) (bits d 18 0) n with
      | .at gi r c o => .at (.peer gi r c o)
      | .fails => .status 2
      | .lost => .status 1
      | .held => .held
  else
    let pa := bits d 47 0
    if s.inFlat pa && s.inFlat (pa + n - 1) then .at (.slice pa 0)
    else if s.inCap pa && s.inCap (pa + n - 1) then .at (.slice pa p.key)
    else if ctlBase ≤ pa && (n = 4 || n = 8) && pa % n = 0 then .at (.ctl pa)
    else .status 2

end Sys2Proof.Machine
end

