-- ==== Sys2Proof/Machine/Link.lean ====
section
/-!
DEFINITION. The links: packets in slots (R359), flits with their check bits, CRC and burst code (R349–R355), go-back and acknowledgement (R356, R448), lane health and preambles (R444–R447). What a group's flits need besides is the model's own (DEDUCED, log 27).
-/
namespace Sys2Proof.Machine

/-- Payload bytes that a packet's type carries (R360). -/
def payloadBytes (typ len : Nat) : Nat := if [0x02, 0x03, 0x04, 0x06, 0x12, 0x13, 0x15, 0x17].contains typ then len else 0
/-- ATOMIC and GFORWARD carry a key slot other than 0 in one more slot, READ and WRITE in dword 1; a READ that allocates (R279) says so in bit 60 (DEDUCED, log 14). -/
def keySlot (typ key : Nat) : Bool := (typ == 0x03 || typ == 0x14) && key != 0
def keyFlag (typ : Nat) : Nat := if typ = 0x03 then 58 else 60

/-- A packet's 16-byte slots (R359): how many, and the bits. -/
def Packet.slots (p : Packet) : Nat × Nat :=
  let d0 := b2n p.dec * 2 ^ 63 + p.len * 2 ^ 54 + p.asid % 65536 * 2 ^ 38 + p.tag * 2 ^ 26 + p.dst * 2 ^ 17 + p.src * 2 ^ 8 + p.typ
  let k := keySlot p.typ p.key
  let d1 := p.d1.toNat + (if p.typ = 1 || p.typ = 2 then p.key * 2 ^ 52 + b2n (p.typ == 1 && p.alloc) * 2 ^ 60 else if k then 2 ^ keyFlag p.typ else 0)
  let n := ceilDiv (payloadBytes p.typ p.len) 16
  (1 + n + b2n k, d0 + d1 % 2 ^ 64 * 2 ^ 64 + p.payload.toNat % 256 ^ payloadBytes p.typ p.len * 2 ^ 128 + (if k then p.key * 2 ^ (128 * (n + 1)) else 0))

/-- Slots that a packet whose header this is occupies; those of an unknown TYPE by its LEN. -/
def slotsOf (d0 d1 : Nat) : Nat :=
  let typ := d0 % 256
  let len := bits d0 62 54
  let known := [0x01, 0x02, 0x03, 0x04, 0x05, 0x06, 0x10, 0x11, 0x12, 0x13, 0x14, 0x15, 0x17].contains typ
  1 + ceilDiv (if known then payloadBytes typ len else len) 16 + b2n ((typ == 0x03 || typ == 0x14) && bit d1 (keyFlag typ))

/-- A packet read back from its slots. -/
def packetOf (vc n x : Nat) : Packet :=
  let d0 := x % 2 ^ 64
  let d1 := x / 2 ^ 64 % 2 ^ 64
  let typ := d0 % 256
  let k := (typ == 0x03 || typ == 0x14) && bit d1 (keyFlag typ)
  let addressed := (typ == 1 || typ == 2)
  let alloc := typ == 1 && bit d1 60
  { typ := typ, dec := bit d0 63, len := bits d0 62 54, asid := bits d0 53 38, tag := bits d0 37 26, dst := bits d0 25 17, src := bits d0 16 8
    mc := vc == 3, vc := vc
    d1 := BitVec.ofNat 64 (if addressed then d1 - bits d1 59 52 * 2 ^ 52 - b2n alloc * 2 ^ 60 else if k then d1 - 2 ^ keyFlag typ else d1)
    payload := BitVec.ofNat 2048 (x / 2 ^ 128 % 256 ^ payloadBytes typ (bits d0 62 54))
    key := if addressed then bits d1 59 52 else if k then x / 2 ^ (128 * (n - 1)) % 256 else 0
    alloc := alloc, xfer := none }

/-- One byte through the CRC-32 of R355, reflected. -/
def crcByte (c : BitVec 32) (b : Nat) : BitVec 32 :=
  (List.range 8).foldl (fun c _ => if c.getLsbD 0 then (c >>> 1) ^^^ 0xEDB88320#32 else c >>> 1) (c ^^^ BitVec.ofNat 32 b)
/-- The CRC of n bytes of a number, lowest byte first. -/
def crc32 (n x : Nat) : BitVec 32 := ~~~((List.range n).foldl (fun c i => crcByte c (x / 256 ^ i % 256)) 0xFFFFFFFF#32)

/-- The preamble P of a flit (R350). -/
def preamble (vc : Nat) (mc : Bool) (dest : Nat) : Nat :=
  let p := vc * 1024 + b2n mc * 512 + dest % 512
  p + (p % 16 ^^^ p / 16 % 16 ^^^ p / 256 % 16) * 4096
/-- PCHK holds (R350). -/
def pchk (p : Nat) : Bool := p / 4096 == (p % 16 ^^^ p / 16 % 16 ^^^ p / 256 % 16)

/-- A flit's 256-byte body with its CRC (R351, R355). -/
def Flit.body (f : Flit) : Nat :=
  let b := f.area.toNat + f.ctl.toNat * 256 ^ 240
  b + (crc32 254 (preamble f.vc f.mc f.dest + b * 65536)).toNat * 256 ^ 252

/-- Multiplication in GF(4) (R352). -/
def gfMul (a b : Nat) : Nat :=
  match a, b with
  | 0, _ => 0 | _, 0 => 0 | 1, y => y | x, 1 => x
  | 2, 2 => 3 | 3, 3 => 2 | _, _ => 1
/-- The column of a plane, symbol k at bits [2k+1:2k] (R352). -/
def column (p : Nat) : Nat := if p < 32 then 1 + p % 4 * 4 + p / 4 % 4 * 16 + (2 + p / 16) * 64 else 4 ^ (p - 32)
def scaleCol (v c : Nat) : Nat := (List.range 4).foldl (fun r k => r + gfMul v (c / 4 ^ k % 4) * 4 ^ k) 0
/-- The syndrome of a 72-bit word (R352). -/
def syndrome (w : Nat) : Nat := (List.range 36).foldl (fun s p => s ^^^ scaleCol (w / 4 ^ p % 4) (column p)) 0
/-- The check bits of 64 bits of data (R352). -/
def checkBits (d : Nat) : Nat := syndrome (d % 2 ^ 64)
/-- A body word as it is sent. -/
def sendWord (d : Nat) : BitVec 72 := BitVec.ofNat 72 (d % 2 ^ 64 + checkBits d * 2 ^ 64)

/-- A word with the symbols of the erased planes 0. -/
def eraseWord (erased : List Nat) (w : Nat) : Nat := erased.foldl (fun w p => w - w / 4 ^ p % 4 * 4 ^ p) w
/-- PLANE CORRECTION of one word (R352); with erased planes, a failed one first, only that first one's symbol is restored (R446, R447). None where the word is uncorrectable. (DEDUCED, log 60) -/
def correctWord (erased : List Nat) (x : BitVec 72) : Option Nat :=
  let w := eraseWord erased x.toNat
  let s := syndrome w
  if s = 0 then some w
  else match erased with
  | p :: _ => ([1, 2, 3].find? (fun v => scaleCol v (column p) == s)).map (fun v => w + v * 4 ^ p)
  | [] => (List.range 36).findSome? (fun p => ([1, 2, 3].find? (fun v => scaleCol v (column p) == s)).map (fun v => w ^^^ (v * 4 ^ p)))

/-- The generator of the burst code (R353): (x^23 + 1)(x^57 + x^7 + 1). -/
def fireG : Nat := 2 ^ 80 + 2 ^ 57 + 2 ^ 30 + 2 ^ 23 + 2 ^ 7 + 1
/-- A polynomial reduced modulo g, from degree 80 + k - 1 down. -/
def fireMod : Nat → Nat → Nat
  | 0, x => x
  | k + 1, x => fireMod k (if bit x (80 + k) then x ^^^ (fireG * 2 ^ k) else x)
/-- The 80 check bits of a block's 600 bits (R353). -/
def fireCheck (m : Nat) : Nat := fireMod 600 (m * 2 ^ 80)
/-- The burst of at most 12 bits that a syndrome tells: its lowest position and pattern. -/
def fireFind : Nat → Nat → Nat → Option (Nat × Nat)
  | 0, _, _ => none
  | k + 1, i, t =>
    if t < 4096 && t % 2 == 1 && decide (t * 2 ^ i < 2 ^ 680) then some (i, t)
    else fireFind k (i + 1) (if t % 2 = 1 then (t ^^^ fireG) / 2 else t / 2)
/-- BURST CORRECTION of a 680-bit block (R353, R444): the block, 1 when it was corrected, 2 when it cannot be. -/
def fireFix (x : BitVec 680) : Nat × Nat :=
  let s := fireMod 600 x.toNat
  if s = 0 then (x.toNat, 0)
  else match fireFind 680 0 s with
  | some (i, t) => (x.toNat ^^^ (t * 2 ^ i), 1)
  | none => (x.toNat, 2)

/-- A pair's link state before its first flit: SEQ and ACK are 0 (R348, R454), and nothing of a group's flits has come. (DEDUCED, log 17) (DEDUCED, log 27) -/
def Pair.fresh (dev now : Nat) : Pair := ⟨dev, 0, 0, if castFrom 0 0 ≤ dev && dev < castPair 0 then 4096 else 0, [], 0, now, 0, now, false, false⟩
def State.pair (s : State) (dev : Nat) : Pair := (s.pairs.find? (fun p => p.dev == dev)).getD (Pair.fresh dev s.now)
def State.putPair (s : State) (p : Pair) : State := { s with pairs := upsert (fun q => q.dev == p.dev) p s.pairs }
/-- A link word of a flit (R349): words 0 to 7 carry P's symbols, each on all 36 planes (R350), words 8 to 39 the body. -/
def Flit.word (f : Flit) (k : Nat) : BitVec 72 :=
  if k < 8 then BitVec.ofNat 72 ((List.range 36).foldl (fun r p => r + preamble f.vc f.mc f.dest / 4 ^ k % 4 * 4 ^ p) 0)
  else sendWord (f.body / 2 ^ (64 * (k - 8)))
/-- What a lane carries of fifteen flits (R349, R353): its bit of every word in the order sent, the first as the coefficient of x^679, then the check bits. -/
def laneBlock (ws : List (BitVec 72)) (lane : Nat) : BitVec 680 :=
  let m := ws.foldl (fun r w => 2 * r + b2n (w.getLsbD lane)) 0
  BitVec.ofNat 680 (m * 2 ^ 80 + fireCheck m)
/-- The block of fifteen flits on the 72 lanes (R353). -/
def blockOf (fs : List Flit) : List (BitVec 680) :=
  let ws := fs.flatMap (fun f => (List.range 40).map f.word)
  (List.range 72).map (laneBlock ws)
/-- Flits leave: every fifteen of them make a block (R353), and until then nothing lies on the lanes, since the spec names no idle flit (R2); each takes one of the places that the plane switches have for its channel (R357). (DEDUCED, log 28) -/
def State.emitOne (s : State) (f : Flit) : State :=
  let l := s.txFlits ++ [f]
  let full := decide (15 ≤ l.length)
  { s with
    sent := s.sent ++ [f], txFlits := if full then [] else l, txBlocks := if full then s.txBlocks ++ [blockOf l] else s.txBlocks
    credit := s.credit.set f.vc (s.credit.getD f.vc 0 - 1) }
def State.emit (s : State) (fs : List Flit) : State := fs.foldl State.emitOne s
/-- Credit returned for a channel (R354, R357). -/
def State.takeCredit (s : State) (ctl : Nat) : State :=
  let vc := bits ctl 26 25
  { s with credit := s.credit.set vc (min 32 (s.credit.getD vc 0 + bits ctl 31 27)) }

/-- The link control dword (R354): CRED 0, since only the plane switches return credit (R357; DEDUCED, log 28). (DEDUCED, log 17) -/
def ctlOf (seq ack : Nat) (nak : Bool) : BitVec 32 := BitVec.ofNat 32 (b2n nak * 2 ^ 24 + ack % 4096 * 4096 + seq % 4096)

/-- The device sends flits now (R445, R451, R471). -/
def State.mayTransmit (s : State) : Bool := s.boot == .full && !s.quiesce && !s.fabricLost

/-- Entries of the go-back buffer in use (R356). -/
def State.held (s : State) : Nat := s.pairs.foldl (fun n p => n + p.goBack.length) 0

/-- A flit with transaction content sent towards a pair, and kept until it is acknowledged (R356); the acknowledgement of the other direction rides on it. (DEDUCED, log 17) (DEDUCED, log 27) -/
def State.sendFlit (s : State) (dev : Nat) (mc : Bool) (vc dest area : Nat) (xfer : Option Nat) : State :=
  let p := s.pair dev
  let f : Flit := ⟨dest, mc, vc, BitVec.ofNat 1920 area, ctlOf (p.seq + 1) p.accepted p.nakSent, xfer⟩
  (s.putPair { p with
      seq := (p.seq + 1) % 4096, goBack := p.goBack ++ [f], heldSince := if p.goBack.isEmpty then s.now else p.heldSince
      sinceAck := 0, lastAckAt := s.now }).emit [f]

/-- Packets become flits in order, as the go-back buffer and their channel have room (R356, R357, R359). A packet that this device asked of itself comes back at once. The first argument bounds the packets. -/
def State.transmitN : Nat → State → State
  | 0, s => s
  | n + 1, s =>
    match s.txq with
    | [] => s
    | p :: r =>
      if p.dst == s.kdev && !p.mc then State.transmitN n { s with txq := r, rx := s.rx ++ [p] }
      else
        let (k, x) := p.slots
        let fl := ceilDiv k 15
        if !s.mayTransmit || decide (64 < s.held + fl) || decide (s.credit.getD p.vc 0 < fl) then s
        else
          let dev := if p.mc then castPair p.dst else p.dst
          State.transmitN n ((List.range fl).foldl (fun s i => s.sendFlit dev p.mc p.vc p.dst (x / 2 ^ (1920 * i) % 2 ^ 1920) p.xfer) { s with txq := r })

/-- Flits of a group that a member has not acknowledged yet (R356). (DEDUCED, log 27) -/
def State.castBehind (s : State) (g m : Nat) : Nat := ((s.pair (castPair g)).seq + 4096 - (s.pair (castAck g m)).acked % 4096) % 4096
/-- The members of a group that answer for its flits. -/
def State.castLive (s : State) (g : Nat) : List Nat := (s.castMembers g).filter (fun m => m == s.kdev || !s.fenced m)
/-- A group's flits leave the go-back buffer when every member has acknowledged them (R356). (DEDUCED, log 27) -/
def State.pruneCast (s : State) (g : Nat) : State :=
  let c := s.pair (castPair g)
  let keep := ((s.castLive g).map (s.castBehind g)).foldl max 0
  if c.goBack.length ≤ keep then s
  else s.putPair { c with acked := (c.seq + 4096 - keep) % 4096, goBack := c.goBack.drop (c.goBack.length - keep), resends := 0, heldSince := s.now }
def State.pruneCasts (s : State) : State := (s.casts.map (·.1)).foldl (fun s g => s.pruneCast g) s
/-- What waits to be sent is sent. -/
def State.transmit (s : State) : State := if s.txq.isEmpty then s else s.pruneCasts.transmitN s.txq.length

/-- Saturating count in 32 bits. -/
def sat32 (n k : Nat) : Nat := min (n + k) 0xFFFFFFFF

/-- FLIT_REPLAY (R356): everything kept for a device is sent again, in order; under QUIESCE it is put off until that ends (R453). It does not wait for credit (R357; DEDUCED, log 28). -/
def State.replay (s : State) (dev : Nat) : State :=
  let p := s.pair dev
  if p.goBack.isEmpty then s
  else if !s.mayTransmit then s.putPair { p with owing := true }
  else { (s.putPair { p with resends := p.resends + 1, owing := false }).emit p.goBack with flink := (sat32 s.flink.1 p.goBack.length, s.flink.2) }

/-- An ACK from a device (R354, R356): the entries up to it leave the go-back buffer; with NAK the rest is sent again. -/
def State.takeAck (s : State) (dev ack : Nat) (nak : Bool) : State :=
  let p := s.pair dev
  let n := (ack + 4096 - p.acked % 4096) % 4096
  let s1 := if n ≤ p.goBack.length then
      s.putPair { p with
        acked := ack, goBack := p.goBack.drop n, resends := if n = 0 then p.resends else 0, heldSince := if n = 0 then p.heldSince else s.now }
    else s
  if nak then s1.replay dev else s1

/-- A member's ACK of a group's flits (R356). (DEDUCED, log 27) -/
def State.takeCastAck (s : State) (g m ack : Nat) (nak : Bool) : State :=
  let a := s.pair (castAck g m)
  let s1 := if (ack + 4096 - a.acked % 4096) % 4096 ≤ s.castBehind g m then (s.putPair { a with acked := ack }).pruneCast g else s
  if nak then s1.replay (castPair g) else s1

/-- An acknowledgement in a flit without content (R356): NAK stands while the expected flit has not come. Its SEQ is one already acknowledged (DEDUCED, log 28); the one for a group's flits is on channel 3 and carries the group's number there (DEDUCED, log 27). -/
def State.sendAck (s : State) (dev : Nat) : State :=
  if !s.mayTransmit then s
  else
    let p := s.pair dev
    let s1 := s.putPair { p with sinceAck := 0, lastAckAt := s.now }
    if dev < 512 then s1.emit [⟨dev, false, 1, 0, ctlOf p.acked p.accepted p.nakSent, none⟩]
    else if dev % 512 = s.kdev then s1.takeCastAck (dev / 512 - 1) s.kdev p.accepted p.nakSent
    else s1.emit [⟨dev % 512, false, 3, 0, ctlOf (dev / 512 - 1) p.accepted p.nakSent, none⟩]

/-- PLANE_STATE_CHANGE (R445): a plane after its scores or PDIS have changed. A second failed plane loses the fabric. -/
def State.judgePlane (s : State) (i : Nat) (p : Plane) : State :=
  let worst := max p.score1 p.score0
  let put := fun (s : State) (p : Plane) => { s with planes := s.planes.set i p }
  if p.state != 2 && (decide (32768 ≤ worst) || decide (16 ≤ p.pdis - p.pdisAtHalving)) then
    if s.planes.any (fun q => q.state == 2) then { (put s { p with state := 2 }).logFabric 12 (s.kdev * 2 ^ 48) with fabricLost := true }
    else (put s { p with state := 2 }).logFabric 10 i
  else if p.state == 0 && decide (8192 ≤ worst) then (put s { p with state := 1 }).logFabric 9 i
  else if p.state == 1 && decide (p.score1 < 4096) && decide (p.score0 < 4096) then put s { p with state := 0 }
  else put s p

/-- A plane's lane scores raised by what its two blocks showed (R444). -/
def scoreOf (r : Nat) : Nat := if r = 0 then 0 else if r = 1 then 16 else 1024
def sat16 (n : Nat) : Nat := min n 0xFFFF

/-- A received block (R353, R444): burst correction on every lane, its scores, and its fifteen flits. A burst on a failed plane, whose symbols are erasures, fails no flit (R446). (DEDUCED, log 61) -/
def State.takeBlock (s : State) (b : RxBlock) : State :=
  let fixed := b.lanes.map fireFix
  let res := fun i => ((fixed[i]?).map (·.2)).getD 0
  let live := fun i => match s.planes[i]? with | some p => p.state != 2 | none => true
  let bad := (List.range Config.planes).any (fun i => live i && (res (2 * i) == 2 || res (2 * i + 1) == 2))
  let s := (List.range Config.planes).foldl (fun s i =>
    match s.planes[i]? with
    | none => s
    | some p => s.judgePlane i { p with
        score0 := sat16 (p.score0 + scoreOf (res (2 * i))), score1 := sat16 (p.score1 + scoreOf (res (2 * i + 1))), blocks := p.blocks + 1 }) s
  let lane := fun i => ((fixed[i]?).map (·.1)).getD 0
  let sym := fun f w p => b2n (bit (lane (2 * p)) (679 - (40 * f + w))) + 2 * b2n (bit (lane (2 * p + 1)) (679 - (40 * f + w)))
  let flit := fun f : Nat =>
    let pre := (List.range 36).map (fun p =>
      let v := (List.range 8).foldl (fun r k => r + sym f k p * 4 ^ k) 0
      if v = 0 then none else some (BitVec.ofNat 16 v))
    let words := (List.range 32).map (fun i => BitVec.ofNat 72 ((List.range 36).foldl (fun r p => r + sym f (8 + i) p * 4 ^ p) 0))
    (⟨pre, words, bad, b.srcs.getD f 0⟩ : RxFlit)
  { s with rxFlits := s.rxFlits ++ (List.range 15).map flit }

/-- The value that most of the planes that are not failed carry, and how many (R350, R447). (DEDUCED, log 61) -/
def majority (l : List (Option (BitVec 16))) : Option (BitVec 16) × Nat :=
  l.foldl (fun b x => let n := l.countP (fun y => y == x); if b.2 < n then (x, n) else b) (none, 0)

/-- A flit that fails (R356): counted, and answered with NAK unless its source is fenced; `dev` is the number of its link state. -/
def State.failFlit (s : State) (src dev : Nat) : State :=
  let s := { s with flink := (s.flink.1, sat32 s.flink.2 1) }
  if s.fence.getLsbD src then s else (s.putPair { s.pair dev with nakSent := true, sinceAck := 16 }).sendAck dev
/-- The number of a received flit's link state, by its preamble. (DEDUCED, log 27) -/
def linkOf (pre src : Nat) : Nat := if bit pre 9 then castFrom (pre % 512) src else src

/-- Slots of an accepted flit taken into packets (R359): those of the packet that goes on, then new headers, until a TYPE of 0. -/
def takeSlots (vc : Nat) : List Nat → Option (Nat × Nat × Nat) → List Packet → List Packet × Option (Nat × Nat × Nat)
  | [], part, out => (out, part)
  | x :: r, some (have_, need, v), out =>
    let v := v + x * 2 ^ (128 * have_)
    if have_ + 1 = need then takeSlots vc r none (out ++ [packetOf vc need v]) else takeSlots vc r (some (have_ + 1, need, v)) out
  | x :: r, none, out =>
    if x % 256 = 0 then (out, none)
    else
      let need := slotsOf (x % 2 ^ 64) (x / 2 ^ 64)
      if need = 1 then takeSlots vc r none (out ++ [packetOf vc 1 x]) else takeSlots vc r (some (1, need, x)) out

/-- A TYPE of R360. -/
def knownType (t : Nat) : Bool := [0x01, 0x02, 0x03, 0x04, 0x05, 0x06, 0x10, 0x11, 0x12, 0x13, 0x14, 0x15, 0x17].contains t
/-- The join write (R457). (DEDUCED, log 59) -/
def Packet.isJoin (p : Packet) : Bool := p.typ == 2 && p.len == 8 && p.d1.toNat % 2 ^ 48 == ctlBase + 0x8201C8 && !p.d1.getLsbD 63

/-- The answer to this device's own join write (R457). -/
def State.joined (s : State) (p : Packet) : Bool := p.typ == 0x05 && s.reqs.any (fun r => r.kind == ReqKind.join && r.dst == p.src && r.tag == p.tag)

/-- The slots of a transaction area. -/
def slotList (area : Nat) : List Nat := (List.range 15).map (fun i => area / 2 ^ (128 * i) % 2 ^ 128)

/-- A flit that is taken from a device whatever its SEQ: one that holds the join write of a fenced source, or the answer to this device's own. The receiver's count of the pair starts from it (R454, R457). (DEDUCED, log 59) -/
def State.joinFlit (s : State) (src vc area : Nat) : Bool :=
  (takeSlots vc (slotList area) none []).1.any (fun p => p.src == src && ((s.fence.getLsbD src && p.isJoin) || s.joined p))

/-- The content of an accepted flit becomes packets; other TYPEs are discarded and counted (R360). A fenced source may only join, or answer a join (R454, R457). `dev` is the number of the flit's link state. (DEDUCED, log 28) (DEDUCED, log 59) -/
def State.takeContent (s : State) (dev src vc : Nat) (area : Nat) : State :=
  let part := (s.rxParts.find? (fun p => p.1 == dev && p.2.1 == vc)).map (fun p => (p.2.2.1, p.2.2.2.1, p.2.2.2.2.toNat))
  let r := takeSlots vc (slotList area) part []
  let good := r.1.filter (fun p => knownType p.typ && (!s.fence.getLsbD src || p.isJoin || s.joined p))
  let unknown := r.1.countP (fun p => !knownType p.typ)
  let rest := s.rxParts.filter (fun p => !(p.1 == dev && p.2.1 == vc))
  { s with
    rx := s.rx ++ good
    fdisc := (s.fdisc.1, sat32 s.fdisc.2 unknown)
    rxParts := match r.2 with | some (h, n, v) => rest ++ [(dev, vc, h, n, BitVec.ofNat 4096 v)] | none => rest }

/-- A flit whose CRC holds (R356): its link control, and its content when its SEQ is the next one; the first flit of a group's that comes from a source begins its count (DEDUCED, log 27). (DEDUCED, log 28) (DEDUCED, log 59) -/
def State.acceptFlit (s : State) (f : RxFlit) (pre body : Nat) : State :=
  let ctl := body / 256 ^ 240 % 2 ^ 32
  let area := body % 256 ^ 240
  let vc := bits pre 11 10
  let mc := bit pre 9
  let dest := pre % 512
  let seq := ctl % 4096
  let fenced := s.fence.getLsbD f.src
  if !mc && dest != s.kdev then s
  else
    let s := s.takeCredit ctl
    if !mc && vc = 3 && area = 0 then (if fenced then s else s.takeCastAck seq f.src (ctl / 4096 % 4096) (bit ctl 24))
    else
      let dev := linkOf pre f.src
      let join := !mc && s.joinFlit f.src vc area
      let s := if mc || (fenced && !join) then s else s.takeAck f.src (ctl / 4096 % 4096) (bit ctl 24)
      -- an area of zeros is empty, unless a packet goes on in it
      if (area = 0 && !s.rxParts.any (fun x => x.1 == dev && x.2.1 == vc)) || (fenced && !join) then s
      else
        let p := s.pair dev
        if seq != (p.accepted + 1) % 4096 && p.accepted != 4096 && !join then s
        else
          let s := (s.putPair { p with accepted := seq, nakSent := false, sinceAck := p.sinceAck + 1 }).takeContent dev f.src vc area
          if 16 ≤ p.sinceAck + 1 && !fenced then s.sendAck dev else s

/-- A received flit (R446, R447, R352, R355, R356): where the planes disagree, none of them carrying a P included, it is discarded and counted; the link state that answers is told by the P that most planes carry. (DEDUCED, log 13) (DEDUCED, log 27) (DEDUCED, log 61) -/
def State.takeFlit (s : State) (f : RxFlit) : State :=
  let failed := (List.range 36).filter (fun i => match s.planes[i]? with | some p => p.state == 2 | none => false)
  let live := (List.range 36).filter (fun i => !failed.contains i)
  let pre := fun i => (f.pre[i]?).getD none
  let m := majority (live.map pre)
  let differs := live.filter (fun i => pre i != m.1 || (match pre i with | some v => !pchk v.toNat | none => false))
  let s := differs.foldl (fun s i => match s.planes[i]? with
    | some p => s.judgePlane i { p with pdis := sat16 (p.pdis + 1) }
    | none => s) s
  let link := match m.1 with
    | some v => linkOf v.toNat f.src
    | none => (match (majority (differs.map pre)).1 with | some v => linkOf v.toNat f.src | none => f.src)
  if 2 ≤ differs.length || m.2 < 19 then { s with fdisc := (sat32 s.fdisc.1 1, s.fdisc.2) }.failFlit f.src link
  else match m.1 with
  | none => s
  | some v =>
      let ws := f.words.map (correctWord (failed ++ differs))
      if f.blockBad || ws.any (·.isNone) || ws.length != 32 then s.failFlit f.src link
      else
        let body := ws.foldr (fun w r => r * 2 ^ 64 + (w.getD 0) % 2 ^ 64) 0
        if (crc32 254 (v.toNat + body % 256 ^ 252 * 65536)).toNat != body / 256 ^ 252 then s.failFlit f.src link
        else s.acceptFlit f v.toNat body

/-- FLIT_RECEIVE (R356): the next flit, or the next block. Before full mode the planes are not joined (R471). -/
def State.evFlit (s : State) : Option State :=
  if s.boot != .full then none
  else match s.rxFlits with
  | f :: r => some ({ s with rxFlits := r }.takeFlit f)
  | [] => match s.rxBlocks with
    | b :: r => some ({ s with rxBlocks := r }.takeBlock b)
    | [] => none
def execFlitReceive (s : State) : Out := s.event s.evFlit

/-- ACK_TIMER (R356): 200 ns without an acknowledgement. -/
def State.ackDue (s : State) (p : Pair) : Option State :=
  if p.sinceAck != 0 && decide (p.dev < castPair 0) && decide (600 ≤ s.now - p.lastAckAt) && s.mayTransmit then some (s.sendAck p.dev) else none
def State.evAckTimer (s : State) : Option State := nth s.ackDue s.pick s.pairs
def execAckTimer (s : State) : Out := s.event s.evAckTimer

/-- The device on which a link state's oldest kept flit waits: the peer, or a member of a group that has acknowledged none of its kept flits. (DEDUCED, log 27) -/
def State.laggard (s : State) (p : Pair) : Option Nat :=
  if p.dev < 512 then some p.dev
  else if castPair 0 ≤ p.dev && p.dev < castPair 512 then
    (s.castLive (p.dev - castPair 0)).find? (fun m => m != s.kdev && decide (p.goBack.length ≤ s.castBehind (p.dev - castPair 0) m))
  else none
/-- REPLAY_LIMIT (R448): 16 resends, or 100 µs with flits kept and no ACK advancing. Not under QUIESCE, in which no access fails (R453), nor while a join waits for its answer, which is sent until it comes (R457). (DEDUCED, log 104) -/
def State.unreachable (s : State) (p : Pair) : Option State :=
  if s.quiesce || s.joins.any (fun j => j.1 == p.dev) then none
  else if !p.goBack.isEmpty && (decide (16 ≤ p.resends) || decide (cyclesUs 100 ≤ s.now - p.heldSince)) then (s.laggard p).map (fun n => s.fenceDev n) else none
def State.evReplayLimit (s : State) : Option State := nth s.unreachable s.pick s.pairs
def execReplayLimit (s : State) : Out := s.event s.evReplayLimit

/-- SCORE_HALVING (R444): after 2^24 blocks; PDIS is counted afresh for the next interval (R445). -/
def State.halve (s : State) (i : Nat) : Option State :=
  match s.planes[i]? with
  | some p =>
    if p.blocks < 2 ^ 24 then none
    else some (s.judgePlane i { p with score1 := p.score1 / 2, score0 := p.score0 / 2, blocks := p.blocks - 2 ^ 24, pdisAtHalving := p.pdis })
  | none => none
def State.evHalving (s : State) : Option State := nth s.halve s.pick (List.range Config.planes)
def execScoreHalving (s : State) : Out := s.event s.evHalving

end Sys2Proof.Machine
end

