-- ==== Sys2Proof/Machine/System.lean ====
section
/-!
DEFINITION. Debug instructions (R255–R259) and system instructions (R260–R266) with the K-registers (R70, R71).
-/
namespace Sys2Proof.Machine

/-- A watch register as WSET loads it (R68, R256). -/
def Watch.of (ctl base lim str : Word) : Watch where
  ctl := ctl &&& 0xF#64
  base := base &&& 0x7FFFFFFFFFFFFF#64
  lim := lim &&& 0x7FFFFFFFFFFFFF#64
  str := str &&& 0xFFFFFFFFFFFFFF#64

/-- A watch register of the strand in the slot written whole. -/
def State.putWatch (s : State) (n : BitVec 3) (x : Watch) : State :=
  s.modSt (fun t => { t with watch := t.watch.set n.toNat x }.mendK ((List.range 4).map (fun i => 0x040 + 4 * n.toNat + i)))

/-- WSET (R256). -/
def execWset (n : BitVec 3) (a : BitVec 5) (s : State) : Out :=
  s.given (s.chkRegs [a, a + 1, a + 2, a + 3])
    (.next (s.putWatch n (Watch.of (s.reg a) (s.reg (a + 1)) (s.reg (a + 2)) (s.reg (a + 3)))).finish)
/-- WCLR (R256). -/
def execWclr (n : BitVec 3) (s : State) : Out := .next (s.putWatch n Watch.zero).finish
/-- BRK (R259). -/
def execBrk (c : BitVec 12) (s : State) : Out := .next (s.trap 0x0B (c.setWidth 64) 0)
/-- CALLK (R261). -/
def execCallk (n : BitVec 12) (s : State) : Out := .next (s.trap 0x20 (n.setWidth 64) 0)
/-- ERET (R262): refused in user mode outside a handler (R260); it reads its level's registers (R412). -/
def execEret (s : State) : Out :=
  if !s.core.st.kMode && !s.core.st.uin then .next (s.trap 0x03 0 0)
  else s.given (s.chkK (0x100 :: if s.core.st.kMode then [0x101, 0x102, 0x103] else [0x010, 0x011, 0x012])) (.next s.eret)

/-- The numbers of R70: 1 user and supervisor, 2 supervisor only, 0 not listed. -/
def kAccess (k : Nat) : Nat :=
  if k ∈ [0x001, 0x002, 0x003, 0x004, 0x005] || (0x008 ≤ k && k ≤ 0x014) || (0x040 ≤ k && k < 0x060) then 1
  else if (0x100 ≤ k && k ≤ 0x106) || (0x110 ≤ k && k ≤ 0x112) then 2
  else 0

/-- The registers of R70 that a KWR changes nothing of (R71): KVL, KVTYPE and the identity and clock registers. -/
def kReadOnly (k : Nat) : Bool := k == 0x004 || k == 0x005 || (0x008 ≤ k && k ≤ 0x00F)

/-- A watch K-register (R68). -/
def Strand.watchK (t : Strand) (k : Nat) : Word :=
  match t.watch[(k - 0x040) / 4]? with
  | none => 0
  | some x => match k % 4 with
    | 0 => x.ctl
    | 1 => x.base
    | 2 => x.lim
    | _ => x.str

/-- What KRD reads (R70). (DESIGN CHOICE, log 6) -/
def State.kRead (s : State) (k : Nat) : Word :=
  let t := s.core.st
  let g := fun (f : Gang → Word) => (s.myGang.map f).getD 0
  let n := fun (x : Nat) => BitVec.ofNat 64 x
  match k with
  | 0x001 => t.kfctl
  | 0x002 => t.ksr
  | 0x003 => t.klm
  | 0x004 => n t.vl
  | 0x005 => t.kvtype
  | 0x008 => n t.place
  | 0x009 => n t.gang
  | 0x00A => n t.rank
  | 0x00B => n s.core.id
  | 0x00C => n s.kdev
  | 0x00D => g (fun g => n g.task.prio)
  | 0x00E => Config.coreCycles s.core.id s.now - Config.coreCycles s.core.id s.coresFrom
  | 0x00F => n (s.core.mv * 65536 + s.core.mhz)
  | 0x010 => t.user.cause.setWidth 64
  | 0x011 => t.user.epc.setWidth 64
  | 0x012 => t.user.egrp.setWidth 64
  | 0x013 => t.user.eval
  | 0x014 => g (·.kutvec)
  | 0x100 => t.kstatus
  | 0x101 => t.super.cause.setWidth 64
  | 0x102 => t.super.epc.setWidth 64
  | 0x103 => t.super.egrp.setWidth 64
  | 0x104 => t.super.eval
  | 0x105 => g (·.kstvec)
  | 0x106 => t.kscratch
  | 0x110 => g (fun g => n g.kasid)
  | 0x111 => g (fun g => n g.kptbase)
  | 0x112 => g (fun g => n g.kfrec)
  | k => if 0x040 ≤ k && k < 0x060 then t.watchK k else 0

/-- A watch K-register written: reserved bits read as zero, HIT is cleared by a 1 (R68). -/
def Watch.put (x : Watch) (k : Nat) (v : Word) : Watch :=
  let y := Watch.of v v v v
  match k % 4 with
  | 0 => { x with ctl := y.ctl ||| (x.ctl &&& 16#64 &&& ~~~v) }
  | 1 => { x with base := y.base }
  | 2 => { x with lim := y.lim }
  | _ => { x with str := y.str }

/-- A strand-scope K-register written (R70, R71, R392): read-only registers and reserved bits keep what they hold. -/
def Strand.kWrite (t : Strand) (k : Nat) (v : Word) : Strand :=
  match k with
  | 0x001 => { t with kfctl := v &&& 0x1F3#64 }
  | 0x002 => { t with ksr := v &&& 0xFFFFFFFF#64 }
  | 0x003 => { t with klm := v &&& 0xFFFFFFFFFFFF#64 }
  | 0x010 => { t with user := { t.user with cause := v.setWidth 8 } }
  | 0x011 => { t with user := { t.user with epc := v.setWidth 55, depth := 0 } }
  | 0x012 => { t with user := { t.user with egrp := v.setWidth 4, depth := 0 } }
  | 0x013 => { t with user := { t.user with eval := v } }
  | 0x100 => { t with kstatus := (t.kstatus &&& 1#64) ||| (v &&& 6#64) }
  | 0x101 => { t with super := { t.super with cause := v.setWidth 8 } }
  | 0x102 => { t with super := { t.super with epc := v.setWidth 55, depth := 0 } }
  | 0x103 => { t with super := { t.super with egrp := v.setWidth 4, depth := 0 } }
  | 0x104 => { t with super := { t.super with eval := v } }
  | 0x106 => { t with kscratch := v }
  | k =>
    if 0x040 ≤ k && k < 0x060 then { t with watch := t.watch.mapIdx (fun i x => if i == (k - 0x040) / 4 then x.put k v else x) }
    else t

/-- A gang-scope K-register written for every strand of the gang (R71). A gang that changes its KASID gives up its binding (DESIGN CHOICE, log 101). -/
def Gang.kWrite (g : Gang) (k : Nat) (v : Word) (now rank : Nat) : Gang :=
  match k with
  | 0x014 => { g with kutvec := v &&& 0x7FFFFFFFFFFFFC#64, oldUtvec := some (g.kutvec, now, rank) }
  | 0x105 => { g with kstvec := v &&& 0x7FFFFFFFFFFFFC#64, oldStvec := some (g.kstvec, now, rank) }
  | 0x110 =>
    let a := v.toNat % 65536
    { g with kasid := a, pastAsids := addTo g.pastAsids g.kasid, bound := g.bound && a == g.kasid }
  | 0x111 => { g with kptbase := v.toNat % 2 ^ 48 / 65536 * 65536 }
  | 0x112 => { g with kfrec := v.toNat % 2 ^ 48 / 128 * 128 }
  | _ => g

/-- The checks of KRD and KWR on the number (R71, R406). -/
def State.kCheck (s : State) (k : Nat) : Chk :=
  (Chk.unless (kAccess k != 0) 0x02 0).andThen (Chk.unless (kAccess k == 1 || s.core.st.kMode) 0x03 0)

/-- KRD (R263): a register that an uncorrectable error has struck traps (R412). -/
def execKrd (d : BitVec 5) (k : BitVec 12) (s : State) : Out :=
  s.given ((s.kCheck k.toNat).andThen (s.chkK [k.toNat]))
    (.next (s.setReg d (s.kRead k.toNat)).finish)

/-- KWR (R263): a write of a register that it changes ends an error in it (R412); one of a read-only register does nothing (R71). -/
def execKwr (a : BitVec 5) (k : BitVec 12) (s : State) : Out :=
  s.given ((s.kCheck k.toNat).andThen (s.chkRegs [a]))
    (let n := k.toNat
     let u := s.modSt (fun t => (t.kWrite n (s.reg a)).mendK (if kReadOnly n then [] else [n]))
     if kOfGang n && !kReadOnly n then
       let w := u.modGang s.core.st.gang (fun g => { g.kWrite n (s.reg a) s.now s.core.st.rank with badK := g.badK.filter (· != n) })
       .next (if n = 0x110 then (w.rebind s.asid).rebind w.asid else w).finish
     else .next u.finish)

/-- What a TLBINV names (R264). -/
inductive Inv where
  | all | asid (a : Nat) | page (a va : Nat)
  deriving DecidableEq, Repr

/-- A cached translation is named. -/
def Inv.hits (i : Inv) (x : Xlat) : Bool :=
  match i with
  | .all => true
  | .asid a => x.asid == a
  | .page a va => x.covers a va
/-- A strand's address space is named. -/
def Inv.space (i : Inv) (a : Nat) : Bool :=
  match i with
  | .all => true
  | .asid b => a == b
  | .page b _ => a == b
/-- How a COPY packet's record of its translations names the 512 MiB page of an address: above every 64 KiB page's number. -/
def bigPage (va : Nat) : Nat := 2 ^ 60 + va / 2 ^ 29
/-- A COPY packet's translation is named (R264, R330). -/
def Inv.holds (i : Inv) (p : Nat × Nat) : Bool :=
  match i with
  | .all => true
  | .asid a => p.1 == a
  | .page a va => p.1 == a && (p.2 == va / 65536 || p.2 == bigPage va)

/-- Entries taken out of every TLB, both hub caches and the walks on their way, with words fetched through a page of another device. -/
def State.invalidateXlats (s : State) (i : Inv) : State :=
  let keep := fun (l : List Xlat) => l.filter (fun x => !i.hits x)
  let f := fun (k : Core) => { k with tlb := keep k.tlb, st := { k.st with code := none }, rest := k.rest.map (fun t => { t with code := none }) }
  { s with
    core := f s.core, others := s.others.map f
    hub0 := keep s.hub0, hub1 := keep s.hub1
    walks := s.walks.filter (fun w => !i.hits w.2) }

/-- A gang's accesses may have used a translation of a named address space: one that it has or has had; those of a gang that is gone are taken for such. -/
def State.usesSpace (s : State) (i : Inv) (gang : Nat) : Bool :=
  match s.gang? gang with
  | some g => i.space g.kasid || g.pastAsids.any i.space
  | none => true

/-- Accesses on the device that may have translated through a named entry and are not performed: stores committed and not sent, groups whose pages have been looked up and that are not done (R425, R427), and what awaits an answer or an acknowledgement (R264). (DEDUCED, log 42) -/
def State.xlatBusy (s : State) (i : Inv) : Bool :=
  s.allCores.any (fun k => (k.sb ++ k.st.heldOps).any (fun e => e.kind != 2 && i.space e.asid)
      || (k.st :: k.rest).any (fun t => t.prog.any (fun p => p.els.any (fun e => e.x != windowXlat && i.hits e.x))))
    || s.invals.any (fun v => v.cls != 0 && s.usesSpace i v.gang)
    || s.ctlWrites.any (fun w => w.gang != 0 && s.usesSpace i w.gang)
    || s.reqs.any (fun r => r.gang != 0 && s.usesSpace i r.gang && (match r.kind with
      | .load _ _ _ _ => true
      | .fetch _ => true
      | .amo _ _ _ => true
      | .store _ => true
      | .vec _ _ => true
      | .vecStore _ => true
      | _ => false))

/-- TLBINV (R264): the entries go at once; it completes when what used them is done, the copies accepted before it among them (remembered as answers of status 9). (DEDUCED, log 42) -/
def State.tlbinv (s : State) (i : Inv) : Out :=
  let s1 := s.invalidateXlats i
  let mine := (s.xfers.filter (fun x => decide (x.kind ≤ 2) || (x.kind == 5 && x.xlats.any i.holds))).map (·.id)
  let s2 := if s.core.st.asked then s1
    else s1.modSt (fun t => { t with asked := true, askedAt := s.now, answers := (2 ^ 60 :: mine).map (fun n => ⟨n, 9, false, 0⟩) })
  if s2.xlatBusy i || s2.core.st.answers.any (fun a => s.xfers.any (fun x => x.id == a.idx)) then .next s2
  else .next s2.finish

/-- TLBINV's mode check (R260). -/
def State.kOnly (s : State) (k : Out) : Out := if s.core.st.kMode then k else .next (s.trap 0x03 0 0)

/-- TLBINV ALL (R264). -/
def execTlbinvAll (s : State) : Out := s.kOnly (s.tlbinv .all)
/-- TLBINV ASID (R264). -/
def execTlbinvAsid (d : BitVec 5) (s : State) : Out :=
  s.kOnly (s.given (s.chkRegs [d]) (s.tlbinv (.asid (bits (s.reg d).toNat 15 0))))
/-- TLBINV PAGE (R264). -/
def execTlbinvPage (d a : BitVec 5) (s : State) : Out :=
  s.kOnly (s.given (s.chkRegs [a, d]) (s.tlbinv (.page (bits (s.reg d).toNat 15 0) (s.reg a).toNat)))

/-- A run of memory declared dead (R265, R290): its L2 lines discarded, L1 copies invalidated, those of lines that L2 no longer holds too, poison cleared, every byte zero. -/
def State.killRange (s : State) (pa len : Nat) : State :=
  let inside := fun (a : Nat) => decide (pa ≤ a) && decide (a < pa + len)
  let t := s.core.st
  let held : List Nat := s.allCores.flatMap (fun k => (k.l1 ++ k.icache).map (fun l => l.line % 2 ^ 48)) ++ s.l1Fills.map (fun f => f.line % 2 ^ 48)
  let lines := firsts ((s.l2.map (fun l => l.line) ++ held).filter (fun l => inside (64 * l)))
  let s := lines.foldl (fun s l => s.invalidate l none t.gang t.rank 8) s
  { s with
    l2 := s.l2.filter (fun l => !inside (64 * l.line))
    mem := s.mem.filter (fun c => !inside c.1)
    memPsn := s.memPsn.filter (fun l => !inside (64 * l))
    dead := (List.range (len / 4096)).foldl (fun d i => addTo d (pa / 4096 + i)) s.dead }

/-- Transfers of the strand whose ranges overlap a dead range, on this device or another, are not performed yet (R265, R428). -/
def State.deadWait (s : State) (sp : List (Nat × Nat)) : Bool :=
  s.xfers.any (fun x => x.gang == s.core.st.gang && x.rank == s.core.st.rank && decide (x.kind ≤ 2)
    && x.xlats.any (fun r => sp.any (fun p => decide (r.1 < p.1 + p.2) && decide (p.1 < r.1 + r.2))))

/-- The pages of a range to be declared dead (R265): a page of either window is one of a wrong type (R428), whatever stands behind it. The first argument counts the pages. (DEDUCED, log 40) -/
def State.deadSpans (s : State) : Nat → Nat → Looked Span
  | 0, _ => ⟨[], none⟩
  | n + 1, va =>
    let here : Except (Option CFail) Span :=
      if bits va 63 55 == 0 && (bits va 54 44 == 0x600 || (0x70000000000000 ≤ va && va < 0x70000000080000)) then .ok ⟨va, 65536, windowXlat, .ctl⟩ else s.spanAt va 65536
    match here with
    | .error e => ⟨[], some e⟩
    | .ok p => let r := s.deadSpans n (va + 65536); ⟨p :: r.found, r.stop⟩

/-- A page of another device declared dead there: written with zeros, which leaves what MDEAD leaves, 256 bytes at a time (R265, R275). (DEDUCED, log 40) -/
def State.killFar (s : State) (p : Span) : State :=
  let t := s.core.st
  match p.at_ with
  | .far dev pa key =>
    ((List.range 256).foldl (fun s i => s.sendWrite (.farMem dev (pa + 256 * i) key) 256 0 0 s.asid t.gang t.rank (.store 8)) s).modSt
      (fun t => { t with asked := true, askedAt := s.now, answers := t.answers ++ [⟨p.va / 65536, 0, false, 0⟩] })
  | _ => s
/-- The device that a page of a dead range lies on, where it is another. -/
def Span.dev (p : Span) : Option Nat := match p.at_ with | .far dev _ _ => some dev | _ => none

/-- MDEAD (R265, R428): the pages of another device are done one by one, each remembered as an answer, and those of this device last. (DEDUCED, log 40) -/
def execMdead (d a : BitVec 5) (s : State) : Out :=
  s.given (s.chkRegs [a, d])
    (let base := s.reg a
     let len := (s.reg d).toNat
     if base.toNat % 65536 != 0 || len % 65536 != 0 then .next (s.trap 0x05 base 0)
     else if len = 0 then .next s.finish
     else match s.deadSpans (len / 65536) base.toNat with
     | ⟨_, some none⟩ => .next s
     | ⟨sp, some (some f)⟩ => .next (((s.useSpans sp).walkFault f.eval).trapAt f.cause f.eval 0 0 f.psna)
     | ⟨sp, none⟩ =>
       match sp.find? (fun p => !p.x.permits .store s.core.st.kMode || p.x.capacity || (match p.at_ with | .mem _ _ => false | .far _ _ _ => false | _ => true)) with
       | some p => .next ((s.useSpans sp).trap 0x08 (BitVec.ofNat 64 p.va) 0)
       | none =>
         match sp.find? (fun p => match p.dev with | some n => s.fenced n | none => false) with
         | some p => .next ((s.useSpans sp).trap 0x0E (BitVec.ofNat 64 p.va) 0)
         | none =>
           let rs := sp.filterMap (fun p => match p.at_ with | .mem pa _ => some (pa, p.len) | _ => none)
           if s.deadWait (sp.filterMap Span.physical) then .next s
           else match sp.find? (fun p => p.dev.isSome && (s.answerOf (p.va / 65536)).isNone) with
           | some p => if s.tagsFree (p.dev.getD 0) < 256 then .next s else .next (s.killFar p)
           | none => .next (rs.foldl (fun s r => s.killRange r.1 r.2) (s.useSpans sp)).finish)

/-- SFLUSH (R266): register 0 names every line; it asks for a translation and nothing else. -/
def execSflush (a : BitVec 5) (s : State) : Out :=
  let drop := fun (s : State) (p : Nat → Bool) =>
    { s.modCore (fun k => { k with l1 := k.l1.filter (fun l => !p l.line) }) with
      l1Fills := s.l1Fills.filter (fun f => f.instr || f.core != s.core.id || !p f.line) }
  if a = 0 then
    if s.core.sb.isEmpty then .next (drop s (fun _ => true)).finish else .next s
  else s.given (s.chkRegs [a])
    (match s.typed (s.reg a) 1 with
     | .fault c g => .next ((s.walkFault (s.reg a)).trapAt c (s.reg a) 0 0 g)
     | .held => .next s
     | .at p x =>
       if !s.core.sb.isEmpty then .next s
       else match p with
       | .slice pa key => .next (drop (s.useXlat x) (fun l => l == pa / 64 + 2 ^ 48 * key)).finish
       | _ => .next (s.useXlat x).finish)

end Sys2Proof.Machine
end

