-- ==== Sys2Proof/Machine/ControlEvents.lean ====
section
/-!
DEFINITION. Writes to control space (R272): queues (R322–R325), the bridge page (R370), the memory error log page (R417), the fabric fault page (R449–R458, R348), the bootstrap page (R474, R475). A write that has arrived waits in `ctlWrites`; the row of the register it reaches performs it and acknowledges it.
-/
namespace Sys2Proof.Machine

/-- The register's offset, and the write as 8 bytes: the half that a 4-byte write does not reach is 0 (R272). -/
def CtlWrite.off (w : CtlWrite) : Nat := (w.addr - ctlBase) / 8 * 8
def CtlWrite.full (w : CtlWrite) : Nat := if w.n = 8 then w.value.toNat else w.value.toNat % 2 ^ 32 * 2 ^ (8 * (w.addr % 8))
/-- The half that holds a bit is written (R272). -/
def CtlWrite.has (w : CtlWrite) (i : Nat) : Bool := w.n == 8 || (decide (i < 32) == (w.addr % 8 == 0))
/-- The register's new bits where its half is written, else its old ones. -/
def CtlWrite.into (w : CtlWrite) (old : Nat) : Nat :=
  if w.n = 8 then w.full
  else if w.addr % 8 = 0 then old / 2 ^ 32 * 2 ^ 32 + w.full % 2 ^ 32
  else old % 2 ^ 32 + w.full / 2 ^ 32 * 2 ^ 32
/-- A written bit. -/
def CtlWrite.sets (w : CtlWrite) (i : Nat) : Bool := w.has i && bit w.full i

/-- A write to QCTL (R324, R325): EN is judged as it stands before the write. -/
def State.writeQctl (s : State) (q : Nat) (w : CtlWrite) : State :=
  let x := s.queue q
  let v := w.into x.ctl
  let x1 := if x.en then x else { x with qsize := bits v 23 20, maxPrio := bits v 18 16, priv := bit v 2 }
  let x2 := { x1 with err := x.err && !w.sets 1 }
  let x3 := if !w.has 0 then x2
    else if !bit w.full 0 then { x2 with en := false }
    else if x.en then x2
    else if 4 ≤ x1.qsize && x1.qsize ≤ 16 then { x2 with en := true, rd := 0 }
    else x2
  let s1 := s.putQueue x3
  -- the queue starts, or restarts at packet QRD
  if x3.en && !x3.err && (!x.en || x.err) then { s1 with notified := addTo s1.notified q }.examine q
  else if !x3.en then { s1 with notified := delFrom s1.notified q } else s1

/-- A write to another register of a context page (R323, R325). -/
def State.writeContext (s : State) (q off : Nat) (w : CtlWrite) : State :=
  let x := s.queue q
  if x.en then s
  else s.putQueue (match off with
    | 0x008 => { x with base := BitVec.ofNat 64 (w.into x.base.toNat % 2 ^ 55 / 64 * 64) }
    | 0x018 => { x with asid := w.into x.asid % 65536 }
    | 0x020 => { x with ptbase := w.into x.ptbase % 2 ^ 48 / 65536 * 65536 }
    | 0x028 => { x with stvec := BitVec.ofNat 64 (w.into x.stvec.toNat % 2 ^ 55 / 4 * 4) }
    | 0x030 => { x with frbase := w.into x.frbase % 2 ^ 48 / 128 * 128 }
    | 0x038 => { x with frsize := w.into x.frsize % 2 ^ 32 / 128 * 128 }
    | _ => x)

/-- Messages that are kept go where FBRIDGE now names (R370, R458). -/
def State.flushKept (s : State) : State :=
  match s.bridgeDev with
  | none => s
  | some _ => s.hmKept.foldl (fun s w => s.hostMsg w) { s with hmKept := [] }

/-- A write to HMCTL (R370): HSIZE is judged on the value that the write carries; the counters are cleared when EN rises. (DEDUCED, log 55) -/
def State.writeHmctl (s : State) (w : CtlWrite) : State :=
  let size := bits (w.into (s.bridgeRead 0)) 8 4
  let s1 := { s with hmSize := size }
  if !w.has 0 then s1
  else if !bit w.full 0 then { s1 with hmEn := false }
  else if s.hmEn then s1
  else if 4 ≤ size && size ≤ 16 then { s1 with hmEn := true, hmWr := 0, hmRd := 0, hmLost := 0 }
  else s1
/-- The other registers of the bridge page. -/
def State.writeBridge (s : State) (off : Nat) (w : CtlWrite) : State :=
  match off with
  | 0x008 => { s with hmBase := BitVec.ofNat 64 (w.into s.hmBase.toNat) }
  | 0x018 => { s with hmRd := w.into s.hmRd }
  | _ => s

/-- A write to MECTL (R417). (DEDUCED, log 55) -/
def State.writeMectl (s : State) (w : CtlWrite) : State :=
  let size := bits (w.into (s.logRead 0)) 8 4
  let s1 := { s with meSize := size }
  if !w.has 0 then s1
  else if !bit w.full 0 then { s1 with meEn := false }
  else if s.meEn then s1
  else if 4 ≤ size && size ≤ 16 then { s1 with meEn := true, meWr := 0, meRd := 0, meLost := 0 }
  else s1
def State.writeLog (s : State) (off : Nat) (w : CtlWrite) : State :=
  match off with
  | 0x008 => { s with meBase := w.into s.meBase % 2 ^ 48 / 32 * 32 }
  | 0x018 => { s with meRd := w.into s.meRd }
  | 0x028 => { s with mece := BitVec.ofNat 64 (w.into s.mece.toNat) }
  | _ => s

/-- The join handshake with every peer begins, each pair's link state from SEQ 0 (R348, R456, R457). (DEDUCED, log 57) -/
def State.startJoins (s : State) : State :=
  { s with
    pairs := [], rxParts := []
    joins := if s.kdev = 0 then [] else ((List.range 512).filter (fun m => m != 0 && m != s.kdev)).map (fun m => (m, s.now)) }

/-- A device that was out of planes has them again: it has lost the peers that it had to do with, as R448 and R454 say, and joins each peer (R445, R456). (DEDUCED, log 105) -/
def State.returnToPod (s : State) : State :=
  let ms := (s.reqs.map (·.dst) ++ (s.txq.filter (fun p => !p.mc)).map (·.dst) ++ s.pairs.map (·.dev)).dedup
  let u := (ms.filter (fun m => m != 0 && m != s.kdev && decide (m < 512) && !s.fence.getLsbD m)).foldl State.fenceDev s
  ({ u with fabricLost := false } : State).startJoins

/-- PLANE_REJOIN (R453): failed planes are good again, with both scores 0, what it disagreed before counts no more (R445), and each is logged. (DEDUCED, log 105) -/
def State.rejoin (s : State) : State :=
  let ps := (List.range s.planes.length).filter (fun i => match s.planes[i]? with | some p => p.state == 2 | none => false)
  let u := ps.foldl (fun s i => s.logFabric 11 i)
    { s with planes := s.planes.map (fun p => if p.state == 2 then { p with state := 0, score1 := 0, score0 := 0, pdisAtHalving := p.pdis } else p) }
  if s.fabricLost && s.boot == .full then u.returnToPod else u

/-- QUIESCE ends (R453): planes rejoin, what it put off is sent, and the times of R448 go on from now. (DEDUCED, log 104) -/
def State.unquiesce (s : State) : State :=
  let u := ({ s with quiesce := false, pairs := s.pairs.map (fun p => { p with heldSince := s.now }) } : State).rejoin
  u.pairs.foldl (fun s p => if p.owing then s.replay p.dev else s) u

/-- A write to FCTL (R451, R453). -/
def State.writeFctl (s : State) (w : CtlWrite) : State :=
  let s := if w.sets 0 then { s with flink := (0, 0), fdisc := (0, 0), planes := s.planes.map (fun p => { p with pdis := 0, pdisAtHalving := 0 }) } else s
  if !w.has 1 then s
  else
    let q := bit w.full 1
    if s.quiesce && !q then s.unquiesce else { s with quiesce := q }

/-- A write to FBRIDGE (R449, R458): a change of the bridge is logged, and kept messages go to it. (DEDUCED, log 56) -/
def State.writeFbridge (s : State) (w : CtlWrite) : State :=
  if !w.has 0 then s
  else
    let v : BitVec 4 := BitVec.ofNat 4 (w.full % 16)
    let s1 := { s with fbridge := v }
    (if v != s.fbridge && v.getLsbD 3 then s1.logFabric 14 (v.toNat % 8) else s1).flushKept

/-- A write to FDEVID (R348): only by a management request, and only with no gang placed or parked. Every packet sent from then on carries the new number, packets that wait and group flits among them. Joins with every peer begin (R456, R457). (DEDUCED, log 57) -/
def State.writeFdevid (s : State) (w : CtlWrite) : State :=
  if !w.mgmt || !w.has 0 || s.gangs.any (fun g => g.state != .waiting && g.state != .done) then s
  else
    let n := w.full % 512
    ({ s.invalidateXlats .all with kdev := n, txq := s.txq.map (fun p => { p with src := n }) } : State).startJoins

/-- A write to FFSET (R449, R454). (DEDUCED, log 58) -/
def State.writeFfset (s : State) (w : CtlWrite) : State := if w.has 0 then s.fenceDev (w.full % 512) else s

/-- The join write reaches FJOIN (R457): accepted while the sender is fenced and writes its own number; anything else is discarded. -/
def State.joinBy (s : State) (src v : Nat) : Option State :=
  if s.fence.getLsbD src && v == src && src != s.kdev then some (s.liftFence src) else none

/-- A write to a register of the fabric fault page that has no row (R449): none is writable. -/
def State.writeFabric (s : State) (off : Nat) (w : CtlWrite) : State :=
  match off with
  | 0x130 => s.writeFctl w
  | 0x138 => s.writeFbridge w
  | 0x1C0 => s.writeFfset w
  | 0x1D0 => s.writeFdevid w
  | _ => s

/-- Frames written back to their ports (R285, R474); those of a port that is down stay dirty (R423). -/
def State.flushFrames (s : State) : State :=
  let s1 := s.frames.foldl (fun s f =>
    if f.dirty && !f.bad && s.portUp (s.frameLine f) then (s.frameWriteBack f).putFrame { f with dirty := false } else s) s
  { s1 with hflush := s1.frames.any (fun f => f.dirty && !f.bad) }

/-- A write to KEYCMD (R475): the slot loaded from KEYDATA (key 1 in its first 16 bytes, key 2 in the next; log 26) or cleared, and KEYDATA zeroed. -/
def State.writeKeycmd (s : State) (w : CtlWrite) : State :=
  if !w.has 0 then s
  else
    let slot := w.full % 256
    let rest := s.keys.filter (fun k => k.1 != slot)
    { s with keyData := 0, keys := if bit w.full 8 then rest ++ [(slot, s.keyData.setWidth 256)] else rest }

/-- Bytes of KEYDATA written. -/
def State.writeKeydata (s : State) (off : Nat) (w : CtlWrite) : State :=
  let i := off - 0x40
  let old := bits s.keyData.toNat (8 * i + 63) (8 * i)
  { s with keyData := BitVec.ofNat 512 (s.keyData.toNat - old * 2 ^ (8 * i) + w.into old % 2 ^ 64 * 2 ^ (8 * i)) }

/-- PLIM's limits (R474). -/
def clampPlim (v : Nat) : Nat := max 1200 (min 2400 v)
/-- The bootstrap page (R474). -/
def State.writeBoot (s : State) (off : Nat) (w : CtlWrite) : State :=
  if off = 0x008 then (if w.has 0 then { s with plim := clampPlim (w.full % 4096) } else s)
  else if off = 0x020 then s.writeKeycmd w
  else if off = 0x028 then (if w.sets 0 then { s with hflush := true }.flushFrames else s)
  else if 0x040 ≤ off && off < 0x080 then s.writeKeydata off w
  else s

/-- NOTIFY (R322, R327): a write of any value examines the queue; before full mode it is discarded (R479). -/
def State.writeNotify (s : State) (q : Nat) : State :=
  if s.boot != .full then s else { s with notified := addTo s.notified q }.examine q

/-- What a write to control space does; offsets not listed ignore it (R272). -/
def State.writeCtl (s : State) (w : CtlWrite) : State :=
  let o := w.off
  if o < 0x400000 then (if o % 4096 = 0 then s.writeNotify (o / 4096) else s)
  else if o < 0x800000 then
    (if o % 4096 = 0 then s.writeQctl ((o - 0x400000) / 4096) w else s.writeContext ((o - 0x400000) / 4096) (o % 4096) w)
  else if o < 0x801000 then (if o = 0x800000 then s.writeHmctl w else s.writeBridge (o - 0x800000) w)
  else if 0x810000 ≤ o && o < 0x811000 then (if o = 0x810000 then s.writeMectl w else s.writeLog (o - 0x810000) w)
  else if 0x820000 ≤ o && o < 0x821000 then s.writeFabric (o - 0x820000) w
  else if 0x830000 ≤ o && o < 0x831000 then s.writeBoot (o - 0x830000) w
  else s

/-- The rows of the table that a write to control space can be. -/
inductive CtlRow where
  | notify | enable | disable | errClear | hmctl | mectl | ffset | fdevid | fbridge | quiesce | clr | hflush | keyLoad | keyClear | other
  deriving DecidableEq, Repr

/-- The row of a write, as the register stands. -/
def State.rowOf (s : State) (w : CtlWrite) : CtlRow :=
  let o := w.off
  if o < 0x400000 then (if o % 4096 = 0 then .notify else .other)
  else if o < 0x800000 then
    if o % 4096 != 0 then .other
    else
      let x := s.queue ((o - 0x400000) / 4096)
      if !x.en && w.sets 0 then .enable
      else if x.en && w.has 0 && !bit w.full 0 then .disable
      else if x.err && w.sets 1 then .errClear
      else .other
  else if o = 0x800000 then (if !s.hmEn && w.sets 0 then .hmctl else .other)
  else if o = 0x810000 then (if !s.meEn && w.sets 0 then .mectl else .other)
  else if o = 0x820130 then (if w.has 1 && bit w.full 1 != s.quiesce then .quiesce else if w.sets 0 then .clr else .other)
  else if o = 0x820138 then (if w.has 0 then .fbridge else .other)
  else if o = 0x8201C0 then (if w.has 0 then .ffset else .other)
  else if o = 0x8201D0 then (if w.has 0 then .fdevid else .other)
  else if o = 0x830020 then (if !w.has 0 then .other else if bit w.full 8 then .keyLoad else .keyClear)
  else if o = 0x830028 then (if w.sets 0 then .hflush else .other)
  else .other

/-- The acknowledgement of a write: to another device its DONE, to a host its completion; a strand of this device sees that it no longer waits. -/
def State.ackWrite (s : State) (w : CtlWrite) : State :=
  if w.host != 0 then s.hostDone w.host true 0
  else if w.src != s.kdev then s.reply { s.packet 0x05 w.src 0 0 1 0 0 0 with tag := w.tag }
  else s

/-- The oldest write performed, when it is of a row; writes arrive in order (R301, R369). -/
def State.evWrite (s : State) (row : CtlRow) : Option State :=
  match s.ctlWrites with
  | [] => none
  | w :: r => if s.rowOf w == row then some (({ s with ctlWrites := r }.writeCtl w).ackWrite w) else none

/-- NOTIFY (R322, R327). -/
def execNotify (s : State) : Out := s.event (s.evWrite .notify)
/-- QUEUE_ENABLE (R325). -/
def execQueueEnable (s : State) : Out := s.event (s.evWrite .enable)
/-- QUEUE_DISABLE (R325). -/
def execQueueDisable (s : State) : Out := s.event (s.evWrite .disable)
/-- ERR_CLEAR (R325). -/
def execErrClear (s : State) : Out := s.event (s.evWrite .errClear)
/-- HMCTL_ENABLE (R370). -/
def execHmctlEnable (s : State) : Out := s.event (s.evWrite .hmctl)
/-- MECTL_ENABLE (R417). -/
def execMectlEnable (s : State) : Out := s.event (s.evWrite .mectl)
/-- FFSET (R454, R455). -/
def execFfset (s : State) : Out := s.event (s.evWrite .ffset)
/-- FDEVID (R348). -/
def execFdevid (s : State) : Out := s.event (s.evWrite .fdevid)
/-- FBRIDGE (R449, R458). -/
def execFbridge (s : State) : Out := s.event (s.evWrite .fbridge)
/-- QUIESCE (R453). -/
def execQuiesce (s : State) : Out := s.event (s.evWrite .quiesce)
/-- FCTL_CLR (R451). -/
def execFctlClr (s : State) : Out := s.event (s.evWrite .clr)
/-- KEY_LOAD (R475). -/
def execKeyLoad (s : State) : Out := s.event (s.evWrite .keyLoad)
/-- KEY_CLEAR (R475). -/
def execKeyClear (s : State) : Out := s.event (s.evWrite .keyClear)
/-- REGISTER_WRITE (R272). -/
def execRegisterWrite (s : State) : Out := s.event (s.evWrite .other)

/-- HFLUSH (R474): the write that starts it; while it runs, frames made dirty since are written back too. -/
def State.evHflush (s : State) : Option State :=
  match s.evWrite .hflush with
  | some t => some t
  | none =>
    if s.hflush && (s.frames.all (fun f => !f.dirty || f.bad) || s.frames.any (fun f => f.dirty && !f.bad && s.portUp (s.frameLine f)))
    then some s.flushFrames else none
def execHflush (s : State) : Out := s.event s.evHflush

end Sys2Proof.Machine
end

