-- ==== Sys2Proof/Machine/QueueEvents.lean ====
section
/-!
DEFINITION. The command processor's packets (R329–R336): each type's start, WAIT's polling, completion, the periodic scan, and the spawn intake.
-/
namespace Sys2Proof.Machine

/-- QUEUE_SCAN (R327): an enabled queue with a packet to read is examined. -/
def State.scan (s : State) (x : Queue) : Option State :=
  if !s.mayRead x.q then none
  else
    let t := { s with notified := addTo s.notified x.q }.examine x.q
    if t.pkts.length == s.pkts.length && (t.queue x.q).err == x.err then none else some { t with scanAt := s.now }
def State.evScan (s : State) : Option State := nth s.scan s.pick s.queues
def execQueueScan (s : State) : Out := s.event s.evScan

/-- The answer to a SPAWN (R239, R366). -/
def State.spawnReply (s : State) (p : Spawn) (status : Nat) : State :=
  if p.fromDev = 0 then s.answer ⟨p.gang, p.rank, p.reg, 0, false, BitVec.ofNat 64 status, 0, Config.cores, 0⟩
  else s.reply { s.packet 0x05 p.fromDev 0 0 1 (BitVec.ofNat 64 (status * 256)) 0 0 with tag := p.fromTag }

/-- A packet of the spawn intake examined (R336): status 1 where a check fails, else its gang joins the list. -/
def State.intake (s : State) (p : Spawn) : Option State :=
  let x := s.queue p.queue
  let dev := bits (p.dwords.getD 0 0).toNat 40 32
  let s1 := { s with spawns := s.spawns.erase p }.noteNamed p.asid p.ptbase p.dwords
  match s.checkPkt x p.asid p.ptbase true p.dwords with
  | none => none
  | some (.error _) => some (s1.spawnReply p 1)
  | some (.ok n) =>
    if !s.isHere dev then some (s1.spawnReply p 1)
    else
      let (id, s) := s1.fresh
      let k : Pkt := ⟨id, p.queue, true, p.dwords, 0, 0, n.sig, none, 0⟩
      some (({ s with pkts := s.pkts ++ [k] }.joinList (taskOf k x n p.prio p.asid p.ptbase p.stvec)).spawnReply p 0)

/-- LAUNCH (R330, R333, R336, R337): a packet whose TYPE is none of R328's fails check 1 here. -/
def State.launch (s : State) (p : Pkt) : Option State :=
  if p.fresh [2, 3, 4, 5] || p.phase != 0 then none
  else s.startPkt p (fun s x n p => some (s.joinList (taskOf p x n 7 x.asid x.ptbase x.stvec)))
def State.evLaunch (s : State) : Option State :=
  match s.spawns[s.pick % max 1 (s.spawns.length + 1)]? with
  | some p => s.intake p
  | none => match nth s.launch s.pick s.pkts with
    | some t => some t
    | none => s.spawns.head?.bind s.intake
def execLaunch (s : State) : Out := s.event s.evLaunch

/-- SIGNAL packet (R332, R334): COUNT lowered by the amount, never below 0, FAULT kept. (DEDUCED, log 62) -/
def State.signalPkt (s : State) (p : Pkt) : Option State :=
  if !p.fresh [2] then none
  else s.startPkt p (fun s _ _ p =>
    let s := s.modPkt p.id (fun p => { p with phase := 2, gang := p.unit })
    match p.target with
    | none => some s
    | some a =>
      if s.lineHeld (a.1 / 64) then none
      else
        let v := s.signalWord a
        some (s.putSignal p.unit a (v / 2 ^ 63 % 2 * 2 ^ 63 + (v % 2 ^ 63 - (p.dwords.getD 2 0).toNat))).testWaits)
def State.evSignalPkt (s : State) : Option State := nth s.signalPkt s.pick s.pkts
def execSignalPacket (s : State) : Out := s.event s.evSignalPkt

/-- WAIT packet (R334): tested when it starts. (DEDUCED, log 62) -/
def State.waitPkt (s : State) (p : Pkt) : Option State :=
  if !p.fresh [3] then none
  else s.startPkt p (fun s _ _ p => some ((s.testWait { p with phase := 1 }).getD s))
def State.evWaitPkt (s : State) : Option State := nth s.waitPkt s.pick s.pkts
def execWaitPacket (s : State) : Out := s.event s.evWaitPkt

/-- WAIT_PACKET_POLL (R334). -/
def State.evWaitPoll (s : State) : Option State := nth s.testWait s.pick s.pkts
def execWaitPacketPoll (s : State) : Out := s.event s.evWaitPoll

/-- A COPY packet's segments, at most 256 bytes each, in ascending order (R334). The first argument bounds their number. (DESIGN CHOICE, log 65) -/
def runSegs : Nat → Word → List Run → List Run → List Seg
  | 0, _, _, _ => []
  | _ + 1, _, [], _ => []
  | _ + 1, _, _, [] => []
  | f + 1, va, (a, ka, n) :: r, (b, kb, m) :: t =>
    let k := min 256 (min n m)
    if k = 0 then (if n = 0 then runSegs f va r ((b, kb, m) :: t) else runSegs f va ((a, ka, n) :: r) t)
    else ⟨.mem a ka, .mem b kb, va, k⟩ :: runSegs f (va + BitVec.ofNat 64 k) ((a + k, ka, n - k) :: r) ((b + k, kb, m - k) :: t)

/-- Translations that a COPY packet's range uses, each with its address space (R264). -/
def State.pagesOf (s : State) (asid pt va n : Nat) : List (Nat × Nat) :=
  if va = 0 || n = 0 then [] else (List.range ((va + n - 1) / 65536 + 1 - va / 65536)).map (fun i =>
    let p := va / 65536 + i
    (asid, match s.findShared asid pt (65536 * p) with | .ok x => if x.big then bigPage (65536 * p) else p | _ => p))

/-- COPY packet (R334): a transfer of the command processor's own unit. (DEDUCED, log 62) (DESIGN CHOICE, log 65) -/
def State.copyPkt (s : State) (p : Pkt) : Option State :=
  if !p.fresh [4] then none
  else s.startPkt p (fun s x n p =>
    let d := fun i => (p.dwords.getD i 0).toNat
    let segs := runSegs (d 3 + n.src.length + n.dst.length) (p.dwords.getD 2 0) n.src n.dst
    let t : Xfer := { s.newXfer 5 (d 3) 0 0 with
      gang := 0, rank := 0, segs := segs, xlats := s.pagesOf x.asid x.ptbase (d 1) (d 3) ++ s.pagesOf x.asid x.ptbase (d 2) (d 3), packet := p.id, asid := x.asid }
    some ((s.addXfer t).finishIfDone t.id))
def State.evCopyPkt (s : State) : Option State := nth s.copyPkt s.pick s.pkts
def execCopyPacket (s : State) : Out := s.event s.evCopyPkt

/-- Bytes of runs, in order, with what reading them does at their slices (R279, R285, R287). (DEDUCED, log 63) (DESIGN CHOICE, log 111) -/
def State.readRuns (s : State) (rs : List Run) (asid : Nat) : Nat × State :=
  (rs.foldr (fun r v => v * 256 ^ r.2.2 + (s.peek r.1 r.2.1 r.2.2).1) 0, rs.foldl (fun s r => s.readLines r.1 r.2.1 r.2.2 false asid) s)

/-- One group's members change (R364): its flits keep their numbers. A member that comes has nothing to acknowledge of what was sent before, one that goes answers no more; this device, where it comes, has taken nothing yet. (DEDUCED, log 27) -/
def State.commitCast (s : State) (old : State) (g : Nat) : State :=
  let a := old.castMembers g
  let b := s.castMembers g
  let come := b.filter (fun m => !a.contains m)
  let gone := a.filter (fun m => !b.contains m)
  let s := { s with pairs := s.pairs.filter (fun p =>
    !gone.any (fun m => p.dev == castAck g m) && !(come.contains s.kdev && (List.range 512).any (fun n => p.dev == castFrom g n))) }
  come.foldl (fun s m => s.putPair { Pair.fresh (castAck g m) s.now with acked := (s.pair (castPair g)).seq }) s

/-- The plane switches adopt their shadow tables (R364). -/
def State.commitCasts (s : State) : State :=
  let u := { s with casts := s.shadowCasts }
  ((s.shadowCasts.map (·.1)).foldl (fun x g => x.commitCast s g) u).pruneCasts

/-- TABLE packet (R334, R364): the group's hold counter at every slice, and its members in every plane switch's shadow table. Then the commit: every switch adopts its shadow table at the same flit boundary. It finishes when every switch has acknowledged. Nothing is sent under QUIESCE (R451). (DESIGN CHOICE, log 43) (DEDUCED, log 67) -/
def State.tablePkt (s : State) (p : Pkt) : Option State :=
  if pktType (p.dwords.getD 0 0).toNat == 5 && p.phase == 1 then
    (if !s.mayTransmit || s.pkts.any (fun q => q.phase == 4) then none
     else some { (s.modPkt p.id (fun p => { p with phase := 4 })).commitCasts with switchOut := s.switchOut ++ [.commit] })
  else if pktType (p.dwords.getD 0 0).toNat == 5 && p.phase == 4 then
    (if s.switchAcks < Config.planes then none else some { s.modPkt p.id (fun p => { p with phase := 2 }) with switchAcks := s.switchAcks - Config.planes })
  else if !p.fresh [5] then none
  else s.startPkt p (fun s x n p =>
    let d := fun i => (p.dwords.getD i 0).toNat
    let g := d 1
    let hold := if d 2 = 0 then 4096 else d 2
    let s := { s with holds := upsert (fun h => h.1 == g) (g, hold) s.holds }
    if d 3 = 0 then some (s.modPkt p.id (fun p => { p with phase := 2 }))
    else if !s.mayTransmit || n.image.any (fun r => s.rangeHeld r.1 r.2.2) then none
    else
      let (v, s) := s.readRuns n.image x.asid
      some { s with
        shadowCasts := upsert (fun c => c.1 == g) (g, BitVec.ofNat 512 v) s.shadowCasts, switchOut := s.switchOut ++ [.load g (BitVec.ofNat 512 v)] })
def State.evTablePkt (s : State) : Option State := nth s.tablePkt s.pick s.pkts
def execTablePacket (s : State) : Out := s.event s.evTablePkt

/-- An access of a gang's or a packet's work has not been performed yet (R335): a transfer, a store on its way, or a request that has not been answered. -/
def State.working (s : State) (gang : Nat) : Bool :=
  s.xfers.any (fun x => x.gang == gang) || s.invals.any (fun v => v.gang == gang) || s.ctlWrites.any (fun w => w.gang == gang)
    || s.reqs.any (fun r => r.gang == gang) || s.allCores.any (fun k => k.sb.any (fun e => e.gang == gang))

/-- PACKET_COMPLETE (R332, R335): the signal's step, then the host message; none while an access of its gang, or of its own, is still not performed. -/
def State.completePkt (s : State) (p : Pkt) : Option State :=
  if p.phase != 2 || (p.gang != 0 && s.working p.gang) then none
  else
    let hmsg := bit (p.dwords.getD 0 0).toNat 2
    let tag := bits (p.dwords.getD 0 0).toNat 31 16
    let fin := fun (s : State) (v : Nat) (va : Word) (under : Bool) =>
      let s := { s with pkts := s.pkts.filter (fun x => x.id != p.id) }
      let s := if hmsg then s.hostMsg (hostWords tag s.kdev p.queue p.status (BitVec.ofNat 64 v) va under) else s
      s.testWaits.examineAll
    match p.sig with
    | none => some (fin s 0 0 false)
    | some a =>
      if s.lineHeld (a.1 / 64) then none
      else
        let v := s.signalWord a
        let cnt := v % 2 ^ 63
        let w := (if p.status != 0 || bit v 63 then 2 ^ 63 else 0) + (cnt - 1)
        some (fin (s.putSignal 0 a w) w (p.dwords.getD 4 0) (cnt == 0))
def State.evPktComplete (s : State) : Option State := nth s.completePkt s.pick s.pkts
def execPacketComplete (s : State) : Out := s.event s.evPktComplete

end Sys2Proof.Machine
end

