-- ==== Sys2Proof/Machine/Fabric.lean ====
section
/-!
DEFINITION. Packets from other devices (R359–R366, R370, R457) and the host's requests (R348, R368, R369). A packet waits in `rx` until the row of its type performs it; packets of one source and channel are performed in the order sent, but that one held by a parked target lets later ones pass (R49, R358).
-/
namespace Sys2Proof.Machine

/-- TYPE of a WRITE or ATOMIC that has been performed and waits for its invalidations (R280, R361): 0x100 more than its own. -/
def doneTyp (typ : Nat) : Nat := 0x100 + typ

/-- The type of an arrival packet and what it becomes at its tile (R214, R216, R360): PSN counts the payload's granules, the tile's its own. -/
def Packet.arrival (p : Packet) (gang : Nat) : Arrival :=
  let d := p.d1.toNat
  let off := bits d 18 0
  let combine := p.typ == 0x13
  let start := if combine then 0 else off % 256
  { newArrival combine 0 (if combine then bits d 38 35 else 0) (if combine then 2 ^ 256 - 1 else (2 ^ p.len - 1) * 2 ^ start)
      (p.payload.toNat * 256 ^ start) (bits d 51 48 * 2 ^ (start / 64)) 0 with
    gang := gang, rank := bits d 34 19, off := off - start, last := bit d 52, absent := combine && bit d 39
    fromDev := p.src, fromTag := p.tag, asid := p.asid, unit := 1000 + p.src }

/-- A response (R361) with its STATUS, PSN and data, of ASID 0 (R359; DESIGN CHOICE, log 109). -/
def State.respond (s : State) (p : Packet) (typ len status psn data : Nat) : State :=
  s.reply { s.packet typ p.src len 0 1 (BitVec.ofNat 64 (status * 16 + psn)) data 0 with tag := p.tag }

/-- A target that a parked gang holds back (R49, R362). -/
def State.packetHeld (s : State) (p : Packet) : Bool :=
  if [0x01, 0x02, 0x03].contains p.typ then s.findTarget p 1 == .held
  else if p.typ == 0x12 || p.typ == 0x13 then
    match s.bound p.asid with
    | none => false
    | some g => s.targetOf (p.arrival g.id) == .held
  else false

/-- The packets that may be performed now, with their places in `rx`. -/
def State.ready (s : State) : List Packet → List (Nat × Nat) → List Packet
  | [], _ => []
  | p :: r, seen =>
    if 0x100 ≤ p.typ then p :: s.ready r seen
    else if seen.contains (p.src, p.vc) then s.ready r seen
    else p :: s.ready r (if s.packetHeld p then seen else (p.src, p.vc) :: seen)

/-- A packet of some types, performed: the pick-th that can be. -/
def State.evPacket (s : State) (types : List Nat) (act : State → Packet → Option State) : Option State :=
  nth (fun (p : Packet) => if types.contains p.typ then act { s with rx := s.rx.erase p } p else none) s.pick (s.ready s.rx [])

/-- The poison bits of a payload read at a place, by 64 bytes of the payload (R359). -/
def psnOf (n : Nat) (f : Nat → Nat → Bool) : Nat :=
  (List.range 4).foldl (fun m k => if 64 * k < n && f (64 * k) (min 64 (n - 64 * k)) then m + 2 ^ k else m) 0

/-- n bytes read at a place of this device for another agent: value and PSN; none while it must wait (R296). -/
def State.readFor (s : State) (p : Place) (n : Nat) (alloc : Bool) (asid : Nat) : Option (Nat × Nat × State) :=
  match p with
  | .slice pa key =>
    if s.rangeHeld pa n then none
    else some ((s.peek pa key n).1, psnOf n (fun o m => (s.peek (pa + o) key m).2.isSome), s.readLines pa key n alloc asid)
  | .peer _ _ c off =>
    let k := s.coreAt c
    some (k.padGet off n, psnOf n (fun o m => k.padPsnIn (off + o) m), s)
  | .ctl pa => some (s.ctlRead pa n, 0, s)
  | _ => none

/-- READ (R360): it allocates in L2 as the access it serves does there (R279). (DEDUCED, log 64) -/
def State.rxRead (s : State) (p : Packet) : Option State :=
  match s.findTarget p p.len with
  | .held => none
  | .status n => some (s.respond p 0x04 0 n 0 0)
  | .at t => (s.readFor t p.len p.alloc p.asid).map (fun r => r.2.2.respond p 0x04 p.len 0 r.2.1 r.1)
def State.evRead (s : State) : Option State := s.evPacket [0x01] State.rxRead
def execRead (s : State) : Out := s.event s.evRead

/-- The number under which the invalidations of a request from another device are kept. -/
def Packet.issuer (p : Packet) : Nat := 2 ^ 30 + p.src
/-- The write or atomic of a packet is performed at device scope. -/
def State.performedFor (s : State) (p : Packet) : Bool := !s.invals.any (fun v => v.gang == p.issuer && v.rank == p.tag && v.cls == 64)

/-- An earlier write of the same device is not performed yet: what that device sends after it is performed behind it (R298, R300, R301). -/
def State.behind (s : State) (p : Packet) : Bool := s.invals.any (fun v => v.gang == p.issuer && v.cls == 64)

/-- The join write at FJOIN (R457): the fence is lifted and the pair's link state starts afresh, the join's own flit being its first; otherwise it is discarded. (DEDUCED, log 59) -/
def State.rxJoin (s : State) (p : Packet) : State :=
  match s.joinBy p.src (p.payload.toNat % 2 ^ 64) with
  | some t => (t.putPair { Pair.fresh p.src s.now with accepted := (s.pair p.src).accepted }).respond p 0x05 0 0 0 0
  | none => s

/-- WRITE (R360, R361): DONE once the invalidations have come back; none while an earlier write of the same device is not performed. -/
def State.rxWrite (s : State) (p : Packet) : Option State :=
  if p.typ == doneTyp 0x02 then (if s.performedFor p then some (s.respond p 0x05 0 0 0 0) else none)
  else match s.findTarget p p.len with
  | .held => none
  | .status n => some (s.respond p 0x05 0 n 0 0)
  | .at t =>
    if s.behind p then none
    else
    let v := p.payload.toNat % 256 ^ p.len
    let bad := psnBytes (bits p.d1.toNat 51 48) p.len
    match t with
    | .slice pa key =>
      let s1 := s.writePa pa key p.len v bad (decide (64 ≤ p.len)) p.asid none p.issuer p.tag 64
      some (if s1.performedFor p then s1.respond p 0x05 0 0 0 0 else { s1 with rx := s1.rx ++ [{ p with typ := doneTyp 0x02 }] })
    | .peer _ _ c off => some ((s.modCoreAt c (fun k => k.padPut off p.len v bad)).respond p 0x05 0 0 0 0)
    | .ctl pa =>
      let (x, s) := s.ctlValue (BitVec.ofNat 64 v) (bad != 0)
      some { s with ctlWrites := s.ctlWrites ++ [(⟨pa, p.len, x, false, p.src, 0, 0, p.tag, 0, false⟩ : CtlWrite)] }
    | _ => none
def State.evWriteReq (s : State) : Option State :=
  s.evPacket [0x02, doneTyp 0x02] (fun s p => if p.isJoin then none else s.rxWrite p)
def execWrite (s : State) : Out := s.event s.evWriteReq

/-- FJOIN (R457). -/
def State.evFjoin (s : State) : Option State := s.evPacket [0x02] (fun s p => if p.isJoin then some (s.rxJoin p) else none)
def execFjoin (s : State) : Out := s.event s.evFjoin

/-- The update of an ATOMIC's fn10 (R114; log 16): the AMO's codes, and 10 to 12 for VSCA's FP sum, minimum and maximum. AMOCAS has the expected value in its low 8 bytes and the new one above (R360; DESIGN CHOICE, log 110). -/
def atomicNew (fn n old payload : Nat) : Option Nat :=
  let op := fn % 16
  let x := payload % 256 ^ n
  if op = 9 then amoNew 9 n old (payload / 2 ^ 64 % 256 ^ n) x
  else if op < 9 then amoNew op n old x 0
  else some (scaNew (op - 10) (if n = 4 then 3 else 2) n (bits fn 5 4) old x)

/-- ATOMIC (R161, R202, R360): the old value is kept with the request until its invalidations have come back. (DEDUCED, log 71) -/
def State.rxAtomic (s : State) (p : Packet) : Option State :=
  if p.typ == doneTyp 0x03 then
    (if s.performedFor p then some (s.respond p 0x06 8 0 (p.d1.toNat % 2) p.payload.toNat) else none)
  else
    let fn := bits p.d1.toNat 57 48
    let n := if bit fn 9 then 4 else 8
    match s.findTarget p n with
    | .held => none
    | .status k => some (s.respond p 0x06 0 k 0 0)
    | .at t =>
      if t.isCtl then some (s.respond p 0x06 0 2 0 0)
      else if s.placeHeld t || s.behind p then none
      else
        let u := s.amoApply t n (fun old => atomicNew fn n old p.payload.toNat) p.asid p.issuer p.tag 64
        some (if u.2.performedFor p then u.2.respond p 0x06 8 0 (b2n u.1.2) u.1.1
          else { u.2 with rx := u.2.rx ++ [{ p with typ := doneTyp 0x03, d1 := BitVec.ofNat 64 (b2n u.1.2), payload := BitVec.ofNat 2048 u.1.1 }] })
def State.evAtomic (s : State) : Option State := s.evPacket [0x03, doneTyp 0x03] State.rxAtomic
def execAtomic (s : State) : Out := s.event s.evAtomic

/-- A response answers the request of its TAG (R361); one that no request awaits is discarded. -/
def State.rxResponse (s : State) (p : Packet) : Option State :=
  match s.reqs.find? (fun r => r.tag == p.tag && r.dst == p.src) with
  | none => some s
  | some r =>
    let d := p.d1.toNat
    s.answerReq r (bits d 7 4) (if p.typ = 0x05 then 0 else bits d 3 0) p.payload.toNat d
/-- READ_DATA (R360). -/
def State.evReadData (s : State) : Option State := s.evPacket [0x04] State.rxResponse
def execReadData (s : State) : Out := s.event s.evReadData
/-- DONE (R360). -/
def State.evDone (s : State) : Option State := s.evPacket [0x05] State.rxResponse
def execDone (s : State) : Out := s.event s.evDone
/-- ATOMIC_DATA (R360). -/
def State.evAtomicData (s : State) : Option State := s.evPacket [0x06] State.rxResponse
def execAtomicData (s : State) : Out := s.event s.evAtomicData

/-- SIGNAL (R360, R361): DEC 1 completes an operation whose INCREMENT came before it. -/
def State.rxSignal (s : State) (p : Packet) : Option State :=
  let h := BitVec.ofNat 32 (p.d1.toNat % 2 ^ 32)
  some (if hDev h == s.kdev && isHandle h then
    s.applyToken ⟨if p.dec then 1 else 2, h, bits p.d1.toNat 63 32, false, if p.dec then some p.src else none, p.dec, 1000 + p.src, 0, none⟩
  else s)
def State.evSignal (s : State) : Option State := s.evPacket [0x10] State.rxSignal
def execSignal (s : State) : Out := s.event s.evSignal

/-- INCREMENT (R36, R361): it waits while pending is at its limit. -/
def State.rxIncrement (s : State) (p : Packet) : Option State :=
  let h := BitVec.ofNat 32 (p.d1.toNat % 2 ^ 32)
  if !(hDev h == s.kdev && isHandle h) then some s
  else if s.tokenFull h then none
  else some (s.modCoreAt (hCore h) (fun k => k.modToken (hSlot h) (fun t => t.incr (some p.src))))
def State.evIncrement (s : State) : Option State := s.evPacket [0x11] State.rxIncrement
def execIncrement (s : State) : Out := s.event s.evIncrement

/-- GFORWARD (R365): the owning slice reads 256 bytes through L2, allocating. (DEDUCED, log 71) -/
def State.rxGforward (s : State) (p : Packet) : Option State :=
  match s.findTarget { p with d1 := BitVec.ofNat 64 (bits p.d1.toNat 47 0) } p.len with
  | .held => none
  | .status n => some (s.respond p 0x04 0 n 0 0)
  | .at t =>
    if t.isCtl then some (s.respond p 0x04 0 2 0 0)
    else (s.readFor t p.len true p.asid).map (fun r => r.2.2.respond p 0x04 p.len 0 r.2.1 r.1)
def State.evGforward (s : State) : Option State := s.evPacket [0x14] State.rxGforward
def execGforward (s : State) : Out := s.event s.evGforward

/-- SPAWN_REQUEST (R336, R366): the queue of the same number must be enabled with the spawner's ASID; queue and priority come in dword 1 (DEDUCED, log 25). -/
def State.rxSpawn (s : State) (p : Packet) : Option State :=
  let d := p.d1.toNat
  let x := s.queue (d % 1024)
  let done := fun (st : Nat) => s.reply { s.packet 0x05 p.src 0 0 1 (BitVec.ofNat 64 (st * 256)) 0 0 with tag := p.tag }
  some (if !(x.en && x.asid == p.asid) then done 1
  else if Config.intakeMax ≤ s.intakeUsed then done 2
  else
    let ws := (List.range 8).map (fun i => BitVec.ofNat 64 (p.payload.toNat / 2 ^ (64 * i)))
    { s with spawns := s.spawns ++ [⟨ws, 0, 0, 0, p.asid, d % 1024, bits d 18 16, x.ptbase, x.stvec, p.src, p.tag⟩] })
def State.evSpawnReq (s : State) : Option State := s.evPacket [0x15] State.rxSpawn
def execSpawnRequest (s : State) : Out := s.event s.evSpawnReq

/-- HOSTMSG (R370): the bridge takes the message, or writes one that it has held as soon as the ring has room; a device that is no bridge drops it and counts it. (DEDUCED, log 72) -/
def State.rxHostmsg (s : State) (p : Packet) : Option State :=
  some (if s.isBridge then s.bridgeTake (p.payload.setWidth 256) else { s with hmLost := s.hmLost + 1 })
def State.evHostmsg (s : State) : Option State :=
  match s.hmKept with
  | w :: r => if s.isBridge && s.ringRoom then some ({ s with hmKept := r }.ringPut w) else s.evPacket [0x17] State.rxHostmsg
  | [] => s.evPacket [0x17] State.rxHostmsg
def execHostmsg (s : State) : Out := s.event s.evHostmsg

/-- What of a device waits in a core's overrun queue for a tile, and for a contribution for its slot, is taken back and answered (R214, R395, R438). (DEDUCED, log 97) -/
def State.takeBack (s : State) (c : Nat) (a : Arrival) (status : Nat) : State :=
  let gone := (s.coreAt c).overrun.filter (fun b => b.fromDev == a.fromDev && b.gang == a.gang && b.rank == a.rank && b.off / 256 == a.off / 256
    && b.combine == a.combine && (!a.combine || (b.slot == a.slot && !b.absent)))
  gone.foldl (fun s b => s.arrivalDone b status) (s.modCoreAt c (fun k => { k with overrun := k.overrun.filter (fun b => !gone.contains b) }))

/-- A FILL or COMBINE from another device reaches its tile (R214, R216, R362); an empty FILL without a last beat ends its sender's fill (DEDUCED, log 24), and an absent COMBINE takes the place of one that waits. -/
def State.rxArrival (s : State) (p : Packet) : Option State :=
  match s.bound p.asid with
  | none => some (s.respond p 0x05 0 1 0 0)
  | some g =>
    let a := p.arrival g.id
    if g.size ≤ a.rank || g.task.spad < a.off + 256 then some (s.respond p 0x05 0 2 0 0)
    else if !a.combine && p.len = 0 && !a.last then
      (match s.targetOf a with
       | .held => none
       | .lost => some (s.respond p 0x05 0 1 0 0)
       | .tile c i =>
         let s := s.takeBack c a 3
         let s := if ((s.coreAt c).tile i).owner == some a.source then
             (s.modCoreAt c (fun k => k.modTile i (fun t => { t with owner := none }))).letIn c i Config.overrunMax
           else s
         some (s.respond p 0x05 0 0 0 0))
    else if a.absent then
      (match s.targetOf a with
       | .tile c _ => (s.takeBack c a 0).arriveAt a
       | _ => s.arriveAt a)
    else s.arriveAt a

/-- The arrivals of a list that may reach their tiles next: from each unit to each core in the order sent (R14, R363), but that one held back by its target lets later ones pass (R49). -/
def State.landable (s : State) (l : List Arrival) : List Arrival :=
  l.filter (fun a => s.targetOf a != .held && s.foremost a.unit (((s.strand? a.gang a.rank).map (·.1)).getD Config.cores) a.seq)
/-- FILL (R214). -/
def State.evFill (s : State) : Option State :=
  match nth (fun a => { s with fills := s.fills.erase a }.arriveAt a) s.pick (s.landable s.fills) with
  | some t => some t
  | none => s.evPacket [0x12] State.rxArrival
def execFill (s : State) : Out := s.event s.evFill
/-- COMBINE (R216). -/
def State.evCombine (s : State) : Option State :=
  match nth (fun a => { s with combines := s.combines.erase a }.arriveAt a) s.pick (s.landable s.combines) with
  | some t => some t
  | none => s.evPacket [0x13] State.rxArrival
def execCombine (s : State) : Out := s.event s.evCombine

/-- The join write to a peer (R457). -/
def State.joinPacket (s : State) (dev : Nat) : Packet := s.packet 0x02 dev 8 0 0 (BitVec.ofNat 64 (ctlBase + 0x8201C8)) s.kdev 0
/-- JOIN_RESEND (R457): the join write to a peer that has not answered, at first and then every 10 µs, under one tag: the flit that is still kept (R356), or a new one. (DEDUCED, log 57) -/
def State.sendJoin (s : State) (j : Nat × Nat) : Option State :=
  let u := { s with joins := mapIf (fun x => x.1 == j.1) (fun x => (x.1, s.now)) s.joins }
  if s.kdev == 0 || s.boot != .full then none
  else match s.reqs.find? (fun r => r.dst == j.1 && r.kind == ReqKind.join) with
  | none => some (u.sendReq (u.joinPacket j.1) 0 0 .join)
  | some r =>
    if s.now - j.2 < cyclesUs 10 then none
    else if s.txq.any (fun p => p.dst == j.1 && p.isJoin) then some u
    else if !(s.pair j.1).goBack.isEmpty then some (u.replay j.1)
    else some { u with txq := u.txq ++ [{ u.joinPacket j.1 with tag := r.tag }] }
def State.evJoin (s : State) : Option State := nth s.sendJoin s.pick s.joins
def execJoinResend (s : State) : Out := s.event s.evJoin

/-- The service ports are up (R471). -/
def State.hostReachable (s : State) : Bool := s.boot != .powerGood && s.boot != .off
/-- A host request is the oldest of its service port (R369). (DEDUCED, log 73) -/
def State.firstOfPort (s : State) (r : HostReq) : Bool := match s.hostReqs.find? (fun q => q.svc == r.svc) with | some q => q == r | none => false
/-- A host request goes on: what is left is its completion. -/
def State.hostStarted (s : State) (r : HostReq) : State :=
  { s with hostReqs := mapIf (fun (q : HostReq) => q.id == r.id) (fun q => { q with started := true }) s.hostReqs }

/-- The bytes that a host atomic updates, by its fn10 (R114, R367). (DEDUCED, log 95) -/
def atomicBytes (fn : Nat) : Nat := if bit fn 9 then 4 else 8
/-- A host atomic performed whole at this device's flat HBM (R360, R367): the old value waits for its invalidations; poison gives the error response. (DEDUCED, log 95) -/
def State.hostAtomic (s : State) (r : HostReq) (fn pa : Nat) : Option State :=
  if pa % atomicBytes fn != 0 then some (s.hostDone r.id false 0)
  else if s.lineHeld (pa / 64) then none
  else
    let u := s.amoApply (.slice pa 0) (atomicBytes fn) (fun old => atomicNew fn (atomicBytes fn) old r.data.toNat) 0 0 r.id 32
    some (if u.1.2 then u.2.hostDone r.id false 0
      else { u.2 with hostReqs := mapIf (fun (q : HostReq) => q.id == r.id) (fun q => { q with started := true, data := BitVec.ofNat 2048 u.1.1 }) u.2.hostReqs })

/-- A host request performed at this device (R348, R368): flat HBM or control space, where no atomic is (R272). -/
def State.hostHere (s : State) (r : HostReq) (pa : Nat) (mgmt : Bool) : Option State :=
  let bad := some (s.hostDone r.id false 0)
  if ctlBase ≤ pa then
    if !((r.len = 4 || r.len = 8) && pa % r.len = 0) || r.atomic.isSome then bad
    else if r.write then
      some ({ s with ctlWrites := s.ctlWrites ++ [(⟨pa, r.len, r.data.setWidth 64, mgmt, s.kdev, 0, 0, 0, r.id, false⟩ : CtlWrite)] }.hostStarted r)
    else some (s.hostDone r.id true (BitVec.ofNat 2048 (s.ctlRead pa r.len)))
  else if mgmt || !(s.inFlat pa && s.inFlat (pa + r.len - 1)) then bad
  else match r.atomic with
  | some fn => s.hostAtomic r fn pa
  | none =>
  if r.write then
    some ((s.writePa pa 0 r.len (r.data.toNat % 256 ^ r.len) 0 (decide (64 ≤ r.len)) 0 none 0 r.id 32).hostStarted r)
  else (s.readFor (.slice pa 0) r.len false 0).map (fun x =>
    x.2.2.hostDone r.id (x.2.1 == 0) (if x.2.1 = 0 then BitVec.ofNat 2048 x.1 else 0))

/-- HOST_REQUEST (R368, R369): the bridge performs the oldest of each port at its member, the next one only after it; an atomic goes as ATOMIC (R367; DEDUCED, log 95). -/
def State.hostStep (s : State) (r : HostReq) : Option State :=
  let a := r.addr.toNat
  let m := s.kdev / 8 * 8 + bits a 50 48
  let pa := bits a 47 0
  let bad := some (s.hostDone r.id false 0)
  if bit a 51 || !s.firstOfPort r || !s.hostReachable then none
  else if r.started then
    -- a write of flat HBM is done once its invalidations have come back
    (if pa < ctlBase && m = s.kdev && !s.invals.any (fun v => v.gang == 0 && v.rank == r.id && v.cls == 32) then some (s.hostDone r.id true (if r.atomic.isSome then r.data else 0)) else none)
  else if !s.isBridge || s.boot != .full || bits a 63 52 != 0 || r.len = 0 || 256 < r.len then bad
  else if capBase ≤ pa && pa < ctlBase then bad
  else if m = s.kdev then s.hostHere r pa false
  else if m = 0 || s.fenced m then bad
  else if s.tagsFree m = 0 then none
  else
    let pk := match r.atomic with
      | some fn => s.packet 0x03 m (if fn % 16 = 9 then 16 else 8) 0 0 (BitVec.ofNat 64 (pa + fn % 1024 * 2 ^ 48)) r.data.toNat 0
      | none => if r.write then s.packet 0x02 m r.len 0 0 (BitVec.ofNat 64 pa) (r.data.toNat % 256 ^ r.len) 0
      else s.packet 0x01 m r.len 0 0 (BitVec.ofNat 64 pa) 0 0
    some ((s.sendReq pk 0 0 (.host r.id)).hostStarted r)
def State.evHostReq (s : State) : Option State := nth s.hostStep s.pick s.hostReqs
def execHostRequest (s : State) : Out := s.event s.evHostReq

/-- MANAGEMENT_REQUEST (R348, R471): this device's own control space; outside full mode, only the bootstrap page through SVC1. -/
def State.mgmtStep (s : State) (r : HostReq) : Option State :=
  let a := r.addr.toNat
  let pa := bits a 47 0
  let open_ := s.boot == .full || (r.svc == 1 && decide (ctlBase + 0x830000 ≤ pa) && decide (pa < ctlBase + 0x831000))
  if !bit a 51 || !s.firstOfPort r || r.started || !s.hostReachable then none
  else if !open_ || pa < ctlBase then some (s.hostDone r.id false 0)
  else s.hostHere r pa true
def State.evMgmt (s : State) : Option State := nth s.mgmtStep s.pick s.hostReqs
def execManagementRequest (s : State) : Out := s.event s.evMgmt

end Sys2Proof.Machine
end

