-- ==== Sys2Proof/Machine/Errors.lean ====
section
/-!
DEFINITION. Errors in holders of state (R409–R412, R415, R416, R421), the patrol (R410), and the capacity ports' links (R423). The model's environment names what is struck in `errors`.
-/
namespace Sys2Proof.Machine

/-- Log of an uncorrectable error (R418, kind 1), charged to the address space whose read finds it. -/
def State.logFound (s : State) (asid key holder d1 : Nat) : State := s.logErr asid key holder 1 d1

/-- A strand struck. -/
def State.hit (s : State) (gang rank : Nat) (f : Strand → Strand) : State := s.modStrand gang rank f

/-- Every element of a poison vector between two, set. -/
def setPsn {n w : Nat} (l : Vector (BitVec w) n) (i : Nat) (ks : List Nat) : Vector (BitVec w) n :=
  l.mapIdx (fun j x => if j = i then ks.foldl (fun x k => putBit x k true) x else x)
/-- The eight lane slots, or cells, of the 64-byte granule that holds one of them (R78, R415). The layout inside a part is the device's own. (DEDUCED, log 96) -/
def granuleOf (k : Nat) : List Nat := (List.range 8).map (fun i => k / 8 * 8 + i)

/-- A granule of a saved context struck, at an offset of its image (R415, R418): in the cellar it is logged, holder 2; the larder's errors have no holder number there. In neither of them, nothing is struck. -/
def State.hitImage (s : State) (gang rank : Nat) (off : Strand → Nat) (f : Strand → Strand) : State :=
  match s.strand? gang rank with
  | none => s
  | some (c, t) =>
    if t.image.bytes ≤ off t then s
    else match s.imageAddr c t (off t) with
    | some a => (s.modStrand gang rank f).logFound 0xFFFF 0 2 (s.podPa a)
    | none => if t.image.larder && decide (off t < 2048) then s.modStrand gang rank f else s
/-- A granule of the image without which its strand cannot resume: a header's or a mask's (R415). -/
def Strand.loseImage (t : Strand) (off : Nat) : Strand := { t with image := { t.image with bad := some (t.image.bad.getD off) } }
/-- A granule of a live part (R415). -/
def State.hitPart (s : State) (gang rank part k : Nat) (f : Strand → Strand) : State :=
  match s.strand? gang rank with
  | none => s
  | some (_, t) =>
    if t.live.getLsbD part && decide (k / 8 * 64 < t.partSize part) then s.hitImage gang rank (fun t => t.partAt part + k / 8 * 64) f else s

/-- L2 loses a line (R409, R416): a clean copy is dropped and read again, a dirty one poisoned; both copies of a tag lost is a device loss. (DEDUCED, log 29) -/
def State.hitL2 (s : State) (line asid : Nat) : State :=
  match s.l2At line with
  | none => s
  | some l =>
    if !l.dirty then (s.dropL2 l false).countErr 1
    else { s with l2 := mapIf (fun (x : L2Line) => x.line == line) (fun x => { x with psn := true }) s.l2 }.logFound asid l.key 1 (s.podPa (64 * line))

/-- DIRTY_LINE_LOST (R416): written back poisoned, charged to its last writer. -/
def State.hitEvict (s : State) (line : Nat) : State :=
  match s.l2At line with
  | none => s
  | some l =>
    if !l.dirty then s
    else ((s.dropL2 { l with psn := true } true).logErr l.writer l.key 1 2 (s.podPa (64 * line))).lostLine l.writer line

/-- A frame's tag or state lost (R421): its contents are never written back. -/
def State.hitFrameTag (s : State) (slice idx : Nat) : State :=
  let s1 := match s.frames.find? (fun f => f.slice == slice && f.idx == idx) with
    | none => s.putFrame ⟨slice, idx, 0, false, 0, true, 0⟩
    | some f =>
      let old := s.frameLine f
      let s := s.putFrame { f with bad := true, dirty := false }
      if f.bad || (s.l2At old).isSome then s else { s with mem := writeNat s.mem (64 * old) 64 0, memPsn := delFrom s.memPsn old }
  s1.logErr 0xFFFF 0 5 3 (slice * 2 ^ 32 + idx)

/-- A frame's data lost (R421): a clean frame's line is read again from its port, and where L2 holds it too only the frame takes what the port gives. -/
def State.hitFrameData (s : State) (slice idx asid : Nat) : State :=
  match s.frames.find? (fun f => f.slice == slice && f.idx == idx) with
  | none => s
  | some f =>
    let line := s.frameLine f
    if f.bad then s
    else if f.dirty then { s with memPsn := addTo s.memPsn line }.logFound asid f.key 5 (s.podPa (64 * line))
    else if (s.l2At line).isSome then { s.portReadNote line f.key asid with memPsn := setIn s.memPsn line (s.portPeek line f.key).2 }.countErr 0
    else ((s.frameDrop f false).readLine line f.key false asid).countErr 0

/-- A token-table entry struck (R412): a strand that waits on it becomes Runnable at its AWAIT. (DEDUCED, log 41) -/
def State.hitToken (s : State) (c slot : Nat) : State :=
  let s1 := s.modCoreAt c (fun k => k.modToken slot (fun t => { t with bad := true }))
  if ((s.coreAt c).token? slot).isNone then s
  else s1.modCoreAt c (fun k =>
    let f := fun (t : Strand) => match t.wait with
      | .token i _ => if i == slot then t.cancelWait s.now else t
      | _ => t
    { k with st := f k.st, rest := k.rest.map f })

/-- A tile tag struck (R412): FULL 1, ARMED 0, PSN 0b1111, the held contributions gone. -/
def State.hitTag (s : State) (c tile : Nat) : State :=
  (s.modCoreAt c (fun k =>
    let k := k.modTile tile (fun t => { t with full := true, armed := false, op := 0, cnt0 := 0, cnt := 0, slots := [] })
    { k with padPsn := (List.range 4).foldl (fun l g => addTo l (4 * tile + g)) k.padPsn })).wakeTile c tile

/-- A porch entry struck (R412): released by a fill whose granules are all poisoned. What the poisoned bytes hold is left open (DESIGN CHOICE, log 8). -/
def State.hitPorch (s : State) (i : Nat) : State :=
  match s.porch[i]? with
  | none => s
  | some p =>
    if p.released then s
    else
      let (v, s) := s.choose (2 ^ 2048)
      let s := (List.range (p.len / 256)).foldl (fun s t => s.fillMembers p.members p.group p.slice (p.off + 256 * t) v 15) s
      { s with porch := s.porch.map (fun q => if q == p then { q with released := true, expiry := s.now + s.holdOf p.group } else q) }

/-- A device loss (R409): the device leaves the pod and stops (DEDUCED, log 29). -/
def State.lose (s : State) : State := { s with fabricLost := true, boot := .failed }

/-- The fate of what an uncorrectable error strikes (R409, R411, R412). The capacity tier's is found by a read of its port (R287), the line buffer's by the next AMO (R419). -/
def State.strike (s : State) (e : ErrorAt) : State :=
  match e with
  | .hbm ch a asid =>
    let pa := hbmPa ch a
    if !s.inFlat pa || s.dead.contains (pa / 4096) then s
    else { s with memPsn := addTo s.memPsn (pa / 64) }.logFound asid 0 0 (s.podPa (pa / 64 * 64))
  | .l2Data line asid => s.hitL2 line asid
  | .l2Tag _ both => if both then s.lose else s.countErr 1
  | .scratch c bank row asid =>
    (match (s.coreAt c).offsetAt bank row with
     | none => s
     | some o => (s.modCoreAt c (fun k => { k with padPsn := addTo k.padPsn (o / 64) })).logPad asid)
  | .imageHeader g r => s.hitImage g r (fun _ => 0) (fun t => t.loseImage 0)
  | .imageMask g r m k => s.hitPart g r (32 + m) k (fun t => t.loseImage (t.partAt (32 + m) + k / 8 * 64))
  | .imageVec g r v k => s.hitPart g r v k (fun t => { t with vpsn := setPsn t.vpsn v (granuleOf k) })
  | .imageAcc g r a k => s.hitPart g r (40 + a) k (fun t => { t with accPsn := setPsn t.accPsn a (granuleOf k) })
  | .front g r v k => s.hit g r (fun t => { t with vpsn := setPsn t.vpsn v [k] })
  | .cell g r a k => s.hit g r (fun t => { t with accPsn := setPsn t.accPsn a [k] })
  | .storeBuffer c i => s.modCoreAt c (fun k => { k with sb := k.sb.mapIdx (fun j e => if j = i then { e with psn := true } else e) })
  | .l1Data c line => (s.modCoreAt c (fun k => { k with l1 := k.l1.filter (fun l => l.line != line) })).countErr 2
  | .l1Instr c line => (s.modCoreAt c (fun k => { k with icache := k.icache.filter (fun l => l.line != line) })).countErr 2
  | .tlb c i => (s.modCoreAt c (fun k => { k with tlb := k.tlb.eraseIdx i })).countErr 2
  | .hubTlb h i => (if h = 0 then { s with hub0 := s.hub0.eraseIdx i } else { s with hub1 := s.hub1.eraseIdx i }).countErr 2
  | .reg g r n => s.hit g r (fun t => match t.marks[n]? with | some .pending => t | some (.queued _) => t | _ => t.setMark n .poisoned)
  | .mask g r m => s.hit g r (fun t => { t with badMasks := putBit t.badMasks m true })
  | .kreg g r k =>
    if kOfGang k then s.modGang g (fun x => { x with badK := addTo x.badK k })
    else if kOfCore k then (match s.strand? g r with | some (c, _) => s.modCoreAt c (fun x => { x with badK := addTo x.badK k }) | none => s)
    else if kOfDevice k then { s with badK := addTo s.badK k }
    else s.hit g r (fun t => { t with badK := addTo t.badK k })
  | .token c i => s.hitToken c i
  | .tag c i => s.hitTag c i
  | .porch i => s.hitPorch i
  | .frameTag sl i => s.hitFrameTag sl i
  | .frameData sl i asid => s.hitFrameData sl i asid
  | .capacity pa => if s.inCap pa then { s with portPsn := addTo s.portPsn (s.devLine (pa / 64)) } else s
  | .evictLine line => s.hitEvict line
  | .lineBuffer => s

/-- UNCORRECTABLE_ERROR (R409). -/
def State.evError (s : State) : Option State :=
  match takeNth (fun (e : ErrorAt) => e != .lineBuffer) s.errors s.pick with
  | none => none
  | some (e, r) => some ({ s with errors := r }.strike e)
def execUncorrectableError (s : State) : Out := s.event s.evError

/-- What the patrol reads: live lines of HBM and of the frames (R410). -/
def State.patrolled (s : State) (e : ErrorAt) : Bool :=
  match e with
  | .hbm ch a _ => s.inFlat (hbmPa ch a) && !s.dead.contains (hbmPa ch a / 4096)
  | .frameData _ _ _ => true
  | .frameTag _ _ => true
  | _ => false
/-- PATROL_READ (R410): a line that cannot be corrected is poisoned and logged; a corrected one is written back as it was, and counted. -/
def State.evPatrol (s : State) : Option State :=
  match takeNth s.patrolled s.errors s.pick with
  | none => none
  | some (e, r) => some ({ s with errors := r }.strike e)
def execPatrolRead (s : State) : Out := s.event s.evPatrol

/-- CORRECTABLE_ERROR (R410): one of MECE's four counts rises; nothing else shows. -/
def execCorrectableError (s : State) : Out := .next (s.countErr (s.pick % 4))

/-- The populated ports. -/
def State.modPort (s : State) (i : Nat) (p : Port) : State := { s with ports := s.ports.set i p }
/-- A port event on the pick-th populated port for which it is ready. -/
def State.portEvent (s : State) (f : Nat → Port → Option State) : Option State :=
  nth (fun i => (s.ports[i]?).bind (f i)) s.pick (List.range s.portsW)
/-- 100 ms (R423). -/
def portLimit : Nat := cyclesUs 100000

/-- CAPACITY_LINK_LOSS (R423): the port retrains. (DEDUCED, log 68) -/
def State.evLinkLoss (s : State) : Option State :=
  s.portEvent (fun i p => if p.up && !p.down then some (s.modPort i { p with up := false, lostAt := some s.now }) else none)
def execCapacityLinkLoss (s : State) : Out := s.event s.evLinkLoss

/-- CAPACITY_LINK_RETRAINED (R423): the error is counted, the port was never down. -/
def State.evRetrained (s : State) : Option State :=
  s.portEvent (fun i p => if !p.up && !p.down then some ((s.modPort i Port.fresh).countErr 3) else none)
def execCapacityLinkRetrained (s : State) : Out := s.event s.evRetrained

/-- CAPACITY_PORT_DOWN (R423). -/
def State.evPortDown (s : State) : Option State :=
  s.portEvent (fun i p => match p.lostAt with
    | some t => if !p.down && decide (portLimit ≤ s.now - t) then some ((s.modPort i { p with down := true }).logErr 0xFFFF 0 3 7 i) else none
    | none => none)
def execCapacityPortDown (s : State) : Out := s.event s.evPortDown

/-- CAPACITY_PORT_RESTORED (R423). -/
def State.evPortBack (s : State) : Option State :=
  s.portEvent (fun i p => if p.down then some ((s.modPort i Port.fresh).logErr 0xFFFF 0 3 8 i) else none)
def execCapacityPortRestored (s : State) : Out := s.event s.evPortBack

end Sys2Proof.Machine
end

