-- ==== Sys2Proof/Machine/Boot.lean ====
section
/-!
DEFINITION. Bring-up (R471–R473), operating points (R476), power and thermal limits (R477, R478), power loss (R285). The record that the firmware signature covers stands in `record`; package power and die temperature are the environment's (DESIGN CHOICE, log 8).
-/
namespace Sys2Proof.Machine

/-- MEASUREMENT_EXTEND (R473): M := SM3(M ‖ digest), the digest appended to the log. -/
def State.extend (s : State) (digest : BitVec 256) : State :=
  { s with measure := sm3 64 (s.measure.toNat * 2 ^ 256 + digest.toNat), mlog := s.mlog ++ [digest] }

/-- The number whose bytes, most significant first, are the n bytes of a value, least significant first (R3). -/
def leBytes (n v : Nat) : Nat := (List.range n).foldl (fun r i => r * 256 + v / 256 ^ i % 256) 0

/-- SM3 of the firmware image and the configuration record (R472). The spec gives the record no layout: version (8 bytes), Q (1), CS (2) and W (1), in this order. (DESIGN CHOICE, log 5) -/
def BootRecord.digest (r : BootRecord) : BitVec 256 :=
  sm3 (r.imageLen + 12) ((((r.image % 256 ^ r.imageLen * 256 ^ 8 + leBytes 8 r.version) * 256 + leBytes 1 r.q) * 256 ^ 2 + leBytes 2 r.cs) * 256 + leBytes 1 r.w)
/-- SM3 of the firmware image (R473). (DESIGN CHOICE, log 5) -/
def BootRecord.imageDigest (r : BootRecord) : BitVec 256 := sm3 r.imageLen (r.image % 256 ^ r.imageLen)
/-- The signature checks against a public key: its key pair made it, over this digest (R472). SM2's own equations are not modelled. (DESIGN CHOICE, log 5) -/
def BootRecord.signedBy (r : BootRecord) (key : BitVec 512) : Bool := r.sigKey == key && r.sigDigest == r.digest

/-- The controller stays in seedling mode, failed (R472, R474). -/
def State.failBoot (s : State) (why : Nat) : State := { s with boot := .failed, stage := 3, fail := why }

/-- POWER_GOOD (R472, R473): M zeroed, the firmware's signature and version checked, seedling mode. -/
def State.evPowerGood (s : State) : Option State :=
  if s.boot != .powerGood && s.boot != .off then none
  else
    let s := { s with measure := 0, mlog := [] }
    let r := s.record
    some (if !r.signedBy s.vendorKey then s.failBoot 1
    else if r.version < s.fuseVersion then s.failBoot 2
    else ({ s with fuseVersion := r.version, boot := .seedling, stage := 1, fail := 0 }.extend r.imageDigest).extend (Config.stageDigest 0))
def execPowerGood (s : State) : Out := s.event s.evPowerGood

/-- A record that names a mode, a cellar size and ports that exist (R283, R286, R293). (DEDUCED, log 70) -/
def BootRecord.valid (r : BootRecord) : Bool := decide (r.q ≤ 4) && [64, 128, 192, 256].contains r.cs && [1, 2, 4, 8].contains r.w

/-- CONFIGURATION (R471): HBM mode, cellar size and populated ports. (DEDUCED, log 70) -/
def State.evConfigure (s : State) : Option State :=
  if s.boot != .seedling || !s.record.valid then none
  else some ({ s with boot := .configured, hbmQ := s.record.q, cellarKiB := s.record.cs, portsW := s.record.w }.extend (Config.stageDigest 1))
def execConfiguration (s : State) : Out := s.event s.evConfigure

/-- MEMORY_TRAINING (R471, R474): frames invalid, dead bits clear; FAIL 3 where the HBM does not train. -/
def State.evTrain (s : State) : Option State :=
  if s.boot != .configured then none
  else some (if !s.record.trains then s.failBoot 3
    else { s with boot := .trained, frames := [], dead := [] }.extend (Config.stageDigest 2))
def execMemoryTraining (s : State) : Out := s.event s.evTrain

/-- FULL_MODE (R471): the cores are released, the planes joined with KDEV 0, the command processor and SVC0 started. -/
def State.evFull (s : State) : Option State :=
  if s.boot != .trained then none
  else some ({ s with boot := .full, stage := 2, kdev := 0, coresFrom := s.now }.extend (Config.stageDigest 3))
def execFullMode (s : State) : Out := s.event s.evFull

/-- QUOTE (R473): the signature over SM3(M ‖ nonce ‖ KDEV), KDEV as two bytes, the low one first (R3). (PRESUMED, log 9) -/
def State.evQuote (s : State) : Option State :=
  if s.boot == .powerGood || s.boot == .off then none
  else match s.nonces with
  | [] => none
  | n :: r => some { s with
      nonces := r
      quotes := s.quotes ++ [Config.sm2Sign (sm3 66 ((s.measure.toNat * 2 ^ 256 + n.toNat) * 2 ^ 16 + leBytes 2 s.kdev))] }
def execQuote (s : State) : Out := s.event s.evQuote

/-- A core one point up or down the curve of R476, never past its ends: 420 to 620 mV. -/
def Core.move (k : Core) (up : Bool) : Core :=
  let mv := if up then min 620 (k.mv + 10) else max 420 (k.mv - 10)
  { k with mv := mv, mhz := 15 * mv / 2 - 750 }

/-- OPERATING_POINT_MOVE (R345, R476, R477): an up move is withheld while up moves are blocked. -/
def State.evMove (s : State) : Option State :=
  match s.opMoves with
  | [] => none
  | (c, up) :: r =>
    let s1 := { s with opMoves := r }
    some (if up && s.noUp then s1 else s1.modCoreAt c (fun k => k.move up))
def execOperatingPointMove (s : State) : Out := s.event s.evMove

/-- Cores on which some gang balances, earliest arrival first (R345, R477). -/
def State.balancing (s : State) : List Nat :=
  (s.gangs.filter (fun g => g.state == .placed && decide (2 ≤ g.task.c))).flatMap (fun g =>
    let own := g.cores.filter (fun c => (s.coreAt c).residents.all (fun t => t.gang == g.id))
    g.coreOrder.filter (own.contains ·) ++ own.filter (fun c => !g.coreOrder.contains c))

/-- Power and temperature are monitored: from when the firmware has been verified (R471, R472). -/
def State.monitored (s : State) : Bool := s.boot != .powerGood && s.boot != .off && !(s.boot == .failed && decide (s.fail < 3))
/-- Withheld returns to 0.50 V, made once no up move is withheld (R345, R477). -/
def State.returnHome (s : State) : State :=
  if s.noUp then s else (s.allCores.filter (·.homing)).foldl (fun s k => s.modCoreAt k.id (fun k => s.goHome k)) s

/-- POWER_WINDOW (R477): a new average of the package power; above PLIM the balancing cores move one point down, and the others too where those cannot close the gap. Only cores that have been released have a clock to move (R471). -/
def State.evPower (s : State) : Option State :=
  if !s.monitored then none
  else
    let (p, s) := s.choose 4096
    let s := { s with pwr := p }
    some (if s.plim < p then if s.boot != .full then { s with upBlocked := true } else
      let b := s.balancing
      let (more, s) := s.choose 2
      let others := if b.isEmpty || more = 1 then (List.range Config.cores).filter (fun c => !b.contains c) else []
      { (b ++ others).foldl (fun s c => s.modCoreAt c (fun k => k.move false)) s with upBlocked := true }
    else (if p + 50 < s.plim then { s with upBlocked := false } else s).returnHome)
def execPowerWindow (s : State) : Out := s.event s.evPower

/-- THERMAL_THROTTLE (R478): a new reading of the hottest sensor; from 95 °C until 90 °C every core moves one point down, and again every 100 µs. -/
def State.evThrottle (s : State) : Option State :=
  if !s.monitored then none
  else
    let due := !s.hot || decide (s.throttledAt + cyclesUs 100 ≤ s.now)
    let (t, s) := s.choose 256
    let hot := decide (95 ≤ t) || (s.hot && decide (90 < t))
    let s := { s with tmax := t, hot := hot }
    some (if !hot then s.returnHome
    else if due && s.boot == .full then (List.range Config.cores).foldl (fun s c => s.modCoreAt c (fun k => k.move false)) { s with throttledAt := s.now }
    else s)
def execThermalThrottle (s : State) : Out := s.event s.evThrottle

/-- What power keeps (R285, R471): the fuses, the record, the capacity devices; and what is outside the device. -/
def State.unpowered (s : State) : State :=
  { State.reset with
    now := s.now, agenda := s.agenda, pick := s.pick, choices := s.choices, freeCtr := s.freeCtr, nextId := s.nextId
    port := s.port, portPsn := s.portPsn, stale := s.stale, record := s.record, fuseVersion := s.fuseVersion, vendorKey := s.vendorKey
    hostMem := s.hostMem, hostOut := s.hostOut, nonces := s.nonces, quotes := s.quotes, errors := s.errors }

/-- THERMAL_TRIP (R478): the core rail is removed, and the device stays in seedling mode, failed, until the next power-good; what the management controller holds stays, and the requests that wait at the service ports are answered from seedling mode. -/
def State.evTrip (s : State) : Option State :=
  if s.tmax < 110 || !s.monitored || s.fail == 4 then none
  else
    let u := s.unpowered
    some ({ u with
      measure := s.measure, mlog := s.mlog, plim := s.plim, pwr := s.pwr, tmax := s.tmax, kdev := s.kdev
      hostReqs := s.hostReqs.map (fun (r : HostReq) => { r with started := false }), upBlocked := s.upBlocked, hot := s.hot
      hbmQ := s.hbmQ, cellarKiB := s.cellarKiB, portsW := s.portsW }.failBoot 4)
def execThermalTrip (s : State) : Out := s.event s.evTrip

/-- POWER_LOSS (R285): dirty frames are lost; the stamps stay on the capacity devices. -/
def execPowerLoss (s : State) : Out := .next { s.unpowered with boot := .off }

end Sys2Proof.Machine
end

