-- ==== Sys2Proof/Machine/Fetch.lean ====
section
/-!
DEFINITION. What fetching does besides giving the word (R276, R279, R280, R404), and the two rows that trap before any instruction: ILLEGAL_ENCODING (R402) and FETCH_FAULT (R403).
-/
namespace Sys2Proof.Machine

/-- A line fetched into the instruction cache on a miss, its presence bit set (R280, R404). R279 has no row for an instruction fetch that misses in L2: the model allocates a line, as for a scalar load. (DESIGN CHOICE, log 84) (DESIGN CHOICE, log 39) -/
def State.missCode (s : State) (pa key : Nat) : State :=
  let ln := pa / 64 + 2 ^ 48 * key
  if s.l1Fills.any (fun f => f.core == s.core.id && f.instr && f.line == ln) then s
  else
    let s1 := s.readLine (pa / 64) key true s.asid
    { s1 with
      l2 := mapIf (fun (l : L2Line) => l.line == pa / 64) (fun l => { l with present := true }) s1.l2
      l1Fills := s1.l1Fills ++ [⟨s.core.id, true, ln, BitVec.ofNat 512 (s.peek (pa / 64 * 64) key 64).1⟩] }

/-- A word used: its translation, and the cache line on a miss. -/
def State.useCode (s : State) (x : Xlat) (pa key : Nat) (miss : Bool) : State :=
  let s1 := s.useXlat x
  if miss then s1.missCode pa key else s1

/-- The word at pc on another device's page is asked for once (R275, R361); at its slice it allocates like any fetch. (DESIGN CHOICE, log 84) -/
def State.askCode (s : State) (dev pa key : Nat) : State :=
  let t := s.core.st
  if t.codeAsked == some t.pc || s.tagsFree dev = 0 then s
  else (s.sendRead (.farMem dev pa key) 4 true t.gang t.rank (.fetch t.pc)).modSt (fun t => { t with codeAsked := some t.pc })

/-- A strand of the core in turn may commit an instruction now (R32, R46, R471): it holds the slot, waits for nothing, and holds no copy at issue that is not accepted (R231). -/
def State.canIssue (s : State) : Bool :=
  s.boot == .full && s.core.phase == .run && s.core.st.status == .running && s.core.st.wait == .none && s.core.st.vq.isNone

/-- What a fetch that traps has done (R276, R279): its lookup, and the read of the granule whose poison it has met (R285, R287, R422, R424). -/
def State.faultCode (s : State) (cause : BitVec 8) : State :=
  let pc : Word := s.core.st.pc.setWidth 64
  let u := s.walkFault pc
  match s.xlate pc 4 with
  | .at (.slice pa key) _ => if cause = 0x09 then u.readLine (pa / 64) key true s.asid else u
  | _ => u

/-- FETCH_FAULT (R403): a trap at pc with group 0 and KEVAL the pc, once every older instruction has completed (R390). -/
def execFetchFault (s : State) : Out :=
  if !s.canIssue || !s.core.st.drained then .next s
  else match s.fetch with
  | .fault c g => .next ((s.faultCode c).trapAt c (s.core.st.pc.setWidth 64) 0 0 g)
  | _ => .next s

/-- ILLEGAL_ENCODING (R402): a word that selects no instruction traps with cause 0x01 or 0x02, once every older one has completed (R390). -/
def execIllegalEncoding (s : State) : Out :=
  if !s.canIssue || !s.core.st.drained then .next s
  else match s.fetch with
  | .word w _ _ _ _ =>
    (match decodeWord w with
     | .illegal c => .next (s.trap c 0 0)
     | .instr _ => .next s)
  | _ => .next s

end Sys2Proof.Machine
end

