-- ==== Sys2Proof/Machine/Sched.lean ====
section
/-!
DEFINITION. The scheduler: placing gangs (R30, R31, R333, R337, R338, R481), pre-emption (R49, R341, R342), re-placement (R50, R343) and grant reduction (R344, R440).
-/
namespace Sys2Proof.Machine

/-- Scratchpad regions of a core in which allotments may lie (R291): base and size. `empty` says that its layout is formed anew. -/
def Core.regions (k : Core) (grant : Nat) (empty : Bool) : List (Nat × Nat) :=
  if empty then [(0, banks grant * 4096)]
  else
    let b := banks k.layout * 4096
    if grant < k.layout then [(0, b), (b, 2 * (2 ^ k.layout - 2 ^ grant) * 4096)] else [(0, b)]

/-- The lowest place for an allotment beside those in use, whole within one region (R291). -/
def fitOne (regions used : List (Nat × Nat)) (n : Nat) : Option Nat :=
  if n = 0 then some 0
  else
    let cands := regions.map (·.1) ++ used.map (fun u => u.1 + u.2)
    let ok := cands.filter (fun o =>
      regions.any (fun r => decide (r.1 ≤ o) && decide (o + n ≤ r.1 + r.2))
        && used.all (fun u => u.2 == 0 || decide (o + n ≤ u.1) || decide (u.1 + u.2 ≤ o)))
    match ok with
    | [] => none
    | o :: r => some (r.foldl min o)
/-- Allotments of several strands, one after another. -/
def fitMany (regions : List (Nat × Nat)) (n : Nat) : Nat → List (Nat × Nat) → Option (List Nat)
  | 0, _ => some []
  | k + 1, used => match fitOne regions used n with
    | none => none
    | some o => (fitMany regions n k (used ++ [(o, n)])).map (fun l => o :: l)

/-- Allotments in use on a core. -/
def Core.used (k : Core) : List (Nat × Nat) := k.residents.map (fun t => (t.allotBase, t.allotSize))
/-- Free strand places, lowest first (R481). -/
def Core.freePlaces (k : Core) : List Nat := (List.range Config.places).filter (fun p => !k.residents.any (fun t => t.place == p))
/-- The core has grant 2^g, or no residents (R29, R338). -/
def Core.hasGrant (k : Core) (g : Nat) : Bool := k.residents.isEmpty || k.grant == g

/-- A core meets R30 for S strands of SPAD bytes at grant 2^g: places, allotments, and, for a new gang, cellar extents. -/
def State.meets (s : State) (k : Core) (n spad g : Nat) (extents : Bool) : Bool :=
  decide (n ≤ k.freePlaces.length) && (fitMany (k.regions g k.residents.isEmpty) spad n k.used).isSome
    && (!extents || decide (512 * n ≤ s.cellarLeft k))

/-- The lowest 128-byte aligned block of a queue's fault-record pool that is free (R333). -/
def State.recordBlock (s : State) (t : Task) : Option Nat :=
  let x := s.queue t.queue
  let n := 128 * t.c * t.s
  let used := (s.gangs.filter (fun g => g.task.queue == t.queue && g.state != .waiting)).map (fun g => (g.block, 128 * g.size))
  fitOne [(x.frbase, x.frsize)] used n

/-- A gang of another gang's priority or above comes first; within a priority, the one that joined first (R337). -/
def Gang.before (a b : Gang) : Bool := decide (b.task.prio < a.task.prio) || (a.task.prio == b.task.prio && decide (a.joined ≤ b.joined))
/-- The waiting gang that the scheduler considers (R337). -/
def State.nextGang (s : State) : Option Gang :=
  (s.gangs.filter (fun g => s.waiting.contains g.id)).foldl (fun b g => match b with
    | none => some g
    | some x => if x.before g then some x else some g) none

/-- Cores on which a new gang can be placed at grant 2^g: the C qualifying ones of lowest number (R338). -/
def State.coresFor (s : State) (t : Task) (g : Nat) : Option (List Nat) :=
  let l := ((List.range Config.cores).filter (fun c =>
    let k := s.coreAt c
    k.hasGrant g && s.meets k t.s t.spad g true)).take t.c
  if l.length = t.c then some l else none
/-- Grants from 2^GRP down to 2^GMIN (R338). -/
def State.firstGrant (s : State) (t : Task) : Nat → Option (Nat × List Nat)
  | 0 => none
  | f + 1 =>
    let g := t.gmin + f
    match s.coresFor t g with
    | some l => some (g, l)
    | none => s.firstGrant t f

/-- Where a waiting gang can go now: a new one by R338 and its record block; a parked one on its own cores at its own grant (R343). -/
def State.placement (s : State) (g : Gang) : Option (Nat × List Nat) :=
  if g.state == .parked then
    if g.cores.all (fun c => let k := s.coreAt c; k.hasGrant g.grant && s.meets k g.task.s g.task.spad g.grant false) then some (g.grant, g.cores) else none
  else if (s.recordBlock g.task).isNone then none
  else s.firstGrant g.task (g.task.grp + 1 - g.task.gmin)

/-- A core without residents takes a grant and forms its banks anew (R29, R291). -/
def Core.take (k : Core) (g : Nat) : Core := if k.residents.isEmpty then { k with grant := g, layout := g, reduceTo := none } else k

/-- An allotment as it is given out: every byte zero, every tile empty and unarmed (R31). -/
def Core.clearPad (k : Core) (base n : Nat) : Core :=
  { k with
    pad := writeNat k.pad base n 0
    padPsn := k.padPsn.filter (fun q => !(decide (base / 64 ≤ q) && decide (q < (base + n) / 64)))
    tiles := k.tiles.filter (fun t => !(decide (base ≤ 256 * t.idx) && decide (256 * t.idx < base + n))) }

/-- A newly placed strand (R31), with its extent (R45) and without an image: its first start costs 12 cycles (R46; DESIGN CHOICE, log 106). -/
def Strand.placed (g : Gang) (rank place base extent grant now : Nat) : Strand :=
  { Strand.empty with
    status := .runnable, gang := g.id, rank := rank, place := place, pc := g.task.code
    regs := ((Strand.empty.regs.set 4 g.task.arg).set 5 (BitVec.ofNat 64 rank)).set 6 (BitVec.ofNat 64 g.size)
    allotBase := base, allotSize := g.task.spad, extent := extent, grant := grant, readyAt := now, agedAt := now }

/-- A gang's strands put on one core (R29, R31, R481). -/
def State.placeOn (s : State) (g : Gang) (grant idx c : Nat) : State :=
  let k := (s.coreAt c).take grant
  let places := k.freePlaces
  let exts := s.freeExtents k
  let bases := (fitMany (k.regions grant k.residents.isEmpty) g.task.spad g.task.s k.used).getD []
  let sts := (List.range g.task.s).map (fun j => Strand.placed g (idx * g.task.s + j) (places.getD j 0) (bases.getD j 0) (exts.getD j 0) grant s.now)
  let k := sts.foldl (fun (k : Core) t => k.clearPad t.allotBase t.allotSize) k
  s.putCore { k with rest := k.rest ++ sts }

/-- The lowest id that no live gang holds (R481). -/
def State.freeId (s : State) : Nat := ((List.range 65535).map (· + 1)).find? (fun i => !s.gangs.any (fun g => g.id == i)) |>.getD 0

/-- A new gang placed whole (R27, R31, R333, R338), under its queue's supervisor context as it stands now; a spawned gang under its spawner's (R239). It is bound where no other gang of its KASID is (R362). -/
def State.placeNew (s : State) (g : Gang) (grant : Nat) (cores : List Nat) : State :=
  match s.recordBlock g.task with
  | none => s
  | some rec =>
    let id := s.freeId
    let x := s.queue g.task.queue
    let stvec := if g.task.spawned then g.task.stvec else x.stvec
    let p := { g with
      id := id, state := .placed, grant := grant, cores := cores, placedAt := s.now, kutvec := 0
      kstvec := stvec, homeStvec := stvec, kasid := if g.task.spawned then g.task.asid else x.asid
      kptbase := if g.task.spawned then g.task.ptbase else x.ptbase, kfrec := rec, block := rec }
    let s := { s with
      gangs := s.gangs.filter (fun (x : Gang) => x.id != g.id) ++ [p], waiting := s.waiting.filter (· != g.id)
      pkts := mapIf (fun (x : Pkt) => x.id == g.task.pkt) (fun x => { x with phase := 1, gang := id }) s.pkts }
    (((cores.zip (List.range cores.length)).foldl (fun s x => s.placeOn p grant x.2 x.1) s).rebind p.kasid).examineAll

/-- A tile number moved with its allotment. -/
def moveTile (i old new : Nat) : Nat := i - old / 256 + new / 256
/-- A strand's wait moved with its allotment. -/
def Wait.move (w : Wait) (old new : Nat) : Wait := match w with | .tile i => .tile (moveTile i old new) | w => w

/-- The image of n bytes that is left of one saved outside the larder: the extent and the first of its KiB (R43, R45). (DESIGN CHOICE, log 93) -/
def Image.cutTo (i : Image) (n : Nat) : Image :=
  if n = 0 then Image.none
  else
    let k := ceilDiv (n - 512) 1024
    { i with bytes := n, ext := min n 512, kib := i.kib.take k, saveKiB := k - (i.kib.take k).length }

/-- A parked strand back on its core at its gang's grant (R33, R50, R344). The allotment and the tile tags have left its image: what is left is the image of R43, and the rest of the room is free. (DESIGN CHOICE, log 93) -/
def Strand.back (t : Strand) (place base grant now : Nat) : Strand :=
  let t := { t with
    status := t.held, held := .none, place := place, allotBase := base, grant := grant, wait := t.wait.move 0 base
    padSaved := [], padPsnSaved := [], tilesSaved := [], image := t.image.cutTo { t with status := t.held }.imageBytes }
  if t.status == .runnable then { t with readyAt := now, agedAt := now, boost := 0 } else t

/-- A parked gang's strands re-placed on one core, in the order of their ranks, with their allotments and tile tags (R50, R481). -/
def State.backOn (s : State) (g : Gang) (c : Nat) : State :=
  let k := (s.coreAt c).take g.grant
  let mine := (List.range g.size).filterMap (fun r => k.rest.find? (fun t => t.gang == g.id && t.away && t.rank == r))
  let places := k.freePlaces
  let bases := (fitMany (k.regions g.grant k.residents.isEmpty) g.task.spad mine.length k.used).getD []
  let k := (mine.zip (List.range mine.length)).foldl (fun (k : Core) x =>
    let t := x.1
    let b := bases.getD x.2 0
    let k := k.clearPad b t.allotSize
    { k with
      pad := t.padSaved.foldl (fun m e => writeNat m (b + e.1) 1 e.2.toNat) k.pad
      padPsn := t.padPsnSaved.foldl (fun l q => addTo l (b / 64 + q)) k.padPsn
      tiles := k.tiles ++ t.tilesSaved.map (fun y => { y with idx := y.idx + b / 256 })
      rest := k.rest.map (fun y => if y.same t then t.back (places.getD x.2 0) b g.grant s.now else y) }) k
  s.putCore k

/-- GANG_REPLACE's work (R50). The time of its placement stays that of the first (R341; DESIGN CHOICE, log 108). -/
def State.placeBack (s : State) (g : Gang) : State :=
  let s := { s.modGang g.id (fun g => { g with state := .placed }) with waiting := s.waiting.filter (· != g.id) }
  g.cores.foldl (fun s c => s.backOn g c) s

/-- The gang that is considered is placed, if it can be (R337). -/
def State.placeNext (s : State) (parked : Bool) : Option State :=
  match s.nextGang with
  | none => none
  | some g =>
    if (g.state == .parked) != parked then none
    else match s.placement g with
    | none => none
    | some (grant, cores) => some (if parked then s.placeBack g else s.placeNew g grant cores)

/-- GANG_PLACE (R337, R338). -/
def execGangPlace (s : State) : Out := s.event (s.placeNext false)
/-- GANG_REPLACE (R50, R343). -/
def execGangReplace (s : State) : Out := s.event (s.placeNext true)

/-- Bytes of a strand's whole state as pre-emption saves it: its registers, or the image of its suspension, with its allotment and tile tags (R49, R333, R342). (DEDUCED, log 53) -/
def Strand.parkBytes (t : Strand) : Nat := (if t.ended then 512 else t.imageBytes) + t.allotSize + t.allotSize / 32

/-- A strand as it is when its gang parks it: a Running one becomes Runnable, and one that waits in place keeps its wait as well (R33, R45, R49); a pending grant violation is dropped (R440). (DEDUCED, log 52) -/
def Strand.toPark (t : Strand) (now : Nat) : Strand :=
  let t := { t with deferred := t.deferred.filter (fun d => d.cause != 0x12), code := none, codeAsked := none }
  if t.inPlace then { t with status := .runnable, boost := 0, readyAt := now, agedAt := now }
  else if t.status == .running then { t.rotated now with saving := false }
  else t

/-- One strand's state saved: its extent, then the core's cellar area, then its part of the save area (R342 step 4). (DESIGN CHOICE, log 51) (DEDUCED, log 53) -/
def State.parkStrand (s : State) (g : Gang) (k : Core) (t : Strand) : Option Core :=
  let k0 := { k with rest := k.rest.map (fun y => if y.same t then { y with image := Image.none } else y) }
  let n := t.parkBytes
  let need := ceilDiv (n - 512) 1024
  let kib := (s.freeKiB k0).take need
  let left := need - kib.length
  if left != 0 && !(g.task.save != 0 && decide (1024 * left ≤ roundUp g.task.partBytes 1024)) then none
  else
    let inside := fun (i : Nat) => decide (t.allotBase ≤ 256 * i) && decide (256 * i < t.allotBase + t.allotSize)
    let p := { t with
      status := if t.ended then t.status else .parked, held := if t.status == .running then .runnable else t.status
      image := ⟨n, false, min n 512, kib, left, t.image.bad⟩, wait := t.wait.move t.allotBase 0
      padSaved := (k0.pad.filter (fun e => decide (t.allotBase ≤ e.1) && decide (e.1 < t.allotBase + t.allotSize))).map (fun e => (e.1 - t.allotBase, e.2))
      padPsnSaved := (k0.padPsn.filter (fun q => decide (t.allotBase / 64 ≤ q) && decide (q < (t.allotBase + t.allotSize) / 64))).map (· - t.allotBase / 64)
      tilesSaved := (k0.tiles.filter (fun y => inside y.idx)).map (fun y => { y with idx := y.idx - t.allotBase / 256 }) }
    some { (k0.clearPad t.allotBase t.allotSize) with rest := k0.rest.map (fun y => if y.same t then p else y) }

/-- The strand in a core's slot moved out of it when it belongs to a gang that is being parked (R342 step 2). -/
def State.stopSlot (s : State) (g : Gang) (k : Core) : Core :=
  if k.st.gang == g.id && k.st.status != .none then
    { k with rest := k.rest ++ [k.st.toPark s.now], st := Strand.empty, phase := .idle, freeFrom := if k.phase == .run then s.now else k.freeFrom }
  else k

/-- A gang parked on one core: none where its state does not fit (R341, R342). -/
def State.parkOn (s : State) (g : Gang) (c : Nat) : Option State :=
  let k := s.stopSlot g (s.coreAt c)
  let mine := (k.rest.filter (fun t => t.gang == g.id)).map (fun t => t.toPark s.now)
  let k := { k with rest := k.rest.map (fun t => if t.gang == g.id then t.toPark s.now else t) }
  match mine.foldl (fun (o : Option Core) t => o.bind (fun k => if t.ended then some k else s.parkStrand g k t)) (some k) with
  | none => none
  | some k =>
    -- exited and stopped strands keep no registers, but their allotments are saved like the others (R49, R240)
    let ex := mine.filter Strand.ended
    (ex.foldl (fun (o : Option Core) t => o.bind (fun k => s.parkStrand g k t)) (some k)).map (fun k =>
      let back := k.overrun.filter (fun a => a.gang == g.id)
      let s := { s with opMoves := s.opMoves.filter (fun m => m.1 != c) }
      let s := s.putCore (s.goHome (Core.refillLarder Config.larderSlots { k with overrun := k.overrun.filter (fun a => a.gang != g.id) }))
      -- what waits in the overrun queue is held back with its sender (R49)
      { s with fills := s.fills ++ back.filter (fun a => !a.combine), combines := s.combines ++ back.filter (fun a => a.combine) })

/-- The whole gang parked (R342 steps 4 and 5). -/
def State.parkGang (s : State) (g : Gang) : Option State :=
  (g.cores.foldl (fun (o : Option State) c => o.bind (fun s => s.parkOn g c)) (some s)).map (fun s =>
    { s.modGang g.id (fun g => { g with state := .parked }) with waiting := s.waiting ++ [g.id] })

/-- A resident gang may be the victim of a newcomer (R341). -/
def State.mayEvict (s : State) (new v : Gang) : Bool :=
  v.state == .placed && decide (v.task.prio < new.task.prio) && !s.gangDone v && (match s.parkGang v with
    | some t => (t.placement new).isSome
    | none => false)
/-- The victim: of lowest priority, then placed last (R341). -/
def State.victim (s : State) (new : Gang) : Option Gang :=
  (s.gangs.filter (s.mayEvict new)).foldl (fun b g => match b with
    | none => some g
    | some x => if g.task.prio < x.task.prio || (g.task.prio == x.task.prio && x.placedAt ≤ g.placedAt) then some g else some x) none

/-- Gangs with residents on a core. -/
def Core.gangsOn (k : Core) : List Nat := (k.residents.map (·.gang)).dedup
/-- The gangs that share a core with a member, closed (R344). -/
def State.closure (s : State) : Nat → List Nat → List Nat
  | 0, l => l
  | f + 1, l =>
    let more := (l.flatMap (fun g => match s.gang? g with | some x => x.cores.flatMap (fun c => (s.coreAt c).gangsOn) | none => [])).filter (fun g => !l.contains g)
    if more.isEmpty then l else s.closure f (l ++ more.dedup)
def State.setOf (s : State) (c : Nat) : List Nat := s.closure s.gangs.length (s.coreAt c).gangsOn

/-- Every member of a reduction set may be asked (R344, R440). -/
def State.mayReduce (s : State) (new : Gang) (g : Nat) (l : List Nat) : Bool :=
  l.all (fun i => match s.gang? i with
    | some v => v.state == .placed && decide (v.task.prio < new.task.prio) && decide (g < v.grant) && decide (v.task.gmin ≤ g)
    | none => false)

/-- A reduction to 2^g that would let the newcomer be placed (R344): its gangs and their cores. (DEDUCED, log 54) -/
def State.reductionTo (s : State) (new : Gang) (g : Nat) : Option Reduction :=
  let t := new.task
  let l := ((List.range Config.cores).filter (fun c =>
    let k := s.coreAt c
    if k.hasGrant g then s.meets k t.s t.spad g true
    else s.mayReduce new g (s.setOf c) && s.meets k t.s t.spad g true)).take t.c
  if l.length != t.c then none
  else
    let gs := ((l.filter (fun c => !(s.coreAt c).hasGrant g)).flatMap s.setOf).dedup
    let cs := (gs.flatMap (fun i => match s.gang? i with | some v => v.cores | none => [])).dedup
    if gs.isEmpty then none else some ⟨g, cs, gs, s.now, false⟩
/-- The reduction for a newcomer: of the grants from the one given down, the first that serves (R344). (DEDUCED, log 54) -/
def State.findReduction (s : State) (new : Gang) : Nat → Option Reduction
  | 0 => none
  | f + 1 => match s.reductionTo new (new.task.gmin + f) with
    | some r => some r
    | none => s.findReduction new f

/-- Neither a reduction nor a pre-emption is under way. -/
def State.schedIdle (s : State) : Bool := s.reductions.isEmpty && !s.gangs.any (fun g => g.state == .parking)

/-- A reduction for the gang that is considered and cannot be placed (R344); a parked gang waits for its own grant (R343). -/
def State.wantReduction (s : State) : Option Reduction :=
  match s.nextGang with
  | none => none
  | some g =>
    if !s.schedIdle || g.state == .parked || (s.placement g).isSome || (s.recordBlock g.task).isNone then none
    else s.findReduction g (g.task.grp + 1 - g.task.gmin)

/-- A core completes a reduction once no resident strand keeps a larger grant (R344 step 3). -/
def Core.tryReduce (k : Core) : Option Core :=
  match k.reduceTo with
  | none => none
  | some g => if k.residents.all (fun t => t.status == .exited || decide (t.grant ≤ g)) then some { k with grant := g, reduceTo := none } else none

/-- GRANT_REDUCTION (R344): a core completes, a set completes and the newcomer is placed, or a reduction is marked. -/
def State.evReduction (s : State) : Option State :=
  match s.allCores.findSome? Core.tryReduce with
  | some k => some (s.putCore k)
  | none =>
    match s.reductions.find? (fun r => r.cores.all (fun c => (s.coreAt c).reduceTo.isNone)) with
    | some r =>
      let t := { s with reductions := s.reductions.erase r, gangs := mapIf (fun (g : Gang) => r.gangs.contains g.id && g.state == GangState.placed) (fun g => { g with grant := r.grant }) s.gangs }
      some ((t.placeNext false).getD t)
    | none => match s.wantReduction with
      | some r => some (r.cores.foldl (fun s c => s.modCoreAt c (fun k => { k with reduceTo := some r.grant })) { s with reductions := s.reductions ++ [r] })
      | none => none
def execGrantReduction (s : State) : Out := s.event s.evReduction

/-- A strand has not applied a reduction of its core (R440). -/
def Core.laggards (k : Core) : List Strand :=
  match k.reduceTo with
  | none => []
  | some g => k.residents.filter (fun t => t.status != .exited && decide (g < t.grant))

/-- GRANT_REDUCTION_TIMEOUT (R344, R440): laggards' gangs are pre-empted; where their state would not fit, the laggards get deferred cause 0x12. -/
def State.timeoutOne (s : State) (r : Reduction) : Option State :=
  if r.late || decide (s.now < r.since + 262144) then none
  else
    let s := { s with reductions := s.reductions.map (fun x => if x == r then { x with late := true } else x) }
    some (r.gangs.foldl (fun s i =>
      match s.gang? i with
      | none => s
      | some g =>
        let late := g.cores.flatMap (fun c => ((s.coreAt c).laggards.filter (fun t => t.gang == i)).map (fun t => t.rank))
        if late.isEmpty || g.state != .placed then s
        else if (s.parkGang g).isSome then s.modGang i (fun g => { g with state := .parking })
        else late.foldl (fun s k => s.modStrand i k (fun t => t.defer 0x12 0)) s) s)
def State.evReductionTimeout (s : State) : Option State := nth s.timeoutOne s.pick s.reductions
def execGrantReductionTimeout (s : State) : Out := s.event s.evReductionTimeout

/-- A core's slot holds a strand of a gang that is being parked and can stop at a group boundary (R342 step 2, R439). -/
def State.stopParking (s : State) (k : Core) : Option State :=
  match s.gang? k.st.gang with
  | none => none
  | some g =>
    if k.st.status == .none || g.state != .parking || k.st.inGroup || !k.st.out.isEmpty then none
    else some (s.putCore (s.stopSlot g k))

/-- PREEMPT (R341, R342): a victim is marked parking and its Running strands are stopped. -/
def State.evPreempt (s : State) : Option State :=
  match nth s.stopParking s.pick s.allCores with
  | some t => some t
  | none => match s.nextGang with
    | none => none
    | some new =>
      if !s.schedIdle || (s.placement new).isSome || s.wantReduction.isSome then none
      else match s.victim new with
      | none => none
      | some v =>
        let s := s.modGang v.id (fun g => { g with state := .parking })
        some (v.cores.foldl (fun s c => (s.stopParking (s.coreAt c)).getD s) s)
def execPreempt (s : State) : Out := s.event s.evPreempt

/-- A victim's cores may save it (R342 step 3): no strand in a slot or on its way out of one, no store of its own to its scratchpads still buffered (R303), no tile owned by a fill, no own transfer into its allotments. -/
def State.maySave (s : State) (g : Gang) : Bool :=
  g.cores.all (fun c =>
    let k := s.coreAt c
    !(k.st.gang == g.id && k.st.status != .none) && !k.rest.any (fun t => t.gang == g.id && t.saving)
      && !k.sb.any (fun e => e.kind == 2 && e.gang == g.id)
      && k.tiles.all (fun t => t.owner.isNone || !(k.residents.any (fun x => x.gang == g.id && decide (x.allotBase ≤ 256 * t.idx) && decide (256 * t.idx < x.allotBase + x.allotSize)))))
    && !s.xfers.any (fun x => x.gang == g.id && x.kind != 4 && (x.kind == 2
      || x.segs.any (fun y => match y.dst with | .pad gi _ _ => gi == g.id | _ => false)
      || s.fills.any (fun a => a.xfer == x.id && a.fromDev == 0 && a.gang == g.id)
      || s.retries.any (fun a => a.xfer == x.id && a.toDev == 0 && a.gang == g.id)
      || g.cores.any (fun c => (s.coreAt c).overrun.any (fun a => a.xfer == x.id && a.fromDev == 0 && a.gang == g.id))))

/-- The strands of a gang whose state has partly gone to the save area. -/
def State.spilled (s : State) (g : Gang) : List Strand :=
  g.cores.flatMap (fun c => (s.coreAt c).rest.filter (fun t => t.gang == g.id && t.image.saveKiB != 0))

/-- PREEMPT_SAVE (R342 steps 3 to 6): a gang that is over completes instead (R346). Where the frames of its save area do not cover what a strand saves, its gang is contained (R441); with those that SAVE translated to when the packet started (R330) they always do. (DESIGN CHOICE, log 51) -/
def State.saveOne (s : State) (g : Gang) : Option State :=
  if g.state != .parking || s.gangDone g || s.contains.any (fun c => c.gang == g.id) || !s.maySave g then none
  else match s.parkGang g with
  | none => none
  | some t =>
    let out := t.spilled g
    match out.find? (fun x => !x.ended && s.saveRuns x (1024 * x.image.saveKiB) == none) with
    | some x => some { s with contains := s.contains ++ [⟨g.id, x.rank, 0x15, 0, x.stopGroup, x.stopDepth, none⟩] }
    | none =>
      let t := out.foldl (fun t x => t.spill x x.image.saveKiB) t
      some (if t.reductions.isEmpty then (t.placeNext false).getD t else t)
def State.evPreemptSave (s : State) : Option State := nth s.saveOne s.pick s.gangs
def execPreemptSave (s : State) : Out := s.event s.evPreemptSave

end Sys2Proof.Machine
end

