-- ==== Sys2Proof/Machine/Policy.lean ====
section
/-!
DEFINITION. What happens next when the agenda is empty (DESIGN CHOICE, log 7): by turns a strand that holds an issue slot and the first event of a fixed order that finds something to do.
-/
namespace Sys2Proof.Machine

/-- The oldest write to control space, whatever its row. -/
def State.evAnyWrite (s : State) : Option State := s.ctlWrites.head?.bind (fun w => s.evWrite (s.rowOf w))

/-- A poll that ends its WAIT; one that does not is left to the agenda (R334). -/
def State.evPollEnds (s : State) : Option State := nth (fun p => if (s.testWait p).any (fun t => t.pkts == s.pkts) then none else s.testWait p) 0 s.pkts

/-- The events in the order of the policy. What the environment brings about (errors, links, power, heat) is never chosen. (DESIGN CHOICE, log 7) -/
def policy : List (State → Option State) :=
  [fun s => if s.boot == .powerGood then s.evPowerGood else none, State.evConfigure, State.evTrain, State.evFull,
    State.evL1Fill, State.evInvalAck, State.evPageWalk, State.evReply, State.evToken, State.evStoreSend,
    State.evFillEnd, State.evFill, State.evCombine, State.evRetry, State.evCopyAccept, State.evCopyComplete,
    State.evPorch, State.evHold, State.evReleased, State.evGroupAck,
    State.evAnyWrite, State.evHflush, State.evQuote,
    State.evRead, State.evWriteReq, State.evFjoin, State.evAtomic, State.evReadData, State.evDone, State.evAtomicData,
    State.evSignal, State.evIncrement, State.evGforward, State.evSpawnReq, State.evHostmsg,
    State.evFlit, State.evAckTimer, State.evReplayLimit, State.evHalving, State.evJoin, State.evHostReq, State.evMgmt,
    State.evContain, State.evGangComplete,
    State.evScan, State.evLaunch, State.evSignalPkt, State.evWaitPkt, State.evPollEnds, State.evCopyPkt, State.evTablePkt, State.evPktComplete,
    State.evPreemptSave, fun s => s.placeNext true, fun s => s.placeNext false, State.evReduction, State.evReductionTimeout, State.evPreempt,
    fun s => nth s.cancelDeferred 0 s.strands,
    State.evSaveEnd, State.evRestoreEnd, State.evAgeing, State.evRollback, State.evRotation, State.evMove, State.evPortDown]

/-- Cores whose slot's strand may commit. -/
def State.issuers (s : State) : List Nat :=
  (s.allCores.filter (fun k => k.phase == .run && k.st.status == .running && k.st.wait == .none && k.st.vq.isNone)).map (·.id)

/-- What the policy does: an event's outcome, or the core that runs. -/
inductive Auto where
  | event (s : State) | core (c : Nat) | idle
  deriving DecidableEq, Repr

/-- The policy's first event that finds something to do. -/
def State.autoEvent (s : State) : Option State := policy.findSome? (fun f => f { s with pick := 0 })

/-- Strands and events take turns, by the parity of the clock, and the order in which the strands come shifts from round to round, so that none holds another up. (DESIGN CHOICE, log 7) -/
def State.auto (s : State) : Auto :=
  match s.issuers with
  | [] => match s.autoEvent with
    | some t => .event t
    | none => .idle
  | c :: r =>
    let n := s.now / 2
    let core := (c :: r).getD ((n + n / (c :: r).length) % (c :: r).length) c
    if s.now % 2 = 1 then .core core
    else match s.autoEvent with
    | some t => .event t
    | none => .core core

end Sys2Proof.Machine
end

