-- ==== Sys2Proof/Machine/Branch.lean ====
section
/-!
DEFINITION. Branches and jumps (R150–R153).
-/
namespace Sys2Proof.Machine

/-- The target of a pc-relative transfer, in words from its own address (R105). -/
def relTarget (pc : Pc) (off : Word) : Pc := pc + (off <<< 2).setWidth 55

/-- A compare-and-branch (R150). -/
def State.branch (s : State) (a b : BitVec 5) (o : BitVec 12) (c : Word → Word → Bool) : Out :=
  s.given (s.chkRegs [a, b])
    (.next (if c (s.reg a) (s.reg b) then s.jump (relTarget s.core.st.pc (o.signExtend 64)) else s.finish))

/-- BEQ (R150). -/
def execBeq (a b : BitVec 5) (o : BitVec 12) (s : State) : Out := s.branch a b o (fun x y => x == y)
/-- BNE (R150). -/
def execBne (a b : BitVec 5) (o : BitVec 12) (s : State) : Out := s.branch a b o (fun x y => x != y)
/-- BLT (R150). -/
def execBlt (a b : BitVec 5) (o : BitVec 12) (s : State) : Out := s.branch a b o (fun x y => x.slt y)
/-- BGE (R150). -/
def execBge (a b : BitVec 5) (o : BitVec 12) (s : State) : Out := s.branch a b o (fun x y => !x.slt y)
/-- BLTN (R150). -/
def execBltn (a b : BitVec 5) (o : BitVec 12) (s : State) : Out := s.branch a b o (fun x y => x.ult y)
/-- BGEN (R150). -/
def execBgen (a b : BitVec 5) (o : BitVec 12) (s : State) : Out := s.branch a b o (fun x y => !x.ult y)

/-- JAL (R151): s1 links. -/
def execJal (o : BitVec 25) (s : State) : Out :=
  .next ((s.setReg 1 ((s.core.st.pc + 4).setWidth 64)).jump (relTarget s.core.st.pc (o.signExtend 64)))

/-- JALR (R152): a misaligned target traps with 0x05, one beyond 55 bits with 0x07, and the link register is then kept. -/
def execJalr (d a : BitVec 5) (i : BitVec 15) (s : State) : Out :=
  s.given (s.chkRegs [a])
    (let t := s.reg a + (i.signExtend 64 <<< 2)
     s.given ((Chk.unless (t.toNat % 4 == 0) 0x05 t).andThen (Chk.unless (t.toNat < 2 ^ 55) 0x07 t))
       (.next ((s.setReg d ((s.core.st.pc + 4).setWidth 64)).jump (t.setWidth 55))))

end Sys2Proof.Machine
end

