-- ==== Sys2Proof/Machine/Perm.lean ====
section
/-!
DEFINITION. Permutations (R184–R188).
-/
namespace Sys2Proof.Machine

/-- VSLUP (R185): elements below k are kept; the destination must not be the source (R184). -/
def execVslup (d a b : BitVec 5) (m : BitVec 3) (s : State) : Out :=
  s.vrun [b] (d != a) [m]
    (let k := (s.reg b).toNat
     let es := (s.actives m).filter (fun i => decide (k ≤ i))
     .next (s.putV d (es.map (fun i => ⟨i * s.w, s.w, s.el a s.w (i - k), s.elPsn a s.w (i - k)⟩))).finishQ)

/-- VSLDN (R185): elements beyond VL read as 0. -/
def execVsldn (d a b : BitVec 5) (m : BitVec 3) (s : State) : Out :=
  s.vrun [b] (d != a) [m]
    (let k := (s.reg b).toNat
     .next (s.putV d ((s.actives m).map (fun i =>
       if i + k < s.vl then ⟨i * s.w, s.w, s.el a s.w (i + k), s.elPsn a s.w (i + k)⟩
       else ⟨i * s.w, s.w, 0, false⟩))).finishQ)

/-- VRGATH (R186): a poisoned index traps, poisoned data moves (R171). -/
def execVrgath (d a b : BitVec 5) (m : BitVec 3) (s : State) : Out :=
  s.vrun [] (d != a && d != b) [m]
    (match (s.actives m).find? (fun i => s.elPsn b s.w i) with
     | some i => s.vtrap 0x09 (BitVec.ofNat 64 i) 0 none
     | none => .next (s.putV d ((s.actives m).map (fun i =>
        let j := s.el b s.w i
        if j < s.vl then ⟨i * s.w, s.w, s.el a s.w j, s.elPsn a s.w j⟩ else ⟨i * s.w, s.w, 0, false⟩))).finishQ)

/-- VCOMP (R187). -/
def execVcomp (d a : BitVec 5) (m : BitVec 3) (s : State) : Out :=
  s.vrun [] (d != a) [m]
    (.next (s.putV d (((s.actives m).zipIdx).map (fun p => ⟨p.2 * s.w, s.w, s.el a s.w p.1, s.elPsn a s.w p.1⟩))).finishQ)

/-- VIOTA (R187): the running count of set bits below each active element. -/
def execViota (d : BitVec 5) (a m : BitVec 3) (s : State) : Out :=
  s.vrun [] true [m]
    (s.given (s.chkMask a)
      (let r := (s.actives m).foldl
        (fun (p : Nat × List VWrite) i => (p.1 + b2n ((s.maskOf a).getLsbD i), ⟨i * s.w, s.w, p.1 % 2 ^ s.sewBits, false⟩ :: p.2)) (0, [])
       .next (s.putV d r.2).finishQ))

/-- VEXT (R188): the element's poison is consumed (R171). -/
def execVext (d a b : BitVec 5) (m : BitVec 3) (s : State) : Out :=
  s.vrun [b] true [m]
    (let j := (s.reg b).toNat
     if s.active m j then
       if s.elPsn a s.w j then s.vtrap 0x09 (BitVec.ofNat 64 j) 0 none
       else
         let x := s.el a s.w j
         .next (s.setReg d (if s.et = 0 then sext x s.sewBits else BitVec.ofNat 64 x)).finishQ
     else .next (s.setReg d 0).finishQ)

/-- VINS (R188). -/
def execVins (d a b : BitVec 5) (m : BitVec 3) (s : State) : Out :=
  s.vrun [a, b] true [m]
    (let j := (s.reg b).toNat
     if s.active m j then
       .next (s.putV d [⟨j * s.w, s.w, (s.reg a).toNat % 2 ^ s.sewBits, false⟩]).finishQ
     else .next s.finishQ)

/-- VBCST (R188). -/
def execVbcst (d a : BitVec 5) (m : BitVec 3) (s : State) : Out :=
  s.vrun [a] true [m]
    (.next (s.putV d ((s.actives m).map (fun i => ⟨i * s.w, s.w, (s.reg a).toNat % 2 ^ s.sewBits, false⟩))).finishQ)

end Sys2Proof.Machine
end

