-- ==== Sys2Proof/Machine/ScalarFp.lean ====
section
/-!
DEFINITION. Scalar floating point (R145–R149): operands and results in scalar registers, rounding in KFCTL.RM, flags in KFCTL.
-/
namespace Sys2Proof.Machine

/-- fn[6]: 0 fp64, 1 fp32 (R146). -/
def sfmt (f : BitVec 1) : Fmt := if f = 0 then fp64 else fp32
/-- An operand in its format: fp32 is read from bits [31:0] (R145). -/
def sfIn (f : BitVec 1) (x : Word) : Nat := if f = 0 then x.toNat else x.toNat % 2 ^ 32

/-- A scalar FP result written, upper half zero for fp32, with its flags (R145, R92). -/
def State.fpOut (s : State) (d : BitVec 5) (r : Nat × Flags) : Out :=
  .next ((s.setReg d (BitVec.ofNat 64 r.1)).addFlags r.2).finish

/-- The operands of an instruction that rounds in KFCTL.RM (R145, R412). -/
def State.chkRounded (s : State) (rs : List (BitVec 5)) : Chk := (s.chkRegs rs).andThen (s.chkK [0x001])

/-- A scalar FP operation of two sources, rounded. -/
def State.fp3 (s : State) (d a b : BitVec 5) (f : BitVec 1) (op : Fmt → Nat → Nat → Nat → Nat × Flags) : Out :=
  s.given (s.chkRounded [a, b]) (s.fpOut d (op (sfmt f) s.rm (sfIn f (s.reg a)) (sfIn f (s.reg b))))

/-- FADD (R146). -/
def execFadd (d a b : BitVec 5) (f : BitVec 1) (s : State) : Out := s.fp3 d a b f fAdd
/-- FSUB (R146). -/
def execFsub (d a b : BitVec 5) (f : BitVec 1) (s : State) : Out := s.fp3 d a b f fSub
/-- FMUL (R146). -/
def execFmul (d a b : BitVec 5) (f : BitVec 1) (s : State) : Out := s.fp3 d a b f fMul
/-- FDIV (R146). -/
def execFdiv (d a b : BitVec 5) (f : BitVec 1) (s : State) : Out := s.fp3 d a b f fDiv
/-- FMIN (R146). -/
def execFmin (d a b : BitVec 5) (f : BitVec 1) (s : State) : Out :=
  s.given (s.chkRegs [a, b]) (s.fpOut d (fMinMax (sfmt f) false (sfIn f (s.reg a)) (sfIn f (s.reg b))))
/-- FMAX (R146). -/
def execFmax (d a b : BitVec 5) (f : BitVec 1) (s : State) : Out :=
  s.given (s.chkRegs [a, b]) (s.fpOut d (fMinMax (sfmt f) true (sfIn f (s.reg a)) (sfIn f (s.reg b))))
/-- FSQRT (R146). -/
def execFsqrt (d a : BitVec 5) (f : BitVec 1) (s : State) : Out :=
  s.given (s.chkRounded [a]) (s.fpOut d (fSqrt (sfmt f) s.rm (sfIn f (s.reg a))))
/-- FMA (R146, R96): the destination is the addend, and is read. -/
def execFma (d a b : BitVec 5) (f : BitVec 1) (s : State) : Out :=
  s.given (s.chkRounded [a, b, d]) (s.fpOut d (fFma (sfmt f) s.rm false (sfIn f (s.reg a)) (sfIn f (s.reg b)) (sfIn f (s.reg d))))

/-- What FCVT writes, by its conversion code (R147, R93). -/
def fcvtVal (f : BitVec 1) (c : BitVec 5) (mode : Nat) (x : Word) : Nat × Flags :=
  match c.toNat with
  | 0 => fToInt (sfmt f) 64 true mode (sfIn f x)
  | 1 => fToInt (sfmt f) 64 false mode (sfIn f x)
  | 2 => intToF (sfmt f) 64 true mode x.toNat
  | 3 => intToF (sfmt f) 64 false mode x.toNat
  | _ => if f = 0 then fConvert fp64 fp32 mode (sfIn f x) else fConvert fp32 fp64 mode (sfIn f x)
/-- FCVT (R147). -/
def execFcvt (d a c : BitVec 5) (f : BitVec 1) (s : State) : Out :=
  s.given (s.chkRounded [a]) (s.fpOut d (fcvtVal f c s.rm (s.reg a)))
/-- FCLASS (R149). -/
def execFclass (d a : BitVec 5) (f : BitVec 1) (s : State) : Out :=
  s.given (s.chkRegs [a]) (s.fpOut d (2 ^ fClass (sfmt f) (sfIn f (s.reg a)), 0))
/-- FCMP (R148). -/
def execFcmp (d a b : BitVec 5) (c : BitVec 3) (f : BitVec 1) (s : State) : Out :=
  s.given (s.chkRegs [a, b])
    (let r := fCompare (sfmt f) c.toNat (sfIn f (s.reg a)) (sfIn f (s.reg b))
     s.fpOut d (b2n r.1, r.2))

end Sys2Proof.Machine
end

