-- ==== Sys2Proof/Machine/VConfig.lean ====
section
/-!
DEFINITION. Vector configuration (R173–R175).
-/
namespace Sys2Proof.Machine

/-- An ill-formed KVTYPE request (R63). -/
def illFormed (k : Word) : Bool :=
  decide (3 < kSew k) || decide (8 < kEt k) || kTr k == 3 || kTc k == 3 || decide (4 < kGrp k)
    || bits k.toNat 62 18 != 0
    || !(match kEt k with
      | 0 => true | 1 => true
      | 2 => kSew k == 3 | 3 => kSew k == 2
      | 4 => kSew k == 1 | 5 => kSew k == 1
      | _ => kSew k == 0)
    || (kMx k && !(kEt k == 6 || kEt k == 7 || kEt k == 8))

/-- A pending grant reduction of the core reaches the strand at its SETVL (R57, R174): groups at and above the new grant cease to exist. -/
def State.applyReduction (s : State) : State :=
  match s.core.reduceTo with
  | none => s
  | some g =>
    s.modSt (fun t =>
      if t.grant ≤ g then t
      else { t with
        grant := g
        v := t.v.map (fun im => BitVec.ofNat 32768 (im.toNat % 2 ^ (2048 * 2 ^ g)))
        vpsn := t.vpsn.map (fun p => BitVec.ofNat 512 (p.toNat % 2 ^ (32 * 2 ^ g))) })

/-- SETVL's work once req is known (R174); `n` is the requested count, none for VLMAX. -/
def State.setVl (s : State) (req : Word) (n : Option Word) (d : BitVec 5) : State :=
  if illFormed req then
    (s.modSt (fun t => { t with kvtype := kvtypeIll, vl := 0 }.mendK [0x004, 0x005])).setReg d 0
  else
    let s := s.applyReduction
    let g := min (kGrp req) s.core.st.grant
    let k := (req &&& ~~~(0x8000000000000380#64)) ||| (BitVec.ofNat 64 g <<< 7)
    let vlmax := 256 * 2 ^ g / 2 ^ kSew req
    let vl := match n with
      | none => vlmax
      | some x => min x.toNat vlmax
    (s.modSt (fun t => { t with kvtype := k, vl := vl }.mendK [0x004, 0x005])).setReg d (BitVec.ofNat 64 vl)

/-- The requested count of SETVL and SETVLI: s0 asks for VLMAX (R174). -/
def State.avl (s : State) (a : BitVec 5) : Option Word := if a = 0 then none else some (s.reg a)

/-- The KVTYPE image of SETVLI's fields (R116, R174): TR = TC = 2. -/
def immType (x sr : BitVec 1) (r : BitVec 2) (g : BitVec 3) (t : BitVec 4) (sew : BitVec 2) : Word :=
  BitVec.ofNat 64 (x.toNat * 2 ^ 17 + sr.toNat * 2 ^ 16 + r.toNat * 2 ^ 14 + 2 * 2 ^ 12 + 2 * 2 ^ 10 + g.toNat * 2 ^ 7 + t.toNat * 2 ^ 3 + sew.toNat)

/-- SETVL (R174): bit 63 of s[b] is ignored. -/
def execSetvl (d a b : BitVec 5) (s : State) : Out :=
  s.given (s.chkRegs [a, b]) (.next (s.setVl (s.reg b &&& ~~~kvtypeIll) (s.avl a) d).finish)

/-- SETVLI (R174). -/
def execSetvli (d a : BitVec 5) (x sr : BitVec 1) (r : BitVec 2) (g : BitVec 3) (t : BitVec 4) (sew : BitVec 2) (s : State) : Out :=
  s.given (s.chkRegs [a]) (.next (s.setVl (immType x sr r g t sew) (s.avl a) d).finish)

/-- LIVE (R175): a reserved bit set traps with 0x02, KLM kept. -/
def execLive (a : BitVec 5) (s : State) : Out :=
  s.given (s.chkRegs [a])
    (s.given (Chk.unless ((s.reg a).toNat / 2 ^ 48 == 0) 0x02 0)
      (.next (s.modSt (fun t => { t with klm := s.reg a }.mendK [0x003])).finish))

end Sys2Proof.Machine
end

