-- ==== Sys2Proof/Machine/VFp.lean ====
section
/-!
DEFINITION. Element-wise floating point and conversion (R178–R180, R100).
-/
namespace Sys2Proof.Machine

/-- The format of KVTYPE.ET; the FP instructions run only where there is one (R164). -/
def State.efmt (s : State) : Fmt := (fmtOf s.et).getD fp64

/-- A two-source FP instruction, rounded in KVTYPE.RM (R178). -/
def State.vfop (s : State) (d a : BitVec 5) (b : Src) (m : BitVec 3) (f : Fmt → Nat → Nat → Nat → Nat × Flags) : Out :=
  s.vop .fps d a b m false (fun _ x y _ => f s.efmt s.vrm x y)

/-- A fused one, which reads its destination (R96). -/
def State.vfma (s : State) (d a : BitVec 5) (b : Src) (m : BitVec 3) (neg : Bool) : Out :=
  s.vop .fps d a b m true (fun _ x y old => fFma s.efmt s.vrm neg x y old)

/-- VFADD_VV (R178). -/
def execVfaddVV (d a b : BitVec 5) (m : BitVec 3) (s : State) : Out := s.vfop d a (.vec b) m fAdd
/-- VFADD_VS (R178). -/
def execVfaddVS (d a b : BitVec 5) (m : BitVec 3) (s : State) : Out := s.vfop d a (.sca b) m fAdd
/-- VFSUB_VV (R178). -/
def execVfsubVV (d a b : BitVec 5) (m : BitVec 3) (s : State) : Out := s.vfop d a (.vec b) m fSub
/-- VFSUB_VS (R178). -/
def execVfsubVS (d a b : BitVec 5) (m : BitVec 3) (s : State) : Out := s.vfop d a (.sca b) m fSub
/-- VFMUL_VV (R178). -/
def execVfmulVV (d a b : BitVec 5) (m : BitVec 3) (s : State) : Out := s.vfop d a (.vec b) m fMul
/-- VFMUL_VS (R178). -/
def execVfmulVS (d a b : BitVec 5) (m : BitVec 3) (s : State) : Out := s.vfop d a (.sca b) m fMul
/-- VFDIV_VV (R178). -/
def execVfdivVV (d a b : BitVec 5) (m : BitVec 3) (s : State) : Out := s.vfop d a (.vec b) m fDiv
/-- VFDIV_VS (R178). -/
def execVfdivVS (d a b : BitVec 5) (m : BitVec 3) (s : State) : Out := s.vfop d a (.sca b) m fDiv
/-- VFMIN_VV (R178, R91). -/
def execVfminVV (d a b : BitVec 5) (m : BitVec 3) (s : State) : Out := s.vfop d a (.vec b) m (fun f _ x y => fMinMax f false x y)
/-- VFMIN_VS (R178, R91). -/
def execVfminVS (d a b : BitVec 5) (m : BitVec 3) (s : State) : Out := s.vfop d a (.sca b) m (fun f _ x y => fMinMax f false x y)
/-- VFMAX_VV (R178, R91). -/
def execVfmaxVV (d a b : BitVec 5) (m : BitVec 3) (s : State) : Out := s.vfop d a (.vec b) m (fun f _ x y => fMinMax f true x y)
/-- VFMAX_VS (R178, R91). -/
def execVfmaxVS (d a b : BitVec 5) (m : BitVec 3) (s : State) : Out := s.vfop d a (.sca b) m (fun f _ x y => fMinMax f true x y)
/-- VFMA_VV (R178, R96). -/
def execVfmaVV (d a b : BitVec 5) (m : BitVec 3) (s : State) : Out := s.vfma d a (.vec b) m false
/-- VFMA_VS (R178, R96). -/
def execVfmaVS (d a b : BitVec 5) (m : BitVec 3) (s : State) : Out := s.vfma d a (.sca b) m false
/-- VFNMS_VV (R178, R96). -/
def execVfnmsVV (d a b : BitVec 5) (m : BitVec 3) (s : State) : Out := s.vfma d a (.vec b) m true
/-- VFNMS_VS (R178, R96). -/
def execVfnmsVS (d a b : BitVec 5) (m : BitVec 3) (s : State) : Out := s.vfma d a (.sca b) m true
/-- VFSQRT (R178). -/
def execVfsqrt (d a : BitVec 5) (m : BitVec 3) (s : State) : Out :=
  s.vop .fps d a (.vec a) m false (fun _ x _ _ => fSqrt s.efmt s.vrm x)
/-- VFEXP2 (R178, R100). -/
def execVfexp2 (d a : BitVec 5) (m : BitVec 3) (s : State) : Out :=
  s.vop .fps d a (.vec a) m false (fun _ x _ _ => fExp2 s.efmt s.vrm x)

/-- Half-bytes of one source value of VFCVT (R179): a type code's ws, doubled. -/
def srcNibbles (typ w : Nat) : Nat :=
  match fmtOf typ with
  | some f => f.width / 4
  | none => 2 * w

/-- Values of a destination element: two for e2m1 (R86, R179). -/
def valuesPer (et : Nat) : Nat := if et = 8 then 2 else 1

/-- q of R179. -/
def cvtRegs (typ et w : Nat) : Nat := max 1 (valuesPer et * srcNibbles typ w / (2 * w))

/-- Source value j of VFCVT and its poison (R179, R86). -/
def State.cvtSrc (s : State) (a : BitVec 5) (typ j : Nat) : Nat :=
  let n := srcNibbles typ s.w
  if n = 1 then s.imgGet a (j / 2) 1 / 16 ^ (j % 2) % 16 else s.imgGet a (j * n / 2) (n / 2)
def State.cvtPsn (s : State) (a : BitVec 5) (typ j : Nat) : Bool := s.imgPsn a (j * srcNibbles typ s.w / 2)

/-- A source value of VFCVT as a number (R82, R85). -/
def srcVal (typ bitsN x : Nat) : FVal :=
  match fmtOf typ with
  | some f => unpack f x
  | none => let i : Int := if typ = 0 then toInt bitsN x else x
    .fin (decide (i < 0)) i.natAbs 0

/-- emax of R180. -/
def mxEmax (et : Nat) : Int := if et = 6 then 8 else if et = 7 then 15 else 2

/-- The greater of two finite magnitudes. -/
def magMax (a b : Nat × Int) : Nat × Int :=
  let e := min a.2 b.2
  if a.1 * 2 ^ (a.2 - e).toNat < b.1 * 2 ^ (b.2 - e).toNat then b else a

/-- The scale code of a block from its active values (R180). -/
def blockScale (et : Nat) (vs : List FVal) : Nat :=
  if vs.any (fun v => match v with | .fin _ _ _ => false | _ => true) then 0xFF
  else
    let a := vs.foldl (fun a v => match v with | .fin _ m e => magMax a (m, e) | _ => a) (0, 0)
    if a.1 = 0 then 127 else (max 0 (min (topBit a.1 a.2 - mxEmax et + 127) 254)).toNat

/-- One value converted (R93–R95, R180): `mx` is the exponent of the block's scale, none unscaled; `r` the random bits when rounding is stochastic. -/
def cvtValue (typ et w mode : Nat) (r : Option Nat) (mx : Option Int) (x : Nat) : Nat × Flags :=
  match fmtOf typ, fmtOf et with
  | some f, some g => cvtFp f g mode r mx x
  | some f, none => fToInt f (8 * w) (et == 0) mode x
  | none, some g =>
    (match srcVal typ (8 * w) x with
     | .fin n m e => if m = 0 then (0, 0) else roundTo g mode mx.isSome n m (e - mx.getD 0) false
     | _ => (0, 0))
  | none, none => (x, 0)

/-- Stochastic rounding applies (R94, R179). -/
def State.cvtStoch (s : State) (typ : Nat) : Bool :=
  kSr s.core.st.kvtype && (match fmtOf typ, fmtOf s.et with
    | some f, some g => decide (g.width < f.width)
    | _, _ => false)

/-- The values of an element, by destination value index. -/
def State.valuesOf (s : State) (i : Nat) : List Nat := (List.range (valuesPer s.et)).map (fun t => valuesPer s.et * i + t)

/-- The active elements of block k (R180): 32 destination values. (DEDUCED, log 20) -/
def State.blockEls (s : State) (m : BitVec 3) (k : Nat) : List Nat :=
  let per := 32 / valuesPer s.et
  ((List.range per).map (fun t => per * k + t)).filter (s.active m)

/-- The scale code of block k, and whether a poisoned value entered it. -/
def State.scaleOf (s : State) (a : BitVec 5) (typ : Nat) (m : BitVec 3) (k : Nat) : Nat × Bool :=
  let js := (s.blockEls m k).flatMap s.valuesOf
  (blockScale s.et (js.map (fun j => srcVal typ s.sewBits (s.cvtSrc a typ j))), js.any (s.cvtPsn a typ))

/-- An element's flags: NX stands never beside NV (R92), also where two e2m1 values raised one each. (DEDUCED, log 80) -/
def elFlags (f : Flags) : Flags := if f &&& fNV != 0 then f &&& ~~~fNX else f

/-- Neither NaN nor infinite. -/
def FVal.isFin : FVal → Bool
  | .fin _ _ _ => true
  | _ => false

/-- Element i of VFCVT's result. In a block of scale 0xFF the NV is that of the element that is NaN or infinite (R92, R180). (DEDUCED, log 80) -/
def State.cvtEl (s : State) (a : BitVec 5) (typ : Nat) (m : BitVec 3) (i : Nat) : ElRes :=
  let mx := kMx s.core.st.kvtype
  let sc := if mx then s.scaleOf a typ m (valuesPer s.et * i / 32) else (127, false)
  let one := fun j =>
    let r := if s.cvtStoch typ then some (srBits (s.core.st.ksr.setWidth 32) j) else none
    let e := if mx && sc.1 != 0xFF then some ((sc.1 : Int) - 127) else none
    cvtValue typ s.et s.w s.vrm r e (s.cvtSrc a typ j)
  let rs := (s.valuesOf i).map (fun j => (one j, s.cvtPsn a typ j))
  let v := rs.foldr (fun x acc => acc * 16 + x.1.1) 0
  ⟨if s.et = 8 then v else (rs.head?.map (·.1.1)).getD 0, rs.any (·.2) || sc.2,
    elFlags (rs.foldl (fun f x => f ||| x.1.2) (if mx && (s.valuesOf i).any (fun j => !(srcVal typ s.sewBits (s.cvtSrc a typ j)).isFin) then fNV else 0))⟩

/-- Registers lo to lo + n − 1 and d to d + k − 1 overlap. -/
def regsOverlap (lo n d k : Nat) : Bool := decide (lo < d + k) && decide (d < lo + n)

/-- The type and range check of VFCVT (R179, R180). -/
def State.cvtOk (s : State) (d a : BitVec 5) (typ : Nat) : Bool :=
  let q := cvtRegs typ s.et s.w
  let mx := kMx s.core.st.kvtype
  let same := valuesPer s.et * srcNibbles typ s.w == 2 * s.w
  decide (a.toNat + q ≤ 32) && !((typ == 0 || typ == 1) && (s.et == 0 || s.et == 1))
    && (same || !regsOverlap a.toNat q d.toNat (if mx then 2 else 1))
    && (!mx || decide (d.toNat ≤ 30))

/-- The scale bytes of v(d + 1) for the blocks of some elements (R180). (DEDUCED, log 20) -/
def State.scaleWrites (s : State) (a : BitVec 5) (typ : Nat) (m : BitVec 3) (es : List Nat) : List VWrite :=
  let per := 32 / valuesPer s.et
  ((es.map (· / per)).dedup).map (fun k =>
    let sc := s.scaleOf a typ m k
    ⟨k, 1, sc.1, sc.2⟩)

/-- VFCVT (R179, R180). -/
def execVfcvt (d a : BitVec 5) (t : BitVec 4) (m : BitVec 3) (s : State) : Out :=
  s.vrun [] (s.cvtOk d a t.toNat) [m]
    (s.given (s.chkK (if s.cvtStoch t.toNat then [0x002] else [])) <|
     let r := s.elementwise m d (s.cvtEl a t.toNat m)
     if kMx s.core.st.kvtype then
       let es := (s.actives m).filter (fun i => decide (s.startGroup ≤ eg s.w i))
       .next (r.putV (d + 1) (s.scaleWrites a t.toNat m es))
     else .next r)

end Sys2Proof.Machine
end

