-- ==== Sys2Proof/Machine/VMask.lean ====
section
/-!
DEFINITION. Compares into mask registers and mask operations (R181–R183).
-/
namespace Sys2Proof.Machine

/-- Integer conditions: 0 eq, 1 ne, 2 lt, 3 ge, 4 ltn, 5 gen (R118, R181). -/
def iCond (c n x y : Nat) : Bool :=
  match c with
  | 0 => x == y
  | 1 => x != y
  | 2 => decide (toInt n x < toInt n y)
  | 3 => !decide (toInt n x < toInt n y)
  | 4 => decide (x < y)
  | _ => !decide (x < y)

/-- FP conditions of R118 as numbered for fCompare. -/
def fCondOf (c : Nat) : Nat := match c with | 1 => 4 | 2 => 1 | 3 => 2 | 4 => 3 | c => c

/-- A compare (R181): groups commit in order; a poisoned active source stops it before its element's group commits (R171). -/
def State.vcompare (s : State) (acc : Accepts) (d : BitVec 3) (a : BitVec 5) (b : Src) (m : BitVec 3)
    (f : Nat → Nat → Bool × Flags) : Out :=
  s.vrun b.scalars (acc.ok s.et) [m]
    (let es := (s.actives m).filter (fun i => decide (s.startGroup ≤ eg s.w i))
     let put := fun (l : List Nat) =>
       let rs := l.map (fun i => (i, f (s.el a s.w i) (s.srcEl b i)))
       (s.putM d (rs.map (fun r => (r.1, r.2.1)))).addFlags (rs.foldl (fun x r => x ||| r.2.2) 0)
     match es.find? (fun i => s.elPsn a s.w i || s.srcPsn b i) with
     | none => .next (put es).finishQ
     | some i => (put (es.filter (fun j => decide (eg s.w j < eg s.w i)))).vtrap 0x09 (BitVec.ofNat 64 i) (eg s.w i) none)

/-- VCMP_VV (R181). -/
def execVcmpVV (d : BitVec 3) (a b : BitVec 5) (m c : BitVec 3) (s : State) : Out :=
  s.vcompare .ints d a (.vec b) m (fun x y => (iCond c.toNat s.sewBits x y, 0))
/-- VCMP_VS (R181). -/
def execVcmpVS (d : BitVec 3) (a b : BitVec 5) (m c : BitVec 3) (s : State) : Out :=
  s.vcompare .ints d a (.sca b) m (fun x y => (iCond c.toNat s.sewBits x y, 0))
/-- VFCMP_VV (R182). -/
def execVfcmpVV (d : BitVec 3) (a b : BitVec 5) (m c : BitVec 3) (s : State) : Out :=
  s.vcompare .fps d a (.vec b) m (fun x y => fCompare ((fmtOf s.et).getD fp64) (fCondOf c.toNat) x y)
/-- VFCMP_VS (R182). -/
def execVfcmpVS (d : BitVec 3) (a b : BitVec 5) (m c : BitVec 3) (s : State) : Out :=
  s.vcompare .fps d a (.sca b) m (fun x y => fCompare ((fmtOf s.et).getD fp64) (fCondOf c.toNat) x y)

/-- A bit-wise mask operation over active bits (R183). -/
def State.maskOp (s : State) (d a b m : BitVec 3) (f : Bool → Bool → Bool) : Out :=
  s.vrun [] true [m]
    (s.given ((s.chkMask a).andThen (s.chkMask b))
      (.next (s.putM d ((s.actives m).map (fun i => (i, f ((s.maskOf a).getLsbD i) ((s.maskOf b).getLsbD i))))).finishQ))

/-- MAND (R183). -/
def execMand (d a b m : BitVec 3) (s : State) : Out := s.maskOp d a b m (fun x y => x && y)
/-- MOR (R183). -/
def execMor (d a b m : BitVec 3) (s : State) : Out := s.maskOp d a b m (fun x y => x || y)
/-- MXOR (R183). -/
def execMxor (d a b m : BitVec 3) (s : State) : Out := s.maskOp d a b m (fun x y => x != y)

/-- MPOPC (R183). -/
def execMpopc (d : BitVec 5) (a m : BitVec 3) (s : State) : Out :=
  s.vrun [] true [m]
    (s.given (s.chkMask a)
      (.next (s.setReg d (BitVec.ofNat 64 ((s.actives m).countP (fun i => (s.maskOf a).getLsbD i)))).finishQ))

/-- MFIRST (R183). -/
def execMfirst (d : BitVec 5) (a m : BitVec 3) (s : State) : Out :=
  s.vrun [] true [m]
    (s.given (s.chkMask a)
      (.next (s.setReg d (match (s.actives m).find? (fun i => (s.maskOf a).getLsbD i) with
        | some i => BitVec.ofNat 64 i
        | none => BitVec.allOnes 64)).finishQ))

/-- MTOV (R183): bits at and above VL are read as 0. -/
def execMtov (d : BitVec 5) (a m : BitVec 3) (s : State) : Out :=
  s.vrun [] true [m]
    (s.given (s.chkMask a)
      (let n := s.sewBits
       let x := (s.maskOf a).toNat % 2 ^ s.vl
       let es := (s.actives m).filter (fun i => decide (i < ceilDiv s.vl n))
       .next (s.putV d (es.map (fun i => ⟨i * s.w, s.w, x / 2 ^ (n * i) % 2 ^ n, false⟩))).finishQ))

/-- VTOM (R183, R171). -/
def execVtom (d : BitVec 3) (a : BitVec 5) (m : BitVec 3) (s : State) : Out :=
  s.vrun [] true [m]
    (let n := s.sewBits
     match (s.actives m).find? (fun i => s.elPsn a s.w (i / n)) with
     | some i => s.vtrap 0x09 (BitVec.ofNat 64 (i / n)) 0 none
     | none => .next (s.putM d ((s.actives m).map (fun i => (i, bit (s.el a s.w (i / n)) (i % n))))).finishQ)

end Sys2Proof.Machine
end

