-- ==== Sys2Proof/Machine/Dispatch.lean ====
section
/-!
DEFINITION. The one dispatch: each constructor of Instr to its meaning.
-/
namespace Sys2Proof.Machine

/-- An instruction or event performed. -/
def exec (i : Instr) (s : State) : Host.Outcome State Fault Refusal :=
  match i with
  | .add d a b => Sys2Proof.Machine.execAdd d a b s
  | .sub d a b => Sys2Proof.Machine.execSub d a b s
  | .and d a b => Sys2Proof.Machine.execAnd d a b s
  | .or d a b => Sys2Proof.Machine.execOr d a b s
  | .xor d a b => Sys2Proof.Machine.execXor d a b s
  | .sll d a b => Sys2Proof.Machine.execSll d a b s
  | .srl d a b => Sys2Proof.Machine.execSrl d a b s
  | .sra d a b => Sys2Proof.Machine.execSra d a b s
  | .mul d a b => Sys2Proof.Machine.execMul d a b s
  | .mulh d a b => Sys2Proof.Machine.execMulh d a b s
  | .mulhn d a b => Sys2Proof.Machine.execMulhn d a b s
  | .div d a b => Sys2Proof.Machine.execDiv d a b s
  | .divn d a b => Sys2Proof.Machine.execDivn d a b s
  | .rem d a b => Sys2Proof.Machine.execRem d a b s
  | .remn d a b => Sys2Proof.Machine.execRemn d a b s
  | .slt d a b => Sys2Proof.Machine.execSlt d a b s
  | .sltn d a b => Sys2Proof.Machine.execSltn d a b s
  | .min d a b => Sys2Proof.Machine.execMin d a b s
  | .max d a b => Sys2Proof.Machine.execMax d a b s
  | .minn d a b => Sys2Proof.Machine.execMinn d a b s
  | .maxn d a b => Sys2Proof.Machine.execMaxn d a b s
  | .clz d a => Sys2Proof.Machine.execClz d a s
  | .ctz d a => Sys2Proof.Machine.execCtz d a s
  | .popc d a => Sys2Proof.Machine.execPopc d a s
  | .clmul d a b => Sys2Proof.Machine.execClmul d a b s
  | .clmulh d a b => Sys2Proof.Machine.execClmulh d a b s
  | .addi d a imm => Sys2Proof.Machine.execAddi d a imm s
  | .andi d a imm => Sys2Proof.Machine.execAndi d a imm s
  | .ori d a imm => Sys2Proof.Machine.execOri d a imm s
  | .xori d a imm => Sys2Proof.Machine.execXori d a imm s
  | .slli d a sr => Sys2Proof.Machine.execSlli d a sr s
  | .srli d a sr => Sys2Proof.Machine.execSrli d a sr s
  | .srai d a sr => Sys2Proof.Machine.execSrai d a sr s
  | .slti d a imm => Sys2Proof.Machine.execSlti d a imm s
  | .sltni d a imm => Sys2Proof.Machine.execSltni d a imm s
  | .movw d imm => Sys2Proof.Machine.execMovw d imm s
  | .adrp d imm => Sys2Proof.Machine.execAdrp d imm s
  | .movk d p v => Sys2Proof.Machine.execMovk d p v s
  | .fadd d a b f => Sys2Proof.Machine.execFadd d a b f s
  | .fsub d a b f => Sys2Proof.Machine.execFsub d a b f s
  | .fmul d a b f => Sys2Proof.Machine.execFmul d a b f s
  | .fdiv d a b f => Sys2Proof.Machine.execFdiv d a b f s
  | .fsqrt d a f => Sys2Proof.Machine.execFsqrt d a f s
  | .fma d a b f => Sys2Proof.Machine.execFma d a b f s
  | .fmin d a b f => Sys2Proof.Machine.execFmin d a b f s
  | .fmax d a b f => Sys2Proof.Machine.execFmax d a b f s
  | .fcvt d a c f => Sys2Proof.Machine.execFcvt d a c f s
  | .fclass d a f => Sys2Proof.Machine.execFclass d a f s
  | .fcmp d a b c f => Sys2Proof.Machine.execFcmp d a b c f s
  | .beq a b o => Sys2Proof.Machine.execBeq a b o s
  | .bne a b o => Sys2Proof.Machine.execBne a b o s
  | .blt a b o => Sys2Proof.Machine.execBlt a b o s
  | .bge a b o => Sys2Proof.Machine.execBge a b o s
  | .bltn a b o => Sys2Proof.Machine.execBltn a b o s
  | .bgen a b o => Sys2Proof.Machine.execBgen a b o s
  | .jal o => Sys2Proof.Machine.execJal o s
  | .jalr d a imm => Sys2Proof.Machine.execJalr d a imm s
  | .ldb d b o => Sys2Proof.Machine.execLdb d b o s
  | .ldh d b o => Sys2Proof.Machine.execLdh d b o s
  | .ldw d b o => Sys2Proof.Machine.execLdw d b o s
  | .ldd d b o => Sys2Proof.Machine.execLdd d b o s
  | .ldbn d b o => Sys2Proof.Machine.execLdbn d b o s
  | .ldhn d b o => Sys2Proof.Machine.execLdhn d b o s
  | .ldwn d b o => Sys2Proof.Machine.execLdwn d b o s
  | .stb sr b o => Sys2Proof.Machine.execStb sr b o s
  | .sth sr b o => Sys2Proof.Machine.execSth sr b o s
  | .stw sr b o => Sys2Proof.Machine.execStw sr b o s
  | .std sr b o => Sys2Proof.Machine.execStd sr b o s
  | .ldx d a b sr z => Sys2Proof.Machine.execLdx d a b sr z s
  | .stx d a b sr z => Sys2Proof.Machine.execStx d a b sr z s
  | .amoadd d a b w q r sr => Sys2Proof.Machine.execAmoadd d a b w q r sr s
  | .amoand d a b w q r sr => Sys2Proof.Machine.execAmoand d a b w q r sr s
  | .amoor d a b w q r sr => Sys2Proof.Machine.execAmoor d a b w q r sr s
  | .amoxor d a b w q r sr => Sys2Proof.Machine.execAmoxor d a b w q r sr s
  | .amomin d a b w q r sr => Sys2Proof.Machine.execAmomin d a b w q r sr s
  | .amomax d a b w q r sr => Sys2Proof.Machine.execAmomax d a b w q r sr s
  | .amominn d a b w q r sr => Sys2Proof.Machine.execAmominn d a b w q r sr s
  | .amomaxn d a b w q r sr => Sys2Proof.Machine.execAmomaxn d a b w q r sr s
  | .amoswp d a b w q r sr => Sys2Proof.Machine.execAmoswp d a b w q r sr s
  | .amocas d a b w q r sr => Sys2Proof.Machine.execAmocas d a b w q r sr s
  | .fence p sr c => Sys2Proof.Machine.execFence p sr c s
  | .setvl d a b => Sys2Proof.Machine.execSetvl d a b s
  | .live a => Sys2Proof.Machine.execLive a s
  | .setvli d a x sr r g t w => Sys2Proof.Machine.execSetvli d a x sr r g t w s
  | .vaddVV d a b m => Sys2Proof.Machine.execVaddVV d a b m s
  | .vaddVS d a b m => Sys2Proof.Machine.execVaddVS d a b m s
  | .vsubVV d a b m => Sys2Proof.Machine.execVsubVV d a b m s
  | .vsubVS d a b m => Sys2Proof.Machine.execVsubVS d a b m s
  | .vmulVV d a b m => Sys2Proof.Machine.execVmulVV d a b m s
  | .vmulVS d a b m => Sys2Proof.Machine.execVmulVS d a b m s
  | .vmulhVV d a b m => Sys2Proof.Machine.execVmulhVV d a b m s
  | .vmulhVS d a b m => Sys2Proof.Machine.execVmulhVS d a b m s
  | .vmulhnVV d a b m => Sys2Proof.Machine.execVmulhnVV d a b m s
  | .vmulhnVS d a b m => Sys2Proof.Machine.execVmulhnVS d a b m s
  | .vandVV d a b m => Sys2Proof.Machine.execVandVV d a b m s
  | .vandVS d a b m => Sys2Proof.Machine.execVandVS d a b m s
  | .vorVV d a b m => Sys2Proof.Machine.execVorVV d a b m s
  | .vorVS d a b m => Sys2Proof.Machine.execVorVS d a b m s
  | .vxorVV d a b m => Sys2Proof.Machine.execVxorVV d a b m s
  | .vxorVS d a b m => Sys2Proof.Machine.execVxorVS d a b m s
  | .vsllVV d a b m => Sys2Proof.Machine.execVsllVV d a b m s
  | .vsllVS d a b m => Sys2Proof.Machine.execVsllVS d a b m s
  | .vsrlVV d a b m => Sys2Proof.Machine.execVsrlVV d a b m s
  | .vsrlVS d a b m => Sys2Proof.Machine.execVsrlVS d a b m s
  | .vsraVV d a b m => Sys2Proof.Machine.execVsraVV d a b m s
  | .vsraVS d a b m => Sys2Proof.Machine.execVsraVS d a b m s
  | .vminVV d a b m => Sys2Proof.Machine.execVminVV d a b m s
  | .vminVS d a b m => Sys2Proof.Machine.execVminVS d a b m s
  | .vmaxVV d a b m => Sys2Proof.Machine.execVmaxVV d a b m s
  | .vmaxVS d a b m => Sys2Proof.Machine.execVmaxVS d a b m s
  | .vminnVV d a b m => Sys2Proof.Machine.execVminnVV d a b m s
  | .vminnVS d a b m => Sys2Proof.Machine.execVminnVS d a b m s
  | .vmaxnVV d a b m => Sys2Proof.Machine.execVmaxnVV d a b m s
  | .vmaxnVS d a b m => Sys2Proof.Machine.execVmaxnVS d a b m s
  | .vsaddVV d a b m => Sys2Proof.Machine.execVsaddVV d a b m s
  | .vsaddVS d a b m => Sys2Proof.Machine.execVsaddVS d a b m s
  | .vssubVV d a b m => Sys2Proof.Machine.execVssubVV d a b m s
  | .vssubVS d a b m => Sys2Proof.Machine.execVssubVS d a b m s
  | .vmergeVV d a b m => Sys2Proof.Machine.execVmergeVV d a b m s
  | .vmergeVS d a b m => Sys2Proof.Machine.execVmergeVS d a b m s
  | .vfaddVV d a b m => Sys2Proof.Machine.execVfaddVV d a b m s
  | .vfaddVS d a b m => Sys2Proof.Machine.execVfaddVS d a b m s
  | .vfsubVV d a b m => Sys2Proof.Machine.execVfsubVV d a b m s
  | .vfsubVS d a b m => Sys2Proof.Machine.execVfsubVS d a b m s
  | .vfmulVV d a b m => Sys2Proof.Machine.execVfmulVV d a b m s
  | .vfmulVS d a b m => Sys2Proof.Machine.execVfmulVS d a b m s
  | .vfdivVV d a b m => Sys2Proof.Machine.execVfdivVV d a b m s
  | .vfdivVS d a b m => Sys2Proof.Machine.execVfdivVS d a b m s
  | .vfsqrt d a m => Sys2Proof.Machine.execVfsqrt d a m s
  | .vfmaVV d a b m => Sys2Proof.Machine.execVfmaVV d a b m s
  | .vfmaVS d a b m => Sys2Proof.Machine.execVfmaVS d a b m s
  | .vfnmsVV d a b m => Sys2Proof.Machine.execVfnmsVV d a b m s
  | .vfnmsVS d a b m => Sys2Proof.Machine.execVfnmsVS d a b m s
  | .vfminVV d a b m => Sys2Proof.Machine.execVfminVV d a b m s
  | .vfminVS d a b m => Sys2Proof.Machine.execVfminVS d a b m s
  | .vfmaxVV d a b m => Sys2Proof.Machine.execVfmaxVV d a b m s
  | .vfmaxVS d a b m => Sys2Proof.Machine.execVfmaxVS d a b m s
  | .vfcvt d a t m => Sys2Proof.Machine.execVfcvt d a t m s
  | .vfexp2 d a m => Sys2Proof.Machine.execVfexp2 d a m s
  | .vcmpVV d a b m c => Sys2Proof.Machine.execVcmpVV d a b m c s
  | .vcmpVS d a b m c => Sys2Proof.Machine.execVcmpVS d a b m c s
  | .vfcmpVV d a b m c => Sys2Proof.Machine.execVfcmpVV d a b m c s
  | .vfcmpVS d a b m c => Sys2Proof.Machine.execVfcmpVS d a b m c s
  | .mand d a b m => Sys2Proof.Machine.execMand d a b m s
  | .mor d a b m => Sys2Proof.Machine.execMor d a b m s
  | .mxor d a b m => Sys2Proof.Machine.execMxor d a b m s
  | .mpopc d a m => Sys2Proof.Machine.execMpopc d a m s
  | .mfirst d a m => Sys2Proof.Machine.execMfirst d a m s
  | .mtov d a m => Sys2Proof.Machine.execMtov d a m s
  | .vtom d a m => Sys2Proof.Machine.execVtom d a m s
  | .vslup d a b m => Sys2Proof.Machine.execVslup d a b m s
  | .vsldn d a b m => Sys2Proof.Machine.execVsldn d a b m s
  | .vrgath d a b m => Sys2Proof.Machine.execVrgath d a b m s
  | .vcomp d a m => Sys2Proof.Machine.execVcomp d a m s
  | .viota d a m => Sys2Proof.Machine.execViota d a m s
  | .vext d a b m => Sys2Proof.Machine.execVext d a b m s
  | .vins d a b m => Sys2Proof.Machine.execVins d a b m s
  | .vbcst d a m => Sys2Proof.Machine.execVbcst d a m s
  | .vred d a m o => Sys2Proof.Machine.execVred d a m o s
  | .vscan d a m o => Sys2Proof.Machine.execVscan d a m o s
  | .vclmulVV d a b m => Sys2Proof.Machine.execVclmulVV d a b m s
  | .vclmulVS d a b m => Sys2Proof.Machine.execVclmulVS d a b m s
  | .vclmulhVV d a b m => Sys2Proof.Machine.execVclmulhVV d a b m s
  | .vclmulhVS d a b m => Sys2Proof.Machine.execVclmulhVS d a b m s
  | .vld d a m h => Sys2Proof.Machine.execVld d a m h s
  | .vlds d a b m h => Sys2Proof.Machine.execVlds d a b m h s
  | .vldx d a b m h => Sys2Proof.Machine.execVldx d a b m h s
  | .vldff d a m h => Sys2Proof.Machine.execVldff d a m h s
  | .vldxp d a b m f h => Sys2Proof.Machine.execVldxp d a b m f h s
  | .vst d a m h => Sys2Proof.Machine.execVst d a m h s
  | .vsts d a b m h => Sys2Proof.Machine.execVsts d a b m h s
  | .vstx d a b m h => Sys2Proof.Machine.execVstx d a b m h s
  | .vstxo d a b m h => Sys2Proof.Machine.execVstxo d a b m h s
  | .vstxp d a b m f h => Sys2Proof.Machine.execVstxp d a b m f h s
  | .vsca d a b m o => Sys2Proof.Machine.execVsca d a b m o s
  | .tldf d a m => Sys2Proof.Machine.execTldf d a m s
  | .tstf d a m f => Sys2Proof.Machine.execTstf d a m f s
  | .twait a => Sys2Proof.Machine.execTwait a s
  | .tstat d a => Sys2Proof.Machine.execTstat d a s
  | .tset a b => Sys2Proof.Machine.execTset a b s
  | .tarm a b => Sys2Proof.Machine.execTarm a b s
  | .tcmb d a b m f => Sys2Proof.Machine.execTcmb d a b m f s
  | .tknew d a => Sys2Proof.Machine.execTknew d a s
  | .tkfree a => Sys2Proof.Machine.execTkfree a s
  | .tkarm a b => Sys2Proof.Machine.execTkarm a b s
  | .tksig a b => Sys2Proof.Machine.execTksig a b s
  | .tkrd d a => Sys2Proof.Machine.execTkrd d a s
  | .await d a b => Sys2Proof.Machine.execAwait d a b s
  | .yield d => Sys2Proof.Machine.execYield d s
  | .cpy d a b f t => Sys2Proof.Machine.execCpy d a b f t s
  | .cpy2d d a b f t => Sys2Proof.Machine.execCpy2d d a b f t s
  | .cpyg d a b t => Sys2Proof.Machine.execCpyg d a b t s
  | .gjoin a imm => Sys2Proof.Machine.execGjoin a imm s
  | .gleave a imm => Sys2Proof.Machine.execGleave a imm s
  | .bar a => Sys2Proof.Machine.execBar a s
  | .spawn d a => Sys2Proof.Machine.execSpawn d a s
  | .sexit => Sys2Proof.Machine.execSexit s
  | .sid d sr => Sys2Proof.Machine.execSid d sr s
  | .mopa c a b r k => Sys2Proof.Machine.execMopa c a b r k s
  | .mops c a b r k => Sys2Proof.Machine.execMops c a b r k s
  | .mzero c r k => Sys2Proof.Machine.execMzero c r k s
  | .mrd c o a b r k => Sys2Proof.Machine.execMrd c o a b r k s
  | .mwr c o a b r k => Sys2Proof.Machine.execMwr c o a b r k s
  | .mldt c o a b r k => Sys2Proof.Machine.execMldt c o a b r k s
  | .mstt c o a b r k => Sys2Proof.Machine.execMstt c o a b r k s
  | .mpatch c o a b r k => Sys2Proof.Machine.execMpatch c o a b r k s
  | .wset n a => Sys2Proof.Machine.execWset n a s
  | .wclr n => Sys2Proof.Machine.execWclr n s
  | .brk c => Sys2Proof.Machine.execBrk c s
  | .callk n => Sys2Proof.Machine.execCallk n s
  | .eret => Sys2Proof.Machine.execEret s
  | .krd d k => Sys2Proof.Machine.execKrd d k s
  | .kwr a k => Sys2Proof.Machine.execKwr a k s
  | .tlbinvAll => Sys2Proof.Machine.execTlbinvAll s
  | .tlbinvAsid d => Sys2Proof.Machine.execTlbinvAsid d s
  | .tlbinvPage d a => Sys2Proof.Machine.execTlbinvPage d a s
  | .mdead d a => Sys2Proof.Machine.execMdead d a s
  | .sflush a => Sys2Proof.Machine.execSflush a s
  | .deferredTrap => Sys2Proof.Machine.execDeferredTrap s
  | .containment => Sys2Proof.Machine.execContainment s
  | .issueRotation => Sys2Proof.Machine.execIssueRotation s
  | .ageing => Sys2Proof.Machine.execAgeing s
  | .contextSaveEnd => Sys2Proof.Machine.execContextSaveEnd s
  | .contextRestoreEnd => Sys2Proof.Machine.execContextRestoreEnd s
  | .tokenCompletion => Sys2Proof.Machine.execTokenCompletion s
  | .remoteReply => Sys2Proof.Machine.execRemoteReply s
  | .storeSend => Sys2Proof.Machine.execStoreSend s
  | .l1Fill => Sys2Proof.Machine.execL1Fill s
  | .invalidationAck => Sys2Proof.Machine.execInvalidationAck s
  | .pageWalk => Sys2Proof.Machine.execPageWalk s
  | .copyAccept => Sys2Proof.Machine.execCopyAccept s
  | .copyComplete => Sys2Proof.Machine.execCopyComplete s
  | .fill => Sys2Proof.Machine.execFill s
  | .fillRetry => Sys2Proof.Machine.execFillRetry s
  | .fillEnd => Sys2Proof.Machine.execFillEnd s
  | .combine => Sys2Proof.Machine.execCombine s
  | .porchRequest => Sys2Proof.Machine.execPorchRequest s
  | .holdExpiry => Sys2Proof.Machine.execHoldExpiry s
  | .releasedEntryExpiry => Sys2Proof.Machine.execReleasedEntryExpiry s
  | .groupChangeAck => Sys2Proof.Machine.execGroupChangeAck s
  | .gangComplete => Sys2Proof.Machine.execGangComplete s
  | .packetComplete => Sys2Proof.Machine.execPacketComplete s
  | .notify => Sys2Proof.Machine.execNotify s
  | .queueScan => Sys2Proof.Machine.execQueueScan s
  | .queueEnable => Sys2Proof.Machine.execQueueEnable s
  | .queueDisable => Sys2Proof.Machine.execQueueDisable s
  | .errClear => Sys2Proof.Machine.execErrClear s
  | .launch => Sys2Proof.Machine.execLaunch s
  | .signalPacket => Sys2Proof.Machine.execSignalPacket s
  | .waitPacket => Sys2Proof.Machine.execWaitPacket s
  | .waitPacketPoll => Sys2Proof.Machine.execWaitPacketPoll s
  | .copyPacket => Sys2Proof.Machine.execCopyPacket s
  | .tablePacket => Sys2Proof.Machine.execTablePacket s
  | .gangPlace => Sys2Proof.Machine.execGangPlace s
  | .gangReplace => Sys2Proof.Machine.execGangReplace s
  | .preempt => Sys2Proof.Machine.execPreempt s
  | .preemptSave => Sys2Proof.Machine.execPreemptSave s
  | .grantReduction => Sys2Proof.Machine.execGrantReduction s
  | .grantReductionTimeout => Sys2Proof.Machine.execGrantReductionTimeout s
  | .flitReceive => Sys2Proof.Machine.execFlitReceive s
  | .ackTimer => Sys2Proof.Machine.execAckTimer s
  | .replayLimit => Sys2Proof.Machine.execReplayLimit s
  | .scoreHalving => Sys2Proof.Machine.execScoreHalving s
  | .read => Sys2Proof.Machine.execRead s
  | .write => Sys2Proof.Machine.execWrite s
  | .atomic => Sys2Proof.Machine.execAtomic s
  | .readData => Sys2Proof.Machine.execReadData s
  | .done => Sys2Proof.Machine.execDone s
  | .atomicData => Sys2Proof.Machine.execAtomicData s
  | .signal => Sys2Proof.Machine.execSignal s
  | .increment => Sys2Proof.Machine.execIncrement s
  | .gforward => Sys2Proof.Machine.execGforward s
  | .spawnRequest => Sys2Proof.Machine.execSpawnRequest s
  | .hostmsg => Sys2Proof.Machine.execHostmsg s
  | .hostRequest => Sys2Proof.Machine.execHostRequest s
  | .managementRequest => Sys2Proof.Machine.execManagementRequest s
  | .hmctlEnable => Sys2Proof.Machine.execHmctlEnable s
  | .mectlEnable => Sys2Proof.Machine.execMectlEnable s
  | .ffset => Sys2Proof.Machine.execFfset s
  | .fjoin => Sys2Proof.Machine.execFjoin s
  | .joinResend => Sys2Proof.Machine.execJoinResend s
  | .fdevid => Sys2Proof.Machine.execFdevid s
  | .fbridge => Sys2Proof.Machine.execFbridge s
  | .quiesce => Sys2Proof.Machine.execQuiesce s
  | .fctlClr => Sys2Proof.Machine.execFctlClr s
  | .hflush => Sys2Proof.Machine.execHflush s
  | .keyLoad => Sys2Proof.Machine.execKeyLoad s
  | .keyClear => Sys2Proof.Machine.execKeyClear s
  | .registerWrite => Sys2Proof.Machine.execRegisterWrite s
  | .uncorrectableError => Sys2Proof.Machine.execUncorrectableError s
  | .patrolRead => Sys2Proof.Machine.execPatrolRead s
  | .capacityLinkLoss => Sys2Proof.Machine.execCapacityLinkLoss s
  | .capacityPortDown => Sys2Proof.Machine.execCapacityPortDown s
  | .capacityPortRestored => Sys2Proof.Machine.execCapacityPortRestored s
  | .powerGood => Sys2Proof.Machine.execPowerGood s
  | .configuration => Sys2Proof.Machine.execConfiguration s
  | .memoryTraining => Sys2Proof.Machine.execMemoryTraining s
  | .fullMode => Sys2Proof.Machine.execFullMode s
  | .quote => Sys2Proof.Machine.execQuote s
  | .operatingPointMove => Sys2Proof.Machine.execOperatingPointMove s
  | .powerWindow => Sys2Proof.Machine.execPowerWindow s
  | .thermalThrottle => Sys2Proof.Machine.execThermalThrottle s
  | .thermalTrip => Sys2Proof.Machine.execThermalTrip s
  | .illegalEncoding => Sys2Proof.Machine.execIllegalEncoding s
  | .fetchFault => Sys2Proof.Machine.execFetchFault s
  | .correctableError => Sys2Proof.Machine.execCorrectableError s
  | .capacityLinkRetrained => Sys2Proof.Machine.execCapacityLinkRetrained s
  | .powerLoss => Sys2Proof.Machine.execPowerLoss s
  | .groupRollback => Sys2Proof.Machine.execGroupRollback s

end Sys2Proof.Machine
end

