-- ==== Sys2Proof/Machine/VQueue.lean ====
section
/-!
DEFINITION. The vector queue at work (R165, R302, R390 to R392, R482): how an instruction enters it, what may commit behind it, how the window runs its instructions group by group, and how a fault there is taken.
An instruction of the queue is performed by its own meaning, on the scalar state that it carries.
-/
namespace Sys2Proof.Machine

/-- The machine with no handler for the strand's gang: there every trap shows as a containment asked for. -/
def State.bare (s : State) : State :=
  s.modGang s.core.st.gang (fun g => { g with kutvec := 0, kstvec := 0, oldUtvec := none, oldStvec := none })

/-- The strand of the slot has trapped or left it, against how it stood. -/
def State.left (s : State) (t : Strand) : Bool := !(s.core.st.same t) || s.core.st.status != .running || s.core.st.kstatus != t.kstatus

/-- The strand as an instruction of the queue finds it: with the scalar state that it carries, and nothing behind it. -/
def Strand.issue (t : Strand) (c : Ctx) : Strand := { c.onto t with queue := [], out := [], win := 0, row := 0, turn := 0, hist := none, code := none }

/-- What an instruction of the queue has done, taken over into the strand: all but the scalar state, whose new flags everything behind it sees (R170, R390). -/
def Strand.merge (t : Strand) (e : QEntry) (u : Strand) : Strand :=
  let new := u.kfctl &&& ~~~e.ctx.kfctl
  let x := t.ctx.onto u
  { x with
    kfctl := t.kfctl ||| new, queue := t.queue.map (fun q => { q with ctx := { q.ctx with kfctl := q.ctx.kfctl ||| new } })
    out := t.out, win := t.win, row := t.row, turn := t.turn, hist := t.hist, code := t.code, codeAsked := t.codeAsked }

/-- A value delivered to the register that awaits it, in the strand and in what the younger instructions carry (R167). -/
def Strand.deliverOne (t : Strand) (id : Nat) (d : BitVec 5) (u : Strand) : Strand :=
  if t.marks[d.toNat] = .queued id then { t with regs := t.regs.set d.toNat u.regs[d.toNat], marks := t.marks.set d.toNat u.marks[d.toNat] } else t
def Strand.deliver (t : Strand) (e : QEntry) (u : Strand) : Strand :=
  match scalarDest e.instr with
  | none => if isFirstFault e.instr then { t with vl := u.vl } else t
  | some d => { t.deliverOne e.id d u with queue := t.queue.map (fun q => { q with ctx := ((q.ctx.onto t).deliverOne e.id d u).ctx }) }

/-- The k oldest instructions leave the queue; what was held behind them is provisional no more (R390). -/
def Strand.pop (t : Strand) (k : Nat) : Strand := { t with queue := t.queue.drop k, out := t.out ++ (t.queue.take k).flatMap (·.held) }

/-- An instruction enters the queue (R165, R302): its checks have passed on the scalar state that it will carry; one that would trap, or whose operands have not come, does not enter. VLDFF lets nothing enter behind it (R198). -/
def State.enqueue (s : State) (i : Instr) : Option State :=
  let t := s.core.st
  if Config.queueEntries ≤ t.queue.length || t.queue.any (fun q => isFirstFault q.instr) then none
  else
    let v := s.modSt (fun t => { t with queue := [], out := [], vl := 0, prog := none, answers := [], asked := false })
    match exec i v with
    | .next w =>
      let traps := w.contains != s.contains || (w.core.st.same t && w.core.st.kstatus != t.kstatus)
      let stalls := w == v && t.marks.toList.any (fun m => match m with | .pending => true | .queued _ => true | _ => false)
      if traps || stalls then none
      else
        let e : QEntry := ⟨s.nextId, i, t.ctx, [], 0⟩
        some { s.modSt (fun t =>
          let u := { t with
            queue := t.queue ++ [e], pc := t.pc + 4, watchPass := false, resFirst := none, code := none
            resN := match t.resFirst with | some _ => t.resN | none => t.resN - 1 }
          match scalarDest i with
          | some d => u.setMark d.toNat (.queued s.nextId)
          | none => u) with nextId := s.nextId + 1 }
    | _ => none

/-- One more instruction has committed behind the youngest of the queue. -/
def Strand.ahead (t : Strand) : Nat := t.queue.foldl (fun n q => n + q.ahead) 0
def bump (l : List QEntry) : List QEntry := l.mapIdx (fun j q => if j + 1 = l.length then { q with ahead := q.ahead + 1 } else q)

/-- A scalar instruction commits while instructions of the queue may still trap (R390): one that only changes what a trap can undo, or is held. Every other one waits, and so does one that would trap, or a SETVL that applies a grant reduction (R173); an ill-formed one applies none (R174) and commits. (DESIGN CHOICE, log 10) -/
def State.provisional (s : State) (i : Instr) : Out :=
  let t := s.core.st
  let v := s.modSt (fun t => { t with prog := none, answers := [], asked := false })
  if Config.aheadMax ≤ t.ahead then .next s
  else match exec i v with
  | .next w =>
    let x := w.core.st
    let whole := { t.ctx.onto x with prog := t.prog, answers := t.answers, asked := t.asked, code := t.code, queue := t.queue } == t
    if w == v || !whole then .next s
    else .next (w.modSt (fun x => { x with prog := t.prog, answers := t.answers, asked := t.asked, queue := bump x.queue }))
  | o => o

/-- The oldest instruction of the queue is a VST of one group, all on this device, whose checks have passed: it is trap-free, so what is held behind it may be performed before any of its elements, which are given (R300, R313, R380, R390). (DESIGN CHOICE, log 8) -/
def State.overtakable (s : State) (e : QEntry) : Option (List VEl) :=
  match e.instr with
  | .vst _ a m _ =>
    let v := s.modSt (fun t => t.issue e.ctx)
    let q := v.vscan m .store wStore (v.addrUnit a) none (fun _ => false)
    let near := fun (x : VEl) => match x.p with | .slice _ _ => true | .local_ _ => true | _ => false
    if e.held.isEmpty || q.scan.stop.isSome || q.scan.held || q.next.isSome || !q.scan.els.all near then none
    else match once (q.scan.els.map (·.grp)) with
    | [_] => if v.elsWait q.scan.els v.w true false then none else some q.scan.els
    | _ => none
  | _ => none

/-- Some of its elements are performed, not all, and what is held behind it goes out; the rest follow. Which is open: the slot that R380 speaks of may hold any mixture (DESIGN CHOICE, log 8). -/
def State.overtaken (s : State) (e : QEntry) (els : List VEl) : State :=
  match e.instr with
  | .vst d _ _ _ =>
    let t := s.core.st
    let v := s.modSt (fun t => t.issue e.ctx)
    let (k, s) := s.choose (2 ^ els.length - 1)
    let first := (els.zipIdx.filter (fun x => bit k x.2)).map (·.1)
    let s := (groupChunks s.core.id v.w (fun x => (v.el d v.w x.i, v.elPsn d v.w x.i)) first).foldl (fun s c => s.putChunk s.asid t.gang t.rank 8 c) s
    (s.modSt (fun t => { t with
      prog := some ⟨(els.head?.map (·.grp)).getD 0, els, none⟩, answers := first.map (fun x => ⟨x.i, 0, false, 0⟩)
      out := t.out ++ e.held, queue := mapIf (fun x => x.id == e.id) (fun x => { x with held := [] }) t.queue })).takeOut
  | _ => s

/-- The oldest instruction of the queue alone (R391): it completes and leaves, goes on, waits, or stops the strand. Whether the accesses held behind a VST go first is open (DESIGN CHOICE, log 8). -/
def State.runAlone (s : State) (e : QEntry) : Out :=
  let t := s.core.st
  match exec e.instr (s.modSt (fun t => t.issue e.ctx)) with
  | .next w =>
    let w := match w.core.st.vq with | some c => (w.tryCopy c).getD w | none => w
    let x := w.core.st
    if w.left t || x.wait != .none then .next w
    else if x.vq.isSome then .next s
    else if x.pc = e.ctx.pc + 4 then
      let done := fun (w : State) => Host.Outcome.next ((w.modSt (fun _ => ((t.merge e x).deliver e x).pop 1)).takeOut)
      match s.overtakable e with
      | none => done w
      | some els =>
        let (c, u) := s.choose 2
        if c = 1 then .next (u.overtaken e els) else done (w.choose 2).2
    else .next (w.modSt (fun _ => t.merge e x))
  | o => o

/-- What an instruction of the window reads or writes of memory: whether it writes, its addresses, its mask, its first index register. -/
def memOf (i : Instr) : Option (Bool × (State → Nat → Word) × BitVec 3 × Option (BitVec 5)) :=
  match i with
  | .vld _ a m _ => some (false, fun s => s.addrUnit a, m, none)
  | .vlds _ a b m _ => some (false, fun s => s.addrStride a b, m, none)
  | .vldx _ a b m _ => some (false, fun s => s.addrIdx a b, m, some b)
  | .vst _ a m _ => some (true, fun s => s.addrUnit a, m, none)
  | .vsts _ a b m _ => some (true, fun s => s.addrStride a b, m, none)
  | .vstx _ a b m _ => some (true, fun s => s.addrIdx a b, m, some b)
  | .vsca _ a b m _ => some (true, fun s => s.addrIdx a b, m, some b)
  | _ => none
/-- Group-wise instructions that the model lets share a window: element-wise arithmetic, plain loads and stores, VSCA. (DESIGN CHOICE, log 87) -/
def chains (i : Instr) : Bool :=
  (memOf i).isSome || [0x21, 0x22, 0x24, 0x29].contains (majorOf i) || (majorOf i == 0x23 && (match i with | .vfcvt _ _ _ _ => false | _ => true))
/-- Such an instruction writes memory. -/
def writesMem (i : Instr) : Bool := match memOf i with | some x => x.1 | none => false
/-- The vector register that it writes. -/
def vectorDest (i : Instr) : Option Nat := if writesMem i then none else (encode i).map (fun w => bits w.toNat 24 20)

/-- A place by which one memory, its unit and the first byte are told. -/
def Place.spot (me : Nat) (p : Place) : Nat × Nat × Nat :=
  match p with
  | .slice pa _ => (0, 0, pa)
  | .local_ off => (1, me, off)
  | .peer _ _ c off => (1, c, off)
  | .farMem d pa _ => (2, d, pa)
  | .farPad d r off => (3, d * 65536 + r, off)
  | .ctl pa => (4, 0, pa)
/-- The bytes that an instruction of the queue touches. -/
def State.spots (s : State) (e : QEntry) : List (Nat × Nat × Nat) :=
  let v := s.modSt (fun t => t.issue e.ctx)
  match memOf e.instr with
  | none => []
  | some (_, va, m, _) => (v.fromStart m).filterMap (fun i => match v.xlate (va v i) v.w with
    | .at p _ => some (p.spot s.core.id)
    | _ => none)
/-- Two of them share bytes (R482). -/
def State.meet (s : State) (a b : QEntry) : Bool :=
  let n := 2 ^ kSew a.ctx.kvtype
  (s.spots a).any (fun x => (s.spots b).any (fun y => x.1 == y.1 && x.2.1 == y.2.1 && decide (x.2.2 < y.2.2 + n) && decide (y.2.2 < x.2.2 + n)))

/-- The vector registers that give an instruction its indices (R193). -/
def QEntry.indexRegs (e : QEntry) : List Nat :=
  match memOf e.instr with
  | some (_, _, _, some b) => (List.range (max 1 (8 / 2 ^ kSew e.ctx.kvtype))).map (b.toNat + ·)
  | _ => []
/-- The group from which an instruction of the queue starts (R392). -/
def QEntry.start (e : QEntry) : Nat := match e.ctx.resFirst with | some g => g | none => if e.ctx.resN = 0 then 0 else e.ctx.resG
/-- One instruction's destination holds the other's indices. -/
def QEntry.feeds (a b : QEntry) : Bool := match vectorDest a.instr with | some d => b.indexRegs.contains d | none => false
/-- An instruction may start behind those of a window (R391, R482): at the same group, with elements of the same width, no index of one written by another, and nothing behind one that writes memory, which shares no byte with a load before it. (DESIGN CHOICE, log 87) -/
def State.mayJoin (s : State) (pre : List QEntry) (e : QEntry) : Bool :=
  chains e.instr && pre.all (fun p => chains p.instr && !writesMem p.instr && p.start == e.start && kSew p.ctx.kvtype == kSew e.ctx.kvtype
    && !p.feeds e && !e.feeds p && !(writesMem e.instr && s.meet p e))
/-- How many of the oldest instructions start together, at most n. -/
def State.window (s : State) : Nat → Nat
  | 0 => 0
  | n + 1 =>
    let k := s.window n
    match s.core.st.queue[k]? with
    | some e => if k = n && s.mayJoin (s.core.st.queue.take k) e then k + 1 else k
    | none => k

/-- The next instruction's turn in a row of groups; after the last, the groups are committed, the instructions that have none above leave in their order, and the rest go on a group higher (R391). A single one that is left goes on alone. -/
def Strand.nextTurn (t : Strand) : Strand :=
  if t.turn + 1 < t.win then { t with turn := t.turn + 1 }
  else
    let k := ((t.queue.take t.win).takeWhile (fun e => decide (e.ctx.vl * 2 ^ kSew e.ctx.kvtype ≤ 256 * (t.row + 1)))).length
    let u := t.pop k
    if t.win - k < 2 then
      { u with win := 0, row := 0, turn := 0, hist := none, prog := if t.win = k then none else some ⟨t.row + 1, [], none⟩ }
    else { u with win := t.win - k, row := t.row + 1, turn := 0, hist := none }

/-- A fault in the window (R391): the row's groups are undone, everything behind the oldest instruction is discarded, and the trap is taken at that one, with the row as its group and the instructions behind it in the window as its depth. -/
def State.windowTrap (s v : State) (i : Instr) : Out :=
  match exec i v.bare with
  | .next w =>
    match w.contains.getLast? with
    | some c =>
      let t := s.core.st
      let u := (if [0x07, 0x08, 0x0A, 0x0E].contains c.cause.toNat || c.psna.isSome then s.walkFault c.eval else s).modSt
        (fun t => { t.unwind with watch := ((w.core.rest.getLast?).map (·.watch)).getD t.watch })
      .next (u.trapAt c.cause c.eval t.row (t.win - 1) c.psna)
    | none => .next s
  | _ => .next s

/-- The instruction in turn does its group of the row (R391): its meaning, from that group on and with VL at the group's end. -/
def State.runTurn (s : State) : Out :=
  let t := s.core.st
  match t.queue[t.turn]? with
  | none => .next s
  | some e =>
    let v := s.modSt (fun t => { t.issue e.ctx with
      vl := min e.ctx.vl (256 * (t.row + 1) / 2 ^ kSew e.ctx.kvtype), prog := if t.prog.isSome then t.prog else some ⟨t.row, [], none⟩ })
    match exec e.instr v with
    | .next w =>
      let x := w.core.st
      if w.left t then s.windowTrap v e.instr
      else if x.pc = e.ctx.pc + 4 then .next ((w.modSt (fun _ => (t.merge e x).nextTurn)).takeOut)
      else .next (w.modSt (fun _ => t.merge e x))
    | o => o
/-- The same, with what the row may overwrite kept at its beginning (R391). -/
def State.runRow (s : State) : Out :=
  let t := s.core.st
  match t.hist, t.queue with
  | none, e :: _ => (s.modSt (fun t => { t with hist := some (t.toHist e.ctx.kfctl) })).runTurn
  | _, _ => s.runTurn

/-- The vector unit of the core in turn takes its next step: a window that has started goes on, or one of at most n instructions starts (R391). `scalar` says that the scalar unit cannot go on: an instruction that resumes with others waits for them only while it can (R392). -/
def State.runVector (s : State) (n : Nat) (scalar : State → Bool) : Out :=
  let s := s.takeOut
  let t := s.core.st
  match t.queue with
  | [] => .next s
  | e :: _ =>
    let again := if e.ctx.resFirst.isSome then e.ctx.resN else 0
    if s.boot != .full || s.core.phase != .run || t.status != .running || t.wait != .none || !t.out.isEmpty then .next s
    else if 2 ≤ t.win then s.runRow
    else if t.begun then s.runAlone e
    else if t.queue.length < again + 1 && !scalar s then .next s
    else
      let k := s.window (min Config.windowMax (max n (again + 1)))
      if k < 2 then s.runAlone e else (s.modSt (fun t => { t with win := k, row := e.start, turn := 0, hist := none })).runRow

end Sys2Proof.Machine
end

