-- ==== Sys2Proof/Machine/Issue.lean ====
section
/-!
DEFINITION. How a core's move runs: fetch, decode, the deferred causes that stand before an instruction (R400, R403, R429), the instruction itself.
-/
namespace Sys2Proof.Machine

/-- What follows every move: waiting packets leave for the fabric (R359). -/
def settle (o : Out) : Out :=
  match o with
  | .next s => .next s.transmit
  | .fault f => .fault f
  | .refused r => .refused r

/-- The strand's operands free of marks and errors. -/
def State.unmarked (s : State) : State :=
  { s with badK := [], core := { s.core with badK := [], st := { s.core.st with marks := Vector.replicate 32 .ok, badMasks := 0, badK := [] } } }.modGang s.core.st.gang
    (fun g => { g with badK := [] })

/-- The cause with which an instruction would trap. (DEDUCED, log 38) -/
def State.wouldTrap (s : State) (i : Instr) : Option (BitVec 8) :=
  match exec i s.bare with
  | .next t => if s.contains.length < t.contains.length then (t.contains.getLast?).map (·.cause) else none
  | _ => none
/-- An instruction that would leave the machine as it is. -/
def State.wouldWait (s : State) (i : Instr) : Bool :=
  match exec i s with
  | .next t => t == s
  | _ => false

/-- KRD and KWR name a K-register in the word. -/
def namesK (i : Instr) : Bool :=
  match i with
  | .krd _ _ => true
  | .kwr _ _ => true
  | _ => false

/-- Checks 2 to 5 and 6, 7 of R400 stand before a deferred cause (R429): privilege, K-register number, operands, KVTYPE, element type. (DEDUCED, log 38) -/
def State.failsEarly (s : State) (i : Instr) : Bool :=
  match s.wouldTrap i with
  | none => s.core.st.anyPending && s.wouldWait i && !s.unmarked.wouldWait i
  | some c => c == 0x01 || c == 0x03 || c == 0x04 || (c == 0x02 && namesK i) || s.unmarked.wouldTrap i != some c
/-- A decoded instruction commits. A deferred cause that may be taken stands at check 8 of it (R400, R429), but for an instruction that has begun: that one goes on to its end, the next boundary. (DEDUCED, log 38) -/
def State.commit (s : State) (i : Instr) : Out :=
  if s.core.st.mayDefer && !s.core.st.begun && !s.failsEarly i then
    (if s.core.st.drained then exec .deferredTrap (s.modSt (fun t => { t with checked := true })) else .next s)
  else exec i s

/-- An instruction issued (R302, R390). With the queue empty it commits at once, unless it is one of the queue that is to stay there, or that resumes inside a window; behind others it enters the queue, waits for it to empty, or is provisional. (DESIGN CHOICE, log 10) -/
def State.issueOne (s : State) (stay : Bool) (i : Instr) : Out :=
  let t := s.core.st
  if t.queue.isEmpty then
    if !t.out.isEmpty && (inQueue i || waitsForQueue i) then .next s
    else if inQueue i && (stay || t.resN != 0) && !t.mayDefer then
      (match s.enqueue i with
       | some u => .next u
       | none => s.commit i)
    else s.commit i
  else if t.mayDefer || waitsForQueue i || (setsVl i && t.queue.any (fun q => isFirstFault q.instr)) then .next s
  else if inQueue i then .next ((s.enqueue i).getD s)
  else s.provisional i

/-- The strand in the slot of the core in turn fetches and issues one instruction (R400, R403). -/
def State.runStrand (s : State) (stay : Bool) : Out :=
  if !s.canIssue then .next s
  else match s.fetch with
  | .held => .next s
  | .fault _ _ => exec .fetchFault s
  | .remote dev pa key => .next (s.askCode dev pa key)
  | .word w x pa key miss =>
    match decodeWord w with
    | .illegal _ => exec .illegalEncoding (s.useCode x pa key miss)
    | .instr i => (s.useCode x pa key miss).issueOne stay i

/-- A core's move (DESIGN CHOICE, log 7). -/
def State.moveCore (s : State) (c : Nat) : Out := settle ((s.turnTo c).runStrand false)
/-- The same, and a vector instruction stays in the queue. (DESIGN CHOICE, log 7) -/
def State.moveQueue (s : State) (c : Nat) : Out := settle ((s.turnTo c).runStrand true)
/-- The scalar unit of the core in turn does nothing now. -/
def State.scalarWaits (s : State) : Bool := match s.runStrand false with | .next t => t == s | _ => true
/-- It cannot go on before the vector queue does: with the queue out of its way it would. A wait for anything else passes (R392). -/
def State.scalarStuck (s : State) : Bool :=
  s.scalarWaits && !(s.modSt (fun t => { t with
    queue := [], marks := t.marks.map (fun m => match m with | .queued _ => .ok | m => m) })).scalarWaits
/-- A step of a core's vector unit. (DESIGN CHOICE, log 7) -/
def State.moveVector (s : State) (c n : Nat) : Out := settle ((s.turnTo c).runVector n State.scalarStuck)
/-- An event's move: its pick-th occurrence. (DESIGN CHOICE, log 7) -/
def State.moveEvent (s : State) (i : Instr) (k : Nat) : Out := settle (exec i { s with pick := k })
/-- A strand whose instruction has not completed, with nothing queued. -/
def Strand.stays (t u : Strand) : Bool := t.same u && u.status == .running && t.pc == u.pc && t.queue.isEmpty && u.queue.isEmpty
/-- The policy's move for a core: by turns its scalar and its vector unit while instructions are queued; an instruction that cannot complete at once goes into the queue where it may (R302). (DESIGN CHOICE, log 7) -/
def State.autoCore (s : State) (c : Nat) : Out :=
  let t := (s.coreAt c).st
  if !t.queue.isEmpty && s.now / 2 / max 1 s.issuers.length % 2 = 0 then s.moveVector c Config.windowMax
  else match s.moveCore c with
    | .next w => if t.stays w.core.st then s.moveQueue c else .next w
    | o => o
/-- The policy's move. (DESIGN CHOICE, log 7) -/
def State.moveAuto (s : State) : Out :=
  match s.auto with
  | .event t => settle (.next t)
  | .core c => s.autoCore c
  | .idle => .next s

/-- How a word comes to stand at the pc (DESIGN CHOICE, log 7): the machine in full mode, a running strand in the slot, its page mapped one to one onto flat HBM, its caches without the old word. -/
def State.place (s : State) (pc : Pc) (v : Nat) : State :=
  let a := pc.toNat
  let x : Xlat := ⟨s.asid, a / 65536, false, 0, 0, false, 0, true, true, true, true⟩
  let pa := a % 65536
  let fresh := fun (l : L1Line) => l.line % 2 ^ 48 != pa / 64
  { s with
    agenda := [.run s.core.id], boot := .full, hbmQ := 4
    mem := writeNat s.mem pa 4 v, memPsn := delFrom s.memPsn (pa / 64), dead := delFrom s.dead (pa / 4096)
    l2 := s.l2.filter (fun l => l.line != pa / 64), invals := s.invals.filter (fun i => i.line != pa / 64)
    l1Fills := s.l1Fills.filter (fun f => f.line % 2 ^ 48 != pa / 64)
    core := { s.core with
      phase := .run, slotFrom := s.now, tlb := x :: s.core.tlb, icache := s.core.icache.filter fresh
      st := { s.core.st with
        pc := pc, status := .running, wait := .none, inPlace := false, deferred := [], saving := false
        resN := 0, vq := none, prog := none, queue := [], win := 0, row := 0, turn := 0, hist := none, out := [], answers := [], asked := false, code := none } } }

end Sys2Proof.Machine
end

