-- ==== Sys2Proof/Machine/Step.lean ====
section
/-!
DEFINITION. One step: the next move of the agenda, or of the policy.
-/
namespace Sys2Proof.Machine

/-- One step (DESIGN CHOICE, log 7): a core that does not exist and an encoded instruction named as an event are no moves. -/
def step (s : State) : Host.Outcome State Fault Refusal :=
  let s := { s with now := s.now + 1 }
  match s.agenda with
  | [] => s.moveAuto
  | .run c :: r => if Config.cores ≤ c then .fault .noSuchCore else { s with agenda := r }.moveCore c
  | .queue c :: r => if Config.cores ≤ c then .fault .noSuchCore else { s with agenda := r }.moveQueue c
  | .vector c n :: r => if Config.cores ≤ c then .fault .noSuchCore else { s with agenda := r }.moveVector c n
  | .event i k :: r => if (encode i).isSome then .fault .notAnEvent else { s with agenda := r }.moveEvent i k
  | .pass n :: r => .next { s with agenda := r, now := s.now + n }

/-- A word of the opcode table placed where the next step fetches (DESIGN CHOICE, log 7): the table's bits are the one 32-bit word of every instruction, stored little-endian. -/
def State.withFetchWord (s : State) (_nbits w : Nat) : State :=
  s.place (if bits s.core.st.pc.toNat 54 53 == 3 then 0 else s.core.st.pc &&& ~~~3#55) (w % 2 ^ 32)

end Sys2Proof.Machine
end

