-- ==== Sys2Proof/Laws/State.lean ====
section
/-!
SUPPORT. What a change of the core in turn, or of the strand in its slot, leaves and sets, field by field, and the register and vector writes as such changes.
-/
namespace Sys2Proof.Machine

@[simp] theorem State.modCore_now (s : State) (f : Core → Core) : (s.modCore f).now = s.now := rfl
@[simp] theorem State.modCore_agenda (s : State) (f : Core → Core) : (s.modCore f).agenda = s.agenda := rfl
@[simp] theorem State.modCore_pick (s : State) (f : Core → Core) : (s.modCore f).pick = s.pick := rfl
@[simp] theorem State.modCore_choices (s : State) (f : Core → Core) : (s.modCore f).choices = s.choices := rfl
@[simp] theorem State.modCore_freeCtr (s : State) (f : Core → Core) : (s.modCore f).freeCtr = s.freeCtr := rfl
@[simp] theorem State.modCore_nextId (s : State) (f : Core → Core) : (s.modCore f).nextId = s.nextId := rfl
@[simp] theorem State.modCore_others (s : State) (f : Core → Core) : (s.modCore f).others = s.others := rfl
@[simp] theorem State.modCore_gangs (s : State) (f : Core → Core) : (s.modCore f).gangs = s.gangs := rfl
@[simp] theorem State.modCore_waiting (s : State) (f : Core → Core) : (s.modCore f).waiting = s.waiting := rfl
@[simp] theorem State.modCore_spawns (s : State) (f : Core → Core) : (s.modCore f).spawns = s.spawns := rfl
@[simp] theorem State.modCore_contains (s : State) (f : Core → Core) : (s.modCore f).contains = s.contains := rfl
@[simp] theorem State.modCore_reductions (s : State) (f : Core → Core) : (s.modCore f).reductions = s.reductions := rfl
@[simp] theorem State.modCore_mem (s : State) (f : Core → Core) : (s.modCore f).mem = s.mem := rfl
@[simp] theorem State.modCore_memPsn (s : State) (f : Core → Core) : (s.modCore f).memPsn = s.memPsn := rfl
@[simp] theorem State.modCore_dead (s : State) (f : Core → Core) : (s.modCore f).dead = s.dead := rfl
@[simp] theorem State.modCore_l2 (s : State) (f : Core → Core) : (s.modCore f).l2 = s.l2 := rfl
@[simp] theorem State.modCore_frames (s : State) (f : Core → Core) : (s.modCore f).frames = s.frames := rfl
@[simp] theorem State.modCore_port (s : State) (f : Core → Core) : (s.modCore f).port = s.port := rfl
@[simp] theorem State.modCore_portPsn (s : State) (f : Core → Core) : (s.modCore f).portPsn = s.portPsn := rfl
@[simp] theorem State.modCore_stale (s : State) (f : Core → Core) : (s.modCore f).stale = s.stale := rfl
@[simp] theorem State.modCore_ports (s : State) (f : Core → Core) : (s.modCore f).ports = s.ports := rfl
@[simp] theorem State.modCore_keys (s : State) (f : Core → Core) : (s.modCore f).keys = s.keys := rfl
@[simp] theorem State.modCore_keyData (s : State) (f : Core → Core) : (s.modCore f).keyData = s.keyData := rfl
@[simp] theorem State.modCore_invals (s : State) (f : Core → Core) : (s.modCore f).invals = s.invals := rfl
@[simp] theorem State.modCore_l1Fills (s : State) (f : Core → Core) : (s.modCore f).l1Fills = s.l1Fills := rfl
@[simp] theorem State.modCore_hub0 (s : State) (f : Core → Core) : (s.modCore f).hub0 = s.hub0 := rfl
@[simp] theorem State.modCore_hub1 (s : State) (f : Core → Core) : (s.modCore f).hub1 = s.hub1 := rfl
@[simp] theorem State.modCore_walks (s : State) (f : Core → Core) : (s.modCore f).walks = s.walks := rfl
@[simp] theorem State.modCore_hbmQ (s : State) (f : Core → Core) : (s.modCore f).hbmQ = s.hbmQ := rfl
@[simp] theorem State.modCore_cellarKiB (s : State) (f : Core → Core) : (s.modCore f).cellarKiB = s.cellarKiB := rfl
@[simp] theorem State.modCore_portsW (s : State) (f : Core → Core) : (s.modCore f).portsW = s.portsW := rfl
@[simp] theorem State.modCore_xfers (s : State) (f : Core → Core) : (s.modCore f).xfers = s.xfers := rfl
@[simp] theorem State.modCore_tokMsgs (s : State) (f : Core → Core) : (s.modCore f).tokMsgs = s.tokMsgs := rfl
@[simp] theorem State.modCore_replies (s : State) (f : Core → Core) : (s.modCore f).replies = s.replies := rfl
@[simp] theorem State.modCore_fills (s : State) (f : Core → Core) : (s.modCore f).fills = s.fills := rfl
@[simp] theorem State.modCore_combines (s : State) (f : Core → Core) : (s.modCore f).combines = s.combines := rfl
@[simp] theorem State.modCore_retries (s : State) (f : Core → Core) : (s.modCore f).retries = s.retries := rfl
@[simp] theorem State.modCore_fillEnds (s : State) (f : Core → Core) : (s.modCore f).fillEnds = s.fillEnds := rfl
@[simp] theorem State.modCore_groups (s : State) (f : Core → Core) : (s.modCore f).groups = s.groups := rfl
@[simp] theorem State.modCore_holds (s : State) (f : Core → Core) : (s.modCore f).holds = s.holds := rfl
@[simp] theorem State.modCore_groupReqs (s : State) (f : Core → Core) : (s.modCore f).groupReqs = s.groupReqs := rfl
@[simp] theorem State.modCore_pieces (s : State) (f : Core → Core) : (s.modCore f).pieces = s.pieces := rfl
@[simp] theorem State.modCore_porch (s : State) (f : Core → Core) : (s.modCore f).porch = s.porch := rfl
@[simp] theorem State.modCore_queues (s : State) (f : Core → Core) : (s.modCore f).queues = s.queues := rfl
@[simp] theorem State.modCore_notified (s : State) (f : Core → Core) : (s.modCore f).notified = s.notified := rfl
@[simp] theorem State.modCore_scanAt (s : State) (f : Core → Core) : (s.modCore f).scanAt = s.scanAt := rfl
@[simp] theorem State.modCore_pkts (s : State) (f : Core → Core) : (s.modCore f).pkts = s.pkts := rfl
@[simp] theorem State.modCore_ctlWrites (s : State) (f : Core → Core) : (s.modCore f).ctlWrites = s.ctlWrites := rfl
@[simp] theorem State.modCore_hmEn (s : State) (f : Core → Core) : (s.modCore f).hmEn = s.hmEn := rfl
@[simp] theorem State.modCore_hmSize (s : State) (f : Core → Core) : (s.modCore f).hmSize = s.hmSize := rfl
@[simp] theorem State.modCore_hmBase (s : State) (f : Core → Core) : (s.modCore f).hmBase = s.hmBase := rfl
@[simp] theorem State.modCore_hmWr (s : State) (f : Core → Core) : (s.modCore f).hmWr = s.hmWr := rfl
@[simp] theorem State.modCore_hmRd (s : State) (f : Core → Core) : (s.modCore f).hmRd = s.hmRd := rfl
@[simp] theorem State.modCore_hmLost (s : State) (f : Core → Core) : (s.modCore f).hmLost = s.hmLost := rfl
@[simp] theorem State.modCore_hmKept (s : State) (f : Core → Core) : (s.modCore f).hmKept = s.hmKept := rfl
@[simp] theorem State.modCore_hostReqs (s : State) (f : Core → Core) : (s.modCore f).hostReqs = s.hostReqs := rfl
@[simp] theorem State.modCore_hostOut (s : State) (f : Core → Core) : (s.modCore f).hostOut = s.hostOut := rfl
@[simp] theorem State.modCore_hostMem (s : State) (f : Core → Core) : (s.modCore f).hostMem = s.hostMem := rfl
@[simp] theorem State.modCore_kdev (s : State) (f : Core → Core) : (s.modCore f).kdev = s.kdev := rfl
@[simp] theorem State.modCore_planes (s : State) (f : Core → Core) : (s.modCore f).planes = s.planes := rfl
@[simp] theorem State.modCore_flink (s : State) (f : Core → Core) : (s.modCore f).flink = s.flink := rfl
@[simp] theorem State.modCore_fdisc (s : State) (f : Core → Core) : (s.modCore f).fdisc = s.fdisc := rfl
@[simp] theorem State.modCore_quiesce (s : State) (f : Core → Core) : (s.modCore f).quiesce = s.quiesce := rfl
@[simp] theorem State.modCore_fbridge (s : State) (f : Core → Core) : (s.modCore f).fbridge = s.fbridge := rfl
@[simp] theorem State.modCore_fence (s : State) (f : Core → Core) : (s.modCore f).fence = s.fence := rfl
@[simp] theorem State.modCore_pairs (s : State) (f : Core → Core) : (s.modCore f).pairs = s.pairs := rfl
@[simp] theorem State.modCore_txq (s : State) (f : Core → Core) : (s.modCore f).txq = s.txq := rfl
@[simp] theorem State.modCore_sent (s : State) (f : Core → Core) : (s.modCore f).sent = s.sent := rfl
@[simp] theorem State.modCore_rxBlocks (s : State) (f : Core → Core) : (s.modCore f).rxBlocks = s.rxBlocks := rfl
@[simp] theorem State.modCore_rxFlits (s : State) (f : Core → Core) : (s.modCore f).rxFlits = s.rxFlits := rfl
@[simp] theorem State.modCore_rxParts (s : State) (f : Core → Core) : (s.modCore f).rxParts = s.rxParts := rfl
@[simp] theorem State.modCore_rx (s : State) (f : Core → Core) : (s.modCore f).rx = s.rx := rfl
@[simp] theorem State.modCore_reqs (s : State) (f : Core → Core) : (s.modCore f).reqs = s.reqs := rfl
@[simp] theorem State.modCore_joins (s : State) (f : Core → Core) : (s.modCore f).joins = s.joins := rfl
@[simp] theorem State.modCore_fabricLost (s : State) (f : Core → Core) : (s.modCore f).fabricLost = s.fabricLost := rfl
@[simp] theorem State.modCore_casts (s : State) (f : Core → Core) : (s.modCore f).casts = s.casts := rfl
@[simp] theorem State.modCore_shadowCasts (s : State) (f : Core → Core) : (s.modCore f).shadowCasts = s.shadowCasts := rfl
@[simp] theorem State.modCore_boot (s : State) (f : Core → Core) : (s.modCore f).boot = s.boot := rfl
@[simp] theorem State.modCore_stage (s : State) (f : Core → Core) : (s.modCore f).stage = s.stage := rfl
@[simp] theorem State.modCore_fail (s : State) (f : Core → Core) : (s.modCore f).fail = s.fail := rfl
@[simp] theorem State.modCore_record (s : State) (f : Core → Core) : (s.modCore f).record = s.record := rfl
@[simp] theorem State.modCore_fuseVersion (s : State) (f : Core → Core) : (s.modCore f).fuseVersion = s.fuseVersion := rfl
@[simp] theorem State.modCore_measure (s : State) (f : Core → Core) : (s.modCore f).measure = s.measure := rfl
@[simp] theorem State.modCore_mlog (s : State) (f : Core → Core) : (s.modCore f).mlog = s.mlog := rfl
@[simp] theorem State.modCore_nonces (s : State) (f : Core → Core) : (s.modCore f).nonces = s.nonces := rfl
@[simp] theorem State.modCore_quotes (s : State) (f : Core → Core) : (s.modCore f).quotes = s.quotes := rfl
@[simp] theorem State.modCore_coresFrom (s : State) (f : Core → Core) : (s.modCore f).coresFrom = s.coresFrom := rfl
@[simp] theorem State.modCore_plim (s : State) (f : Core → Core) : (s.modCore f).plim = s.plim := rfl
@[simp] theorem State.modCore_pwr (s : State) (f : Core → Core) : (s.modCore f).pwr = s.pwr := rfl
@[simp] theorem State.modCore_tmax (s : State) (f : Core → Core) : (s.modCore f).tmax = s.tmax := rfl
@[simp] theorem State.modCore_upBlocked (s : State) (f : Core → Core) : (s.modCore f).upBlocked = s.upBlocked := rfl
@[simp] theorem State.modCore_hot (s : State) (f : Core → Core) : (s.modCore f).hot = s.hot := rfl
@[simp] theorem State.modCore_opMoves (s : State) (f : Core → Core) : (s.modCore f).opMoves = s.opMoves := rfl
@[simp] theorem State.modCore_hflush (s : State) (f : Core → Core) : (s.modCore f).hflush = s.hflush := rfl
@[simp] theorem State.modCore_meEn (s : State) (f : Core → Core) : (s.modCore f).meEn = s.meEn := rfl
@[simp] theorem State.modCore_meSize (s : State) (f : Core → Core) : (s.modCore f).meSize = s.meSize := rfl
@[simp] theorem State.modCore_meBase (s : State) (f : Core → Core) : (s.modCore f).meBase = s.meBase := rfl
@[simp] theorem State.modCore_meWr (s : State) (f : Core → Core) : (s.modCore f).meWr = s.meWr := rfl
@[simp] theorem State.modCore_meRd (s : State) (f : Core → Core) : (s.modCore f).meRd = s.meRd := rfl
@[simp] theorem State.modCore_meLost (s : State) (f : Core → Core) : (s.modCore f).meLost = s.meLost := rfl
@[simp] theorem State.modCore_mece (s : State) (f : Core → Core) : (s.modCore f).mece = s.mece := rfl
@[simp] theorem State.modCore_errors (s : State) (f : Core → Core) : (s.modCore f).errors = s.errors := rfl
@[simp] theorem State.modCore_egress (s : State) (f : Core → Core) : (s.modCore f).egress = s.egress := rfl
@[simp] theorem State.modCore_txFlits (s : State) (f : Core → Core) : (s.modCore f).txFlits = s.txFlits := rfl
@[simp] theorem State.modCore_txBlocks (s : State) (f : Core → Core) : (s.modCore f).txBlocks = s.txBlocks := rfl
@[simp] theorem State.modCore_credit (s : State) (f : Core → Core) : (s.modCore f).credit = s.credit := rfl
@[simp] theorem State.modCore_switchOut (s : State) (f : Core → Core) : (s.modCore f).switchOut = s.switchOut := rfl
@[simp] theorem State.modCore_switchAcks (s : State) (f : Core → Core) : (s.modCore f).switchAcks = s.switchAcks := rfl
@[simp] theorem State.modCore_vendorKey (s : State) (f : Core → Core) : (s.modCore f).vendorKey = s.vendorKey := rfl
@[simp] theorem State.modCore_throttledAt (s : State) (f : Core → Core) : (s.modCore f).throttledAt = s.throttledAt := rfl
@[simp] theorem State.modCore_badK (s : State) (f : Core → Core) : (s.modCore f).badK = s.badK := rfl

@[simp] theorem State.modSt_now (s : State) (f : Strand → Strand) : (s.modSt f).now = s.now := rfl
@[simp] theorem State.modSt_agenda (s : State) (f : Strand → Strand) : (s.modSt f).agenda = s.agenda := rfl
@[simp] theorem State.modSt_pick (s : State) (f : Strand → Strand) : (s.modSt f).pick = s.pick := rfl
@[simp] theorem State.modSt_choices (s : State) (f : Strand → Strand) : (s.modSt f).choices = s.choices := rfl
@[simp] theorem State.modSt_freeCtr (s : State) (f : Strand → Strand) : (s.modSt f).freeCtr = s.freeCtr := rfl
@[simp] theorem State.modSt_nextId (s : State) (f : Strand → Strand) : (s.modSt f).nextId = s.nextId := rfl
@[simp] theorem State.modSt_others (s : State) (f : Strand → Strand) : (s.modSt f).others = s.others := rfl
@[simp] theorem State.modSt_gangs (s : State) (f : Strand → Strand) : (s.modSt f).gangs = s.gangs := rfl
@[simp] theorem State.modSt_waiting (s : State) (f : Strand → Strand) : (s.modSt f).waiting = s.waiting := rfl
@[simp] theorem State.modSt_spawns (s : State) (f : Strand → Strand) : (s.modSt f).spawns = s.spawns := rfl
@[simp] theorem State.modSt_contains (s : State) (f : Strand → Strand) : (s.modSt f).contains = s.contains := rfl
@[simp] theorem State.modSt_reductions (s : State) (f : Strand → Strand) : (s.modSt f).reductions = s.reductions := rfl
@[simp] theorem State.modSt_mem (s : State) (f : Strand → Strand) : (s.modSt f).mem = s.mem := rfl
@[simp] theorem State.modSt_memPsn (s : State) (f : Strand → Strand) : (s.modSt f).memPsn = s.memPsn := rfl
@[simp] theorem State.modSt_dead (s : State) (f : Strand → Strand) : (s.modSt f).dead = s.dead := rfl
@[simp] theorem State.modSt_l2 (s : State) (f : Strand → Strand) : (s.modSt f).l2 = s.l2 := rfl
@[simp] theorem State.modSt_frames (s : State) (f : Strand → Strand) : (s.modSt f).frames = s.frames := rfl
@[simp] theorem State.modSt_port (s : State) (f : Strand → Strand) : (s.modSt f).port = s.port := rfl
@[simp] theorem State.modSt_portPsn (s : State) (f : Strand → Strand) : (s.modSt f).portPsn = s.portPsn := rfl
@[simp] theorem State.modSt_stale (s : State) (f : Strand → Strand) : (s.modSt f).stale = s.stale := rfl
@[simp] theorem State.modSt_ports (s : State) (f : Strand → Strand) : (s.modSt f).ports = s.ports := rfl
@[simp] theorem State.modSt_keys (s : State) (f : Strand → Strand) : (s.modSt f).keys = s.keys := rfl
@[simp] theorem State.modSt_keyData (s : State) (f : Strand → Strand) : (s.modSt f).keyData = s.keyData := rfl
@[simp] theorem State.modSt_invals (s : State) (f : Strand → Strand) : (s.modSt f).invals = s.invals := rfl
@[simp] theorem State.modSt_l1Fills (s : State) (f : Strand → Strand) : (s.modSt f).l1Fills = s.l1Fills := rfl
@[simp] theorem State.modSt_hub0 (s : State) (f : Strand → Strand) : (s.modSt f).hub0 = s.hub0 := rfl
@[simp] theorem State.modSt_hub1 (s : State) (f : Strand → Strand) : (s.modSt f).hub1 = s.hub1 := rfl
@[simp] theorem State.modSt_walks (s : State) (f : Strand → Strand) : (s.modSt f).walks = s.walks := rfl
@[simp] theorem State.modSt_hbmQ (s : State) (f : Strand → Strand) : (s.modSt f).hbmQ = s.hbmQ := rfl
@[simp] theorem State.modSt_cellarKiB (s : State) (f : Strand → Strand) : (s.modSt f).cellarKiB = s.cellarKiB := rfl
@[simp] theorem State.modSt_portsW (s : State) (f : Strand → Strand) : (s.modSt f).portsW = s.portsW := rfl
@[simp] theorem State.modSt_xfers (s : State) (f : Strand → Strand) : (s.modSt f).xfers = s.xfers := rfl
@[simp] theorem State.modSt_tokMsgs (s : State) (f : Strand → Strand) : (s.modSt f).tokMsgs = s.tokMsgs := rfl
@[simp] theorem State.modSt_replies (s : State) (f : Strand → Strand) : (s.modSt f).replies = s.replies := rfl
@[simp] theorem State.modSt_fills (s : State) (f : Strand → Strand) : (s.modSt f).fills = s.fills := rfl
@[simp] theorem State.modSt_combines (s : State) (f : Strand → Strand) : (s.modSt f).combines = s.combines := rfl
@[simp] theorem State.modSt_retries (s : State) (f : Strand → Strand) : (s.modSt f).retries = s.retries := rfl
@[simp] theorem State.modSt_fillEnds (s : State) (f : Strand → Strand) : (s.modSt f).fillEnds = s.fillEnds := rfl
@[simp] theorem State.modSt_groups (s : State) (f : Strand → Strand) : (s.modSt f).groups = s.groups := rfl
@[simp] theorem State.modSt_holds (s : State) (f : Strand → Strand) : (s.modSt f).holds = s.holds := rfl
@[simp] theorem State.modSt_groupReqs (s : State) (f : Strand → Strand) : (s.modSt f).groupReqs = s.groupReqs := rfl
@[simp] theorem State.modSt_pieces (s : State) (f : Strand → Strand) : (s.modSt f).pieces = s.pieces := rfl
@[simp] theorem State.modSt_porch (s : State) (f : Strand → Strand) : (s.modSt f).porch = s.porch := rfl
@[simp] theorem State.modSt_queues (s : State) (f : Strand → Strand) : (s.modSt f).queues = s.queues := rfl
@[simp] theorem State.modSt_notified (s : State) (f : Strand → Strand) : (s.modSt f).notified = s.notified := rfl
@[simp] theorem State.modSt_scanAt (s : State) (f : Strand → Strand) : (s.modSt f).scanAt = s.scanAt := rfl
@[simp] theorem State.modSt_pkts (s : State) (f : Strand → Strand) : (s.modSt f).pkts = s.pkts := rfl
@[simp] theorem State.modSt_ctlWrites (s : State) (f : Strand → Strand) : (s.modSt f).ctlWrites = s.ctlWrites := rfl
@[simp] theorem State.modSt_hmEn (s : State) (f : Strand → Strand) : (s.modSt f).hmEn = s.hmEn := rfl
@[simp] theorem State.modSt_hmSize (s : State) (f : Strand → Strand) : (s.modSt f).hmSize = s.hmSize := rfl
@[simp] theorem State.modSt_hmBase (s : State) (f : Strand → Strand) : (s.modSt f).hmBase = s.hmBase := rfl
@[simp] theorem State.modSt_hmWr (s : State) (f : Strand → Strand) : (s.modSt f).hmWr = s.hmWr := rfl
@[simp] theorem State.modSt_hmRd (s : State) (f : Strand → Strand) : (s.modSt f).hmRd = s.hmRd := rfl
@[simp] theorem State.modSt_hmLost (s : State) (f : Strand → Strand) : (s.modSt f).hmLost = s.hmLost := rfl
@[simp] theorem State.modSt_hmKept (s : State) (f : Strand → Strand) : (s.modSt f).hmKept = s.hmKept := rfl
@[simp] theorem State.modSt_hostReqs (s : State) (f : Strand → Strand) : (s.modSt f).hostReqs = s.hostReqs := rfl
@[simp] theorem State.modSt_hostOut (s : State) (f : Strand → Strand) : (s.modSt f).hostOut = s.hostOut := rfl
@[simp] theorem State.modSt_hostMem (s : State) (f : Strand → Strand) : (s.modSt f).hostMem = s.hostMem := rfl
@[simp] theorem State.modSt_kdev (s : State) (f : Strand → Strand) : (s.modSt f).kdev = s.kdev := rfl
@[simp] theorem State.modSt_planes (s : State) (f : Strand → Strand) : (s.modSt f).planes = s.planes := rfl
@[simp] theorem State.modSt_flink (s : State) (f : Strand → Strand) : (s.modSt f).flink = s.flink := rfl
@[simp] theorem State.modSt_fdisc (s : State) (f : Strand → Strand) : (s.modSt f).fdisc = s.fdisc := rfl
@[simp] theorem State.modSt_quiesce (s : State) (f : Strand → Strand) : (s.modSt f).quiesce = s.quiesce := rfl
@[simp] theorem State.modSt_fbridge (s : State) (f : Strand → Strand) : (s.modSt f).fbridge = s.fbridge := rfl
@[simp] theorem State.modSt_fence (s : State) (f : Strand → Strand) : (s.modSt f).fence = s.fence := rfl
@[simp] theorem State.modSt_pairs (s : State) (f : Strand → Strand) : (s.modSt f).pairs = s.pairs := rfl
@[simp] theorem State.modSt_txq (s : State) (f : Strand → Strand) : (s.modSt f).txq = s.txq := rfl
@[simp] theorem State.modSt_sent (s : State) (f : Strand → Strand) : (s.modSt f).sent = s.sent := rfl
@[simp] theorem State.modSt_rxBlocks (s : State) (f : Strand → Strand) : (s.modSt f).rxBlocks = s.rxBlocks := rfl
@[simp] theorem State.modSt_rxFlits (s : State) (f : Strand → Strand) : (s.modSt f).rxFlits = s.rxFlits := rfl
@[simp] theorem State.modSt_rxParts (s : State) (f : Strand → Strand) : (s.modSt f).rxParts = s.rxParts := rfl
@[simp] theorem State.modSt_rx (s : State) (f : Strand → Strand) : (s.modSt f).rx = s.rx := rfl
@[simp] theorem State.modSt_reqs (s : State) (f : Strand → Strand) : (s.modSt f).reqs = s.reqs := rfl
@[simp] theorem State.modSt_joins (s : State) (f : Strand → Strand) : (s.modSt f).joins = s.joins := rfl
@[simp] theorem State.modSt_fabricLost (s : State) (f : Strand → Strand) : (s.modSt f).fabricLost = s.fabricLost := rfl
@[simp] theorem State.modSt_casts (s : State) (f : Strand → Strand) : (s.modSt f).casts = s.casts := rfl
@[simp] theorem State.modSt_shadowCasts (s : State) (f : Strand → Strand) : (s.modSt f).shadowCasts = s.shadowCasts := rfl
@[simp] theorem State.modSt_boot (s : State) (f : Strand → Strand) : (s.modSt f).boot = s.boot := rfl
@[simp] theorem State.modSt_stage (s : State) (f : Strand → Strand) : (s.modSt f).stage = s.stage := rfl
@[simp] theorem State.modSt_fail (s : State) (f : Strand → Strand) : (s.modSt f).fail = s.fail := rfl
@[simp] theorem State.modSt_record (s : State) (f : Strand → Strand) : (s.modSt f).record = s.record := rfl
@[simp] theorem State.modSt_fuseVersion (s : State) (f : Strand → Strand) : (s.modSt f).fuseVersion = s.fuseVersion := rfl
@[simp] theorem State.modSt_measure (s : State) (f : Strand → Strand) : (s.modSt f).measure = s.measure := rfl
@[simp] theorem State.modSt_mlog (s : State) (f : Strand → Strand) : (s.modSt f).mlog = s.mlog := rfl
@[simp] theorem State.modSt_nonces (s : State) (f : Strand → Strand) : (s.modSt f).nonces = s.nonces := rfl
@[simp] theorem State.modSt_quotes (s : State) (f : Strand → Strand) : (s.modSt f).quotes = s.quotes := rfl
@[simp] theorem State.modSt_coresFrom (s : State) (f : Strand → Strand) : (s.modSt f).coresFrom = s.coresFrom := rfl
@[simp] theorem State.modSt_plim (s : State) (f : Strand → Strand) : (s.modSt f).plim = s.plim := rfl
@[simp] theorem State.modSt_pwr (s : State) (f : Strand → Strand) : (s.modSt f).pwr = s.pwr := rfl
@[simp] theorem State.modSt_tmax (s : State) (f : Strand → Strand) : (s.modSt f).tmax = s.tmax := rfl
@[simp] theorem State.modSt_upBlocked (s : State) (f : Strand → Strand) : (s.modSt f).upBlocked = s.upBlocked := rfl
@[simp] theorem State.modSt_hot (s : State) (f : Strand → Strand) : (s.modSt f).hot = s.hot := rfl
@[simp] theorem State.modSt_opMoves (s : State) (f : Strand → Strand) : (s.modSt f).opMoves = s.opMoves := rfl
@[simp] theorem State.modSt_hflush (s : State) (f : Strand → Strand) : (s.modSt f).hflush = s.hflush := rfl
@[simp] theorem State.modSt_meEn (s : State) (f : Strand → Strand) : (s.modSt f).meEn = s.meEn := rfl
@[simp] theorem State.modSt_meSize (s : State) (f : Strand → Strand) : (s.modSt f).meSize = s.meSize := rfl
@[simp] theorem State.modSt_meBase (s : State) (f : Strand → Strand) : (s.modSt f).meBase = s.meBase := rfl
@[simp] theorem State.modSt_meWr (s : State) (f : Strand → Strand) : (s.modSt f).meWr = s.meWr := rfl
@[simp] theorem State.modSt_meRd (s : State) (f : Strand → Strand) : (s.modSt f).meRd = s.meRd := rfl
@[simp] theorem State.modSt_meLost (s : State) (f : Strand → Strand) : (s.modSt f).meLost = s.meLost := rfl
@[simp] theorem State.modSt_mece (s : State) (f : Strand → Strand) : (s.modSt f).mece = s.mece := rfl
@[simp] theorem State.modSt_errors (s : State) (f : Strand → Strand) : (s.modSt f).errors = s.errors := rfl
@[simp] theorem State.modSt_egress (s : State) (f : Strand → Strand) : (s.modSt f).egress = s.egress := rfl
@[simp] theorem State.modSt_txFlits (s : State) (f : Strand → Strand) : (s.modSt f).txFlits = s.txFlits := rfl
@[simp] theorem State.modSt_txBlocks (s : State) (f : Strand → Strand) : (s.modSt f).txBlocks = s.txBlocks := rfl
@[simp] theorem State.modSt_credit (s : State) (f : Strand → Strand) : (s.modSt f).credit = s.credit := rfl
@[simp] theorem State.modSt_switchOut (s : State) (f : Strand → Strand) : (s.modSt f).switchOut = s.switchOut := rfl
@[simp] theorem State.modSt_switchAcks (s : State) (f : Strand → Strand) : (s.modSt f).switchAcks = s.switchAcks := rfl
@[simp] theorem State.modSt_vendorKey (s : State) (f : Strand → Strand) : (s.modSt f).vendorKey = s.vendorKey := rfl
@[simp] theorem State.modSt_throttledAt (s : State) (f : Strand → Strand) : (s.modSt f).throttledAt = s.throttledAt := rfl
@[simp] theorem State.modSt_badK (s : State) (f : Strand → Strand) : (s.modSt f).badK = s.badK := rfl

@[simp] theorem State.modCore_core (s : State) (f : Core → Core) : (s.modCore f).core = f s.core := rfl
@[simp] theorem State.modSt_st (s : State) (f : Strand → Strand) : (s.modSt f).core.st = f s.core.st := rfl
@[simp] theorem State.modSt_core_id (s : State) (f : Strand → Strand) : (s.modSt f).core.id = s.core.id := rfl
@[simp] theorem State.modSt_core_phase (s : State) (f : Strand → Strand) : (s.modSt f).core.phase = s.core.phase := rfl
@[simp] theorem State.modSt_core_rest (s : State) (f : Strand → Strand) : (s.modSt f).core.rest = s.core.rest := rfl
@[simp] theorem State.modSt_core_slotFrom (s : State) (f : Strand → Strand) : (s.modSt f).core.slotFrom = s.core.slotFrom := rfl
@[simp] theorem State.modSt_core_freeFrom (s : State) (f : Strand → Strand) : (s.modSt f).core.freeFrom = s.core.freeFrom := rfl
@[simp] theorem State.modSt_core_grant (s : State) (f : Strand → Strand) : (s.modSt f).core.grant = s.core.grant := rfl
@[simp] theorem State.modSt_core_layout (s : State) (f : Strand → Strand) : (s.modSt f).core.layout = s.core.layout := rfl
@[simp] theorem State.modSt_core_reduceTo (s : State) (f : Strand → Strand) : (s.modSt f).core.reduceTo = s.core.reduceTo := rfl
@[simp] theorem State.modSt_core_sb (s : State) (f : Strand → Strand) : (s.modSt f).core.sb = s.core.sb := rfl
@[simp] theorem State.modSt_core_l1 (s : State) (f : Strand → Strand) : (s.modSt f).core.l1 = s.core.l1 := rfl
@[simp] theorem State.modSt_core_icache (s : State) (f : Strand → Strand) : (s.modSt f).core.icache = s.core.icache := rfl
@[simp] theorem State.modSt_core_tlb (s : State) (f : Strand → Strand) : (s.modSt f).core.tlb = s.core.tlb := rfl
@[simp] theorem State.modSt_core_pad (s : State) (f : Strand → Strand) : (s.modSt f).core.pad = s.core.pad := rfl
@[simp] theorem State.modSt_core_padPsn (s : State) (f : Strand → Strand) : (s.modSt f).core.padPsn = s.core.padPsn := rfl
@[simp] theorem State.modSt_core_tiles (s : State) (f : Strand → Strand) : (s.modSt f).core.tiles = s.core.tiles := rfl
@[simp] theorem State.modSt_core_overrun (s : State) (f : Strand → Strand) : (s.modSt f).core.overrun = s.core.overrun := rfl
@[simp] theorem State.modSt_core_tokens (s : State) (f : Strand → Strand) : (s.modSt f).core.tokens = s.core.tokens := rfl
@[simp] theorem State.modSt_core_locks (s : State) (f : Strand → Strand) : (s.modSt f).core.locks = s.core.locks := rfl
@[simp] theorem State.modSt_core_mv (s : State) (f : Strand → Strand) : (s.modSt f).core.mv = s.core.mv := rfl
@[simp] theorem State.modSt_core_mhz (s : State) (f : Strand → Strand) : (s.modSt f).core.mhz = s.core.mhz := rfl
@[simp] theorem State.modSt_core_badK (s : State) (f : Strand → Strand) : (s.modSt f).core.badK = s.core.badK := rfl
@[simp] theorem State.modSt_core_homing (s : State) (f : Strand → Strand) : (s.modSt f).core.homing = s.core.homing := rfl

/-- Two changes of the strand in the slot are one. -/
@[simp] theorem State.modSt_modSt (s : State) (f g : Strand → Strand) : (s.modSt f).modSt g = s.modSt (fun t => g (f t)) := rfl

/-- A change that changes nothing. -/
@[simp] theorem State.modSt_id (s : State) : s.modSt (fun t => t) = s := rfl

/-- A register write is a change of the strand in the slot alone. -/
theorem State.setReg_eq_modSt (s : State) (r : BitVec 5) (v : Word) : s.setReg r v = s.modSt (fun t => if r = 0 then t else { t with regs := t.regs.set r.toNat v, marks := t.marks.set r.toNat .ok }) := by
  unfold State.setReg
  split <;> rfl

/-- s0 discards what is written to it. -/
@[simp] theorem State.setReg_zero (s : State) (v : Word) : s.setReg 0 v = s := rfl

/-- s0 reads as zero. -/
@[simp] theorem State.reg_zero (s : State) : s.reg 0 = 0 := rfl

/-- A register reads what was last written to it. -/
theorem State.reg_setReg_same (s : State) (r : BitVec 5) (v : Word) (h : r ≠ 0) : (s.setReg r v).reg r = v := by
  rw [State.setReg_eq_modSt, State.reg, if_neg h, State.modSt_st, if_neg h]
  exact Vector.getElem_set_self _

/-- A write to one register leaves the others. -/
theorem State.reg_setReg_other (s : State) (r q : BitVec 5) (v : Word) (h : q ≠ r) : (s.setReg r v).reg q = s.reg q := by
  rw [State.setReg_eq_modSt]
  unfold State.reg
  split
  · rfl
  · have : r.toNat ≠ q.toNat := fun e => h (BitVec.eq_of_toNat_eq e.symm)
    rw [State.modSt_st]
    split
    · rfl
    · exact Vector.getElem_set_ne r.isLt q.isLt this

/-- Every write keeps s0 at zero. -/
theorem State.reg_zero_setReg (s : State) (r : BitVec 5) (v : Word) : (s.setReg r v).reg 0 = 0 := rfl

/-- A register write leaves memory. -/
@[simp] theorem State.setReg_mem (s : State) (r : BitVec 5) (v : Word) : (s.setReg r v).mem = s.mem := by
  unfold State.setReg; split <;> rfl

/-- What a register write leaves of the core in turn: everything but the strand in its slot. -/
theorem State.setReg_core (s : State) (r : BitVec 5) (v : Word) : (s.setReg r v).core = { s.core with st := (s.setReg r v).core.st } := by
  unfold State.setReg; split <;> rfl

/-- The next instruction is at pc + 4. -/
@[simp] theorem State.finish_pc (s : State) : s.finish.core.st.pc = s.core.st.pc + 4 := rfl
@[simp] theorem State.finish_mem (s : State) : s.finish.mem = s.mem := rfl
@[simp] theorem State.finish_reg (s : State) (r : BitVec 5) : s.finish.reg r = s.reg r := rfl
@[simp] theorem State.finish_kfctl (s : State) : s.finish.core.st.kfctl = s.core.st.kfctl := rfl
@[simp] theorem State.finishQ_pc (s : State) : s.finishQ.core.st.pc = s.core.st.pc + 4 := rfl
@[simp] theorem State.finishQ_mem (s : State) : s.finishQ.mem = s.mem := rfl
@[simp] theorem State.finishQ_reg (s : State) (r : BitVec 5) : s.finishQ.reg r = s.reg r := rfl
@[simp] theorem State.jump_pc (s : State) (p : Pc) : (s.jump p).core.st.pc = p := rfl
@[simp] theorem State.jump_mem (s : State) (p : Pc) : (s.jump p).mem = s.mem := rfl
@[simp] theorem State.jump_reg (s : State) (p : Pc) (r : BitVec 5) : (s.jump p).reg r = s.reg r := rfl
@[simp] theorem State.addFlags_mem (s : State) (f : Flags) : (s.addFlags f).mem = s.mem := rfl
@[simp] theorem State.addFlags_pc (s : State) (f : Flags) : (s.addFlags f).core.st.pc = s.core.st.pc := rfl
@[simp] theorem State.addFlags_kfctl (s : State) (f : Flags) : (s.addFlags f).core.st.kfctl = orFlags s.core.st.kfctl f := rfl
@[simp] theorem State.putV_mem (s : State) (v : BitVec 5) (ws : List VWrite) : (s.putV v ws).mem = s.mem := rfl
@[simp] theorem State.putM_mem (s : State) (m : BitVec 3) (bs : List (Nat × Bool)) : (s.putM m bs).mem = s.mem := rfl
@[simp] theorem State.eret_mem (s : State) : s.eret.mem = s.mem := rfl

/-- A check that passes lets the work go on. -/
@[simp] theorem State.given_ok (s : State) (k : Out) : s.given .ok k = k := rfl
@[simp] theorem State.given_stall (s : State) (k : Out) : s.given .stall k = .next s := rfl
@[simp] theorem State.given_trap (s : State) (c : BitVec 8) (e : Word) (p : Option Nat) (k : Out) : s.given (.trap c e p) k = .next (s.trapAt c e 0 0 p) := rfl

/-- The outcomes of a checked piece of work: it goes on, waits, or traps. -/
theorem State.given_cases (s : State) (c : Chk) (k : Out) :
    (c = .ok ∧ s.given c k = k) ∨ (c = .stall ∧ s.given c k = .next s) ∨ ∃ a e p, c = .trap a e p ∧ s.given c k = .next (s.trapAt a e 0 0 p) := by
  cases c with
  | ok => exact .inl ⟨rfl, rfl⟩
  | stall => exact .inr (.inl ⟨rfl, rfl⟩)
  | trap a e p => exact .inr (.inr ⟨a, e, p, rfl, rfl⟩)

/-- A checked piece of work answers a next state when what follows the check does. -/
theorem State.given_next (s : State) (c : Chk) (k : Out) (h : ∃ t, k = .next t) : ∃ t, s.given c k = .next t := by
  cases c with
  | ok => exact h
  | stall => exact ⟨s, rfl⟩
  | trap a e p => exact ⟨_, rfl⟩

@[simp] theorem Chk.andThen_ok (c : Chk) : Chk.ok.andThen c = c := rfl
@[simp] theorem Chk.ok_andThen (c : Chk) : c.andThen .ok = c := by cases c <;> rfl
@[simp] theorem Chk.unless_true (c : BitVec 8) (e : Word) : Chk.unless true c e = .ok := rfl
@[simp] theorem Chk.unless_false (c : BitVec 8) (e : Word) : Chk.unless false c e = .trap c e none := rfl

/-- One check after another passes exactly when both pass. -/
theorem Chk.andThen_eq_ok (a b : Chk) : a.andThen b = .ok ↔ a = .ok ∧ b = .ok := by
  cases a <;> simp [Chk.andThen]

/-- Reading s0 never waits and never traps. -/
@[simp] theorem State.chkReg_zero (s : State) : s.chkReg 0 = .ok := rfl

/-- Reading a register without a mark passes. -/
theorem State.chkReg_ok (s : State) (r : BitVec 5) (h : r = 0 ∨ s.core.st.marks[r.toNat] = .ok) : s.chkReg r = .ok := by
  unfold State.chkReg
  split
  · rfl
  · rcases h with h | h
    · contradiction
    · simp [h]

end Sys2Proof.Machine
end

