-- ==== Sys2Proof/Safety.lean ====
section
/-!
DEFINITION. What claims call sound: the memory of the device, of its capacity devices and of every core's scratchpad in canonical form (DESIGN CHOICE, log 2), and a step that goes on.
-/
namespace Sys2Proof.Machine

/-- The invariant of the machine's memories: addresses strictly rising, no byte listed that reads as an unlisted one does (DESIGN CHOICE, log 2). -/
structure State.Inv (s : State) : Prop where
  mem : Memory.wf s.mem = true
  port : Memory.wf s.port = true
  pad : Memory.wf s.core.pad = true
  pads : ∀ k ∈ s.others, Memory.wf k.pad = true

/-- A step goes on: neither a fault nor a refusal. -/
def goesOn (o : Out) : Prop := ∃ t, o = .next t

end Sys2Proof.Machine
end

