-- ==== Sys2Proof/Certificates/Slice0/Obligations.lean ====
section
/-!
DEFINITION. The statements for the provers, with the vocabulary they are stated in (Claims). They come from the numbered rules of spec/, family by family; each docstring names the rules it formalises.
-/
open Sys2Proof Sys2Proof.Machine

/-- Every register of a list carries no mark: reading it neither waits nor traps (R42, R80, R430). -/
def Claims.Clean (s : State) (rs : List (BitVec 5)) : Prop := ∀ r ∈ rs, r = 0 ∨ s.core.st.marks[r.toNat] = .ok

/-- A strand after a scalar instruction that wrote v to s[d], KFCTL and the pc, and nothing else of its architectural state: s0 discards (R53), the destination's mark is cleared (R80), a watch pass ends (R258), a named resume group is used up (R262). -/
def Claims.scalarAfter (t : Strand) (d : BitVec 5) (v kfctl : Word) (pc : Pc) : Strand :=
  let u := if d = 0 then t else { t with regs := t.regs.set d.toNat v, marks := t.marks.set d.toNat .ok }
  { u with kfctl := kfctl, pc := pc, watchPass := false, resFirst := none, code := none, prog := none, answers := [], asked := false }

/-- The strand after a scalar instruction without a destination that changed it to u. -/
def Claims.stepped (u : Strand) : Strand := { u with pc := u.pc + 4, watchPass := false, resFirst := none, code := none, prog := none, answers := [], asked := false }

/-- An uncorrectable error has struck a K-register where it stands (R412): of the gang's registers one copy serves its strands, of the core's and the device's one their strands (R70); the others are the strand's. -/
def Claims.struck (s : State) (k : Nat) : Bool :=
  if k ∈ [0x009, 0x00D, 0x014, 0x105, 0x110, 0x111, 0x112] then s.myGang.any (fun g => g.badK.contains k)
  else if k ∈ [0x00B, 0x00E, 0x00F] then s.core.badK.contains k
  else if k = 0x00C then s.badK.contains k
  else s.core.st.badK.contains k

/-- No error has struck these K-registers (R412). -/
def Claims.kSound (s : State) (ks : List Nat) : Prop := ∀ k ∈ ks, Claims.struck s k = false

/-- The device with the strand in the slot of its core in turn replaced, and nothing else changed. -/
def Claims.withSt (s : State) (t : Strand) : State := { s with core := { s.core with st := t } }

/-- The device after a scalar instruction that wrote v to s[d] and went on to pc + 4. -/
def Claims.wrote (s : State) (d : BitVec 5) (v : Word) : State :=
  Claims.withSt s (Claims.scalarAfter s.core.st d v s.core.st.kfctl (s.core.st.pc + 4))

/-- An exact integer narrowed to 64 bits (R83). -/
def Claims.narrow (z : Int) : Word := BitVec.ofInt 64 z

/-- The effects of R142's table for the instructions of three registers, in exact integers where the table says so. -/
def Claims.aluTable : List ((BitVec 5 → BitVec 5 → BitVec 5 → Instr) × (Word → Word → Word)) := [
  (.add, fun x y => Claims.narrow (x.toInt + y.toInt)),
  (.sub, fun x y => Claims.narrow (x.toInt - y.toInt)),
  (.mul, fun x y => Claims.narrow (x.toInt * y.toInt)),
  (.and, fun x y => x &&& y),
  (.or, fun x y => x ||| y),
  (.xor, fun x y => x ^^^ y),
  (.sll, fun x y => x <<< (y.extractLsb' 0 6).toNat),
  (.srl, fun x y => x >>> (y.extractLsb' 0 6).toNat),
  (.sra, fun x y => Claims.narrow (x.toInt / 2 ^ (y.extractLsb' 0 6).toNat)),
  (.mulh, fun x y => Claims.narrow (x.toInt * y.toInt / 2 ^ 64)),
  (.mulhn, fun x y => BitVec.ofNat 64 (x.toNat * y.toNat / 2 ^ 64)),
  (.div, fun x y => if y = 0 then Claims.narrow (-1) else Claims.narrow (x.toInt.tdiv y.toInt)),
  (.divn, fun x y => if y = 0 then Claims.narrow (-1) else BitVec.ofNat 64 (x.toNat / y.toNat)),
  (.rem, fun x y => if y = 0 then x else Claims.narrow (x.toInt.tmod y.toInt)),
  (.remn, fun x y => if y = 0 then x else BitVec.ofNat 64 (x.toNat % y.toNat)),
  (.slt, fun x y => if x.toInt < y.toInt then 1 else 0),
  (.sltn, fun x y => if x.toNat < y.toNat then 1 else 0),
  (.min, fun x y => Claims.narrow (min x.toInt y.toInt)),
  (.max, fun x y => Claims.narrow (max x.toInt y.toInt)),
  (.minn, fun x y => BitVec.ofNat 64 (min x.toNat y.toNat)),
  (.maxn, fun x y => BitVec.ofNat 64 (max x.toNat y.toNat))]

/-- R142 with R83 and R84: each three-register ALU instruction of the table, on operands without marks, completes with its result in s[d], pc + 4, and everything else of the device unchanged: no flag, no other register, no memory. -/
def Claims.scalarAluResults : Prop :=
  ∀ (s : State) (d a b : BitVec 5), ∀ p ∈ Claims.aluTable, Claims.Clean s [a, b] →
    exec (p.1 d a b) s = .next (Claims.wrote s d (p.2 (s.reg a) (s.reg b)))

/-- p of R142, by the loop that the rule writes. -/
def Claims.clmulLoop (x y : Word) : BitVec 128 :=
  (List.range 64).foldl (fun p i => if y.getLsbD i then p ^^^ (x.setWidth 128 <<< i) else p) 0

/-- R142: CLMUL and CLMULH write the two halves of the carry-less product of the rule's loop; CLZ and CTZ write the number of leading or trailing zero bits, 64 for 0; POPC the number of 1 bits. -/
def Claims.scalarBitCounts : Prop :=
  ∀ (s : State) (d a b : BitVec 5), Claims.Clean s [a, b] →
    exec (.clmul d a b) s = .next (Claims.wrote s d ((Claims.clmulLoop (s.reg a) (s.reg b)).extractLsb' 0 64))
    ∧ exec (.clmulh d a b) s = .next (Claims.wrote s d ((Claims.clmulLoop (s.reg a) (s.reg b)).extractLsb' 64 64))
    ∧ exec (.popc d a) s = .next (Claims.wrote s d (BitVec.ofNat 64 ((List.range 64).countP (fun i => (s.reg a).getLsbD i))))
    ∧ exec (.clz d a) s = .next (Claims.wrote s d (BitVec.ofNat 64 (((List.range 64).find? (fun i => (s.reg a).getLsbD (63 - i))).getD 64)))
    ∧ exec (.ctz d a) s = .next (Claims.wrote s d (BitVec.ofNat 64 (((List.range 64).find? (fun i => (s.reg a).getLsbD i)).getD 64)))

/-- R143's table, with x the sign-extended immediate; shifts take their amount from a field of six bits. -/
def Claims.scalarImmediateResults : Prop :=
  ∀ (s : State) (d a : BitVec 5) (i : BitVec 15) (n : BitVec 6), Claims.Clean s [a] →
    exec (.addi d a i) s = .next (Claims.wrote s d (Claims.narrow ((s.reg a).toInt + i.toInt)))
    ∧ exec (.andi d a i) s = .next (Claims.wrote s d (s.reg a &&& Claims.narrow i.toInt))
    ∧ exec (.ori d a i) s = .next (Claims.wrote s d (s.reg a ||| Claims.narrow i.toInt))
    ∧ exec (.xori d a i) s = .next (Claims.wrote s d (s.reg a ^^^ Claims.narrow i.toInt))
    ∧ exec (.slti d a i) s = .next (Claims.wrote s d (if (s.reg a).toInt < i.toInt then 1 else 0))
    ∧ exec (.sltni d a i) s = .next (Claims.wrote s d (if (s.reg a).toNat < (Claims.narrow i.toInt).toNat then 1 else 0))
    ∧ exec (.slli d a n) s = .next (Claims.wrote s d (s.reg a <<< n.toNat))
    ∧ exec (.srli d a n) s = .next (Claims.wrote s d (s.reg a >>> n.toNat))
    ∧ exec (.srai d a n) s = .next (Claims.wrote s d (Claims.narrow ((s.reg a).toInt / 2 ^ n.toNat)))

/-- R144's table: MOVW and ADRP read no register; MOVK replaces bits [16p+15:16p] of s[d], which it reads, and keeps every other bit. -/
def Claims.constantResults : Prop :=
  ∀ (s : State) (d : BitVec 5),
    (∀ i : BitVec 20, exec (.movw d i) s = .next (Claims.wrote s d (Claims.narrow (i.toInt * 4096))))
    ∧ (∀ i : BitVec 20, exec (.adrp d i) s = .next (Claims.wrote s d (Claims.narrow (s.core.st.pc.toNat + i.toInt * 4096))))
    ∧ (∀ (p : BitVec 2) (v : BitVec 16), Claims.Clean s [d] → ∃ x : Word, exec (.movk d p v) s = .next (Claims.wrote s d x)
        ∧ ∀ i, i < 64 → x.getLsbD i = if i / 16 = p.toNat then v.getLsbD (i % 16) else (s.reg d).getLsbD i)

/-- The device after a scalar FP instruction: s[d] := v, the flags f set in KFCTL (bit 0 of f is NV, KFCTL[4]; bit 4 is NX, KFCTL[8]: R75), pc + 4. -/
def Claims.wroteF (s : State) (d : BitVec 5) (r : Nat × Flags) : State :=
  Claims.withSt s (Claims.scalarAfter s.core.st d (BitVec.ofNat 64 r.1) (s.core.st.kfctl ||| (r.2.setWidth 64 <<< 4)) (s.core.st.pc + 4))

/-- An fp64 operand is all 64 bits, an fp32 one bits [31:0] (R145). -/
def Claims.fpIn (f : BitVec 1) (x : Word) : Nat := if f = 0 then x.toNat else (x.extractLsb' 0 32).toNat

/-- The format of fn[6] (R146). -/
def Claims.fpFmt (f : BitVec 1) : Fmt := if f = 0 then fp64 else fp32

/-- R145, R146 and R412: each scalar FP arithmetic instruction, on operands without marks, writes the model's rounded result in KFCTL.RM and its flags, and changes nothing else; FMA reads its destination, and FMIN and FMAX ignore the rounding mode. With an error in KFCTL the ones that round trap with 0x09, KEVAL 0. -/
def Claims.scalarFpCompletes : Prop :=
  ∀ (s : State) (d a b : BitVec 5) (f : BitVec 1), Claims.Clean s [a, b, d] →
    let F := Claims.fpFmt f
    let rm := (s.core.st.kfctl.extractLsb' 0 2).toNat
    let x := Claims.fpIn f (s.reg a)
    let y := Claims.fpIn f (s.reg b)
    (Claims.kSound s [1] →
      exec (.fadd d a b f) s = .next (Claims.wroteF s d (fAdd F rm x y))
      ∧ exec (.fsub d a b f) s = .next (Claims.wroteF s d (fSub F rm x y))
      ∧ exec (.fmul d a b f) s = .next (Claims.wroteF s d (fMul F rm x y))
      ∧ exec (.fdiv d a b f) s = .next (Claims.wroteF s d (fDiv F rm x y))
      ∧ exec (.fsqrt d a f) s = .next (Claims.wroteF s d (fSqrt F rm x))
      ∧ exec (.fma d a b f) s = .next (Claims.wroteF s d (fFma F rm false x y (Claims.fpIn f (s.reg d)))))
    ∧ exec (.fmin d a b f) s = .next (Claims.wroteF s d (fMinMax F false x y))
    ∧ exec (.fmax d a b f) s = .next (Claims.wroteF s d (fMinMax F true x y))
    ∧ (¬ Claims.kSound s [1] → ∀ i ∈ [Instr.fadd d a b f, .fsub d a b f, .fmul d a b f, .fdiv d a b f, .fsqrt d a f, .fma d a b f], exec i s = .next (s.trap 0x09 0 0))

/-- The sign, exponent field and fraction field of a code of a format (R85). -/
def Claims.sgnOf (F : Fmt) (x : Nat) : Nat := x / 2 ^ (F.eb + F.fb) % 2
def Claims.expOf (F : Fmt) (x : Nat) : Nat := x / 2 ^ F.fb % 2 ^ F.eb
def Claims.fracOf (F : Fmt) (x : Nat) : Nat := x % 2 ^ F.fb

/-- The class number that R149's table gives a code, by its bit fields; a quiet NaN has the top fraction bit set. -/
def Claims.classOf (F : Fmt) (x : Nat) : Nat :=
  let e := Claims.expOf F x
  let m := Claims.fracOf F x
  let neg := Claims.sgnOf F x = 1
  if e = 2 ^ F.eb - 1 then
    if m = 0 then (if neg then 0 else 7)
    else if m / 2 ^ (F.fb - 1) = 1 then 9 else 8
  else if e = 0 then
    if m = 0 then (if neg then 3 else 4) else (if neg then 2 else 5)
  else if neg then 1 else 6

/-- R149: FCLASS writes a value in which exactly the bit of the operand's class is 1, and sets no flag. -/
def Claims.fclassOneHot : Prop :=
  ∀ (s : State) (d a : BitVec 5) (f : BitVec 1), Claims.Clean s [a] →
    exec (.fclass d a f) s = .next (Claims.wroteF s d (2 ^ Claims.classOf (Claims.fpFmt f) (Claims.fpIn f (s.reg a)), 0))

/-- A code is a NaN; a signalling one has the top fraction bit clear (R85). -/
def Claims.isNan (F : Fmt) (x : Nat) : Bool := Claims.expOf F x == 2 ^ F.eb - 1 && Claims.fracOf F x != 0
def Claims.isSig (F : Fmt) (x : Nat) : Bool := Claims.isNan F x && Claims.fracOf F x / 2 ^ (F.fb - 1) == 0

/-- A code other than a NaN as an integer that grows with its value: the magnitude code with the sign, so that both zeros are 0. -/
def Claims.key (F : Fmt) (x : Nat) : Int :=
  if Claims.sgnOf F x = 1 then -((x % 2 ^ (F.eb + F.fb) : Nat) : Int) else (x % 2 ^ (F.eb + F.fb) : Nat)

/-- What FCMP writes, and whether it sets NV, by R148's table. -/
def Claims.fcmpOf (F : Fmt) (c : Nat) (x y : Nat) : Nat × Flags :=
  let nan := Claims.isNan F x || Claims.isNan F y
  let sig := Claims.isSig F x || Claims.isSig F y
  match c with
  | 0 => (if !nan && Claims.key F x == Claims.key F y then 1 else 0, if sig then 1 else 0)
  | 1 => (if !nan && decide (Claims.key F x < Claims.key F y) then 1 else 0, if nan then 1 else 0)
  | 2 => (if !nan && decide (Claims.key F x ≤ Claims.key F y) then 1 else 0, if nan then 1 else 0)
  | _ => (if nan then 1 else 0, if sig then 1 else 0)

/-- R148: FCMP writes 1 when its condition (0 eq, 1 lt, 2 le, 3 un) holds and 0 otherwise, and sets NV as the table says. -/
def Claims.fcmpResults : Prop :=
  ∀ (s : State) (d a b : BitVec 5) (c : BitVec 3) (f : BitVec 1), Claims.Clean s [a, b] → c.toNat ≤ 3 →
    exec (.fcmp d a b c f) s = .next (Claims.wroteF s d (Claims.fcmpOf (Claims.fpFmt f) c.toNat (Claims.fpIn f (s.reg a)) (Claims.fpIn f (s.reg b))))

/-- R147: FCVT with each of its five codes writes the conversion's result and flags; code 4 goes from fp64 to fp32 or back. -/
def Claims.fcvtCompletes : Prop :=
  ∀ (s : State) (d a c : BitVec 5) (f : BitVec 1), Claims.Clean s [a] → Claims.kSound s [1] → c.toNat ≤ 4 →
    let F := Claims.fpFmt f
    let rm := (s.core.st.kfctl.extractLsb' 0 2).toNat
    let x := Claims.fpIn f (s.reg a)
    exec (.fcvt d a c f) s = .next (Claims.wroteF s d (match c.toNat with
      | 0 => fToInt F 64 true rm x
      | 1 => fToInt F 64 false rm x
      | 2 => intToF F 64 true rm (s.reg a).toNat
      | 3 => intToF F 64 false rm (s.reg a).toNat
      | _ => fConvert F (if f = 0 then fp32 else fp64) rm x))

/-- The conditions of R150, by the value of cc. -/
def Claims.branchTable : List ((BitVec 5 → BitVec 5 → BitVec 12 → Instr) × (Word → Word → Bool)) := [
  (.beq, fun x y => decide (x = y)),
  (.bne, fun x y => decide (x ≠ y)),
  (.blt, fun x y => decide (x.toInt < y.toInt)),
  (.bge, fun x y => decide (x.toInt ≥ y.toInt)),
  (.bltn, fun x y => decide (x.toNat < y.toNat)),
  (.bgen, fun x y => decide (x.toNat ≥ y.toNat))]

/-- A pc moved by a signed number of words, modulo 2^55. -/
def Claims.pcPlus (pc : Pc) (words : Int) : Pc := BitVec.ofInt 55 (pc.toNat + words * 4)

/-- The strand after a branch or jump to p: it writes no register of its own. -/
def Claims.wentTo (t : Strand) (p : Pc) : Strand := { t with pc := p, watchPass := false, resFirst := none, code := none }

/-- R150 and R151: a taken branch goes to pc + off · 4 and writes nothing else; one not taken completes as any scalar instruction without a destination; JAL links pc + 4 into s1 and jumps. -/
def Claims.branchTargets : Prop :=
  ∀ (s : State) (a b : BitVec 5) (o : BitVec 12) (j : BitVec 25),
    (∀ p ∈ Claims.branchTable, Claims.Clean s [a, b] →
      exec (p.1 a b o) s = .next (if p.2 (s.reg a) (s.reg b)
        then Claims.withSt s (Claims.wentTo s.core.st (Claims.pcPlus s.core.st.pc o.toInt))
        else Claims.wrote s 0 0))
    ∧ exec (.jal j) s = .next (Claims.withSt s (Claims.wentTo
        { s.core.st with regs := s.core.st.regs.set 1 ((s.core.st.pc + 4).setWidth 64), marks := s.core.st.marks.set 1 .ok }
        (Claims.pcPlus s.core.st.pc j.toInt)))

/-- R152: JALR traps with 0x05 where target[1:0] is not 0, else with 0x07 where target[63:55] is not 0, KEVAL the target and the link register kept; else it links pc + 4 into s[d] (s0 discards) and jumps. -/
def Claims.jalrTargets : Prop :=
  ∀ (s : State) (d a : BitVec 5) (i : BitVec 15), Claims.Clean s [a] →
    let t : Word := Claims.narrow ((s.reg a).toInt + i.toInt * 4)
    exec (.jalr d a i) s = .next (
      if t.extractLsb' 0 2 ≠ 0 then s.trap 0x05 t 0
      else if t.extractLsb' 55 9 ≠ 0 then s.trap 0x07 t 0
      else Claims.withSt s (Claims.wentTo
        (if d = 0 then s.core.st else { s.core.st with regs := s.core.st.regs.set d.toNat ((s.core.st.pc + 4).setWidth 64), marks := s.core.st.marks.set d.toNat .ok })
        (t.extractLsb' 0 55)))

/-- R80, R42 and R430 for every three-register ALU instruction and branch: an operand with a reply on its way makes it wait with nothing changed; a poisoned one traps with 0x09 and KEVAL 0 before any effect; one whose reply was lost traps with 0x0E (STATUS 1) or 0x07 (any other) and the access's address. The first operand that is marked decides, and s0 never is. -/
def Claims.operandMarks : Prop :=
  ∀ (s : State) (d a b : BitVec 5) (o : BitVec 12) (i : Instr),
    ((∃ p ∈ Claims.aluTable, i = p.1 d a b) ∨ ∃ p ∈ Claims.branchTable, i = p.1 a b o) →
    ∀ (r : BitVec 5), r ≠ 0 → (r = a ∨ (r = b ∧ Claims.Clean s [a])) →
      (s.core.st.marks[r.toNat] = .pending → exec i s = .next s)
      ∧ (s.core.st.marks[r.toNat] = .poisoned → exec i s = .next (s.trap 0x09 0 0))
      ∧ (∀ st ad, s.core.st.marks[r.toNat] = .lost st ad → exec i s = .next (s.trap (if st = 1 then 0x0E else 0x07) ad 0))

/-- The cause classes of R389: U may go to a user handler, C goes to containment only, the rest are S. -/
def Claims.classU (c : BitVec 8) : Prop := c ∈ [0x09#8, 0x0A#8, 0x0B#8, 0x0D#8, 0x0E#8, 0x0F#8]
def Claims.classC (c : BitVec 8) : Prop := c ∈ [0x11#8, 0x15#8, 0x30#8]

/-- R393's table, over the cause classes of R389: where a trap goes (user handler, supervisor handler or containment) by its cause, KSTATUS.M and UIN, and the handler addresses; the first matching row decides. -/
def Obligations.TrapRouting : Prop :=
  ∀ (c : BitVec 8) (m uin : Bool) (ku ks : Word),
    (Claims.classC c → route c m uin ku ks = .contain)
    ∧ (¬ Claims.classC c → m = true → route c m uin ku ks = if c = 0x20 ∧ ks ≠ 0 then .super else .contain)
    ∧ (Claims.classU c → m = false → uin = false → ku ≠ 0 → route c m uin ku ks = .user)
    ∧ (¬ Claims.classC c → m = false → ¬ (Claims.classU c ∧ uin = false ∧ ku ≠ 0) → route c m uin ku ks = if ks ≠ 0 then .super else .contain)

/-- The strand's gang and its handler addresses, long in force (R71). -/
structure Claims.Handlers (s : State) (ku ks : Word) : Prop where
  gang : ∃ g, s.myGang = some g ∧ g.kutvec = ku ∧ g.kstvec = ks ∧ g.oldUtvec = none ∧ g.oldStvec = none

/-- The strand as R394 leaves it at a user handler: KUCAUSE, KUEPC, KUEGRP, KUEVAL and the user depth written, UIN set, pc at KUTVEC; the watch pass and the element group named by an earlier ERET are gone, what a memory instruction had asked for is dropped, and an error in one of the registers written has ended (R412). -/
def Claims.atUser (t : Strand) (ku : Word) (c : BitVec 8) (ev : Word) (g : BitVec 4) (depth : Nat) : Strand :=
  { t with user := ⟨c, t.pc, g, ev, depth⟩, kstatus := t.kstatus ||| 4, pc := ku.setWidth 55 &&& ~~~3#55
           badK := t.badK.filter (fun k => !(0x10 ≤ k && k ≤ 0x13))
           watchPass := false, resFirst := none, resG := 0, resN := 0, prog := none, answers := [], asked := false }

/-- The strand as R394 leaves it at a supervisor handler: PM takes M, M is set, UIN is kept. -/
def Claims.atSuper (t : Strand) (ks : Word) (c : BitVec 8) (ev : Word) (g : BitVec 4) (depth : Nat) : Strand :=
  { t with super := ⟨c, t.pc, g, ev, depth⟩, kstatus := (t.kstatus &&& ~~~3#64) ||| ((t.kstatus &&& 1) <<< 1) ||| 1
           badK := t.badK.filter (fun k => !(0x101 ≤ k && k ≤ 0x104))
           pc := ks.setWidth 55 &&& ~~~3#55, watchPass := false, resFirst := none, resG := 0, resN := 0, prog := none, answers := [], asked := false }

/-- Where a trap of the strand in the slot ends (R393–R395): at a handler, or stopped, out of the issue slot, with its containment asked for. The next instruction of a handler has not yet run, and nothing else of the device changes. -/
def Claims.trapped (s : State) (ku ks : Word) (c : BitVec 8) (ev : Word) (g : BitVec 4) (depth : Nat) (gran : Option Nat) : State :=
  match route c (s.core.st.kstatus.getLsbD 0) (s.core.st.kstatus.getLsbD 2) ku ks with
  | .user => Claims.withSt s (Claims.atUser s.core.st ku c ev g depth)
  | .super => Claims.withSt s (Claims.atSuper s.core.st ks c ev g depth)
  | .contain => { s with
      core := { s.core with st := Strand.empty, phase := .idle, freeFrom := s.now
                            rest := s.core.rest ++ [{ s.core.st with status := .stopped, watchPass := false, prog := none }] }
      contains := s.contains ++ [⟨s.core.st.gang, s.core.st.rank, c, ev, g.toNat, depth, gran⟩] }

/-- R394, R395: taking an exception, with handler addresses long in force, is exactly this; every register, memory byte and device field that it does not name is unchanged. -/
def Obligations.TakingAnException : Prop :=
  ∀ (s : State) (ku ks : Word) (c : BitVec 8) (ev : Word) (g : BitVec 4) (depth : Nat) (gran : Option Nat), Claims.Handlers s ku ks →
    s.trapAt c ev g.toNat depth gran = Claims.trapped s ku ks c ev g depth gran

/-- A K-register that the mode may reach (R70): the user range, or a supervisor one in K mode. -/
def Claims.kReach (s : State) (k : Nat) : Prop :=
  k ∈ [1, 2, 3, 4, 5] ∨ (8 ≤ k ∧ k ≤ 0x14) ∨ (0x40 ≤ k ∧ k < 0x60)
    ∨ (s.core.st.kstatus.getLsbD 0 = true ∧ ((0x100 ≤ k ∧ k ≤ 0x106) ∨ (0x110 ≤ k ∧ k ≤ 0x112)))

/-- What SID writes and the K-register that it reads (R241), by the selector: the rank, the gang's size C · S, the core number, the device id, the gang's KASID. -/
def Claims.sidTable (s : State) (g : Gang) : List (BitVec 4 × Nat × List Nat) :=
  [(0, s.core.st.rank, [0x00A]), (1, g.task.c * g.task.s, []), (2, s.core.id, [0x00B]), (3, s.kdev, [0x00C]), (4, g.kasid, [0x110])]

/-- R241, R263 and R70. SID completes in either mode with the value of its selector, but traps with 0x09 where an error has struck the K-register that holds it (R412; that size has none, and that SID reads the others, is the model's reading: log 82). KRD of a register that the mode may reach and that no error has struck completes and writes it to s[d]: every register's value is named but that of KCYCLE, a free count (log 6); of one that an error has struck it traps with 0x09. -/
def Obligations.SidAndKrd : Prop :=
  (∀ (s : State) (d : BitVec 5) (g : Gang), s.myGang = some g → ∀ p ∈ Claims.sidTable s g,
    (Claims.kSound s p.2.2 → exec (.sid d p.1) s = .next (Claims.wrote s d (BitVec.ofNat 64 p.2.1)))
    ∧ (¬ Claims.kSound s p.2.2 → exec (.sid d p.1) s = .next (s.trap 0x09 0 0)))
  ∧ (∀ (s : State) (d : BitVec 5) (k : BitVec 12), Claims.kReach s k.toNat → Claims.struck s k.toNat = false →
    ∃ x, exec (.krd d k) s = .next (Claims.wrote s d x)
      ∧ (k = 0x008 → x = BitVec.ofNat 64 s.core.st.place) ∧ (k = 0x009 → x = BitVec.ofNat 64 s.core.st.gang)
      ∧ (k = 0x00C → x = BitVec.ofNat 64 s.kdev) ∧ (k = 0x00F → x = BitVec.ofNat 64 (s.core.mv * 2 ^ 16 + s.core.mhz))
      ∧ (∀ g, s.myGang = some g → (k = 0x00D → x = BitVec.ofNat 64 g.task.prio) ∧ (k = 0x014 → x = g.kutvec) ∧ (k = 0x105 → x = g.kstvec)
          ∧ (k = 0x110 → x = BitVec.ofNat 64 g.kasid) ∧ (k = 0x111 → x = BitVec.ofNat 64 g.kptbase) ∧ (k = 0x112 → x = BitVec.ofNat 64 g.kfrec))
      ∧ (k = 0x001 → x = s.core.st.kfctl) ∧ (k = 0x002 → x = s.core.st.ksr) ∧ (k = 0x003 → x = s.core.st.klm)
      ∧ (k = 0x004 → x = BitVec.ofNat 64 s.core.st.vl) ∧ (k = 0x005 → x = s.core.st.kvtype)
      ∧ (k = 0x00A → x = BitVec.ofNat 64 s.core.st.rank) ∧ (k = 0x00B → x = BitVec.ofNat 64 s.core.id)
      ∧ (k = 0x010 → x = s.core.st.user.cause.setWidth 64) ∧ (k = 0x011 → x = s.core.st.user.epc.setWidth 64)
      ∧ (k = 0x012 → x = s.core.st.user.egrp.setWidth 64) ∧ (k = 0x013 → x = s.core.st.user.eval)
      ∧ (k = 0x100 → x = s.core.st.kstatus) ∧ (k = 0x101 → x = s.core.st.super.cause.setWidth 64)
      ∧ (k = 0x102 → x = s.core.st.super.epc.setWidth 64) ∧ (k = 0x103 → x = s.core.st.super.egrp.setWidth 64)
      ∧ (k = 0x104 → x = s.core.st.super.eval) ∧ (k = 0x106 → x = s.core.st.kscratch)
      ∧ (∀ n : Fin 8, (k.toNat = 0x40 + 4 * n → x = s.core.st.watch[n].ctl) ∧ (k.toNat = 0x41 + 4 * n → x = s.core.st.watch[n].base)
          ∧ (k.toNat = 0x42 + 4 * n → x = s.core.st.watch[n].lim) ∧ (k.toNat = 0x43 + 4 * n → x = s.core.st.watch[n].str)))
  ∧ (∀ (s : State) (d : BitVec 5) (k : BitVec 12), Claims.kReach s k.toNat → Claims.struck s k.toNat = true → exec (.krd d k) s = .next (s.trap 0x09 0 0))

/-- Nothing of the strand in the slot is outstanding or queued, but for what the store buffer holds; no message is on its way, no watch register is enabled and no range of the core is interlocked: what a memory instruction may otherwise wait or trap for. -/
structure Claims.Calm (s : State) : Prop where
  marks : ∀ r : Fin 32, s.core.st.marks[r] ≠ .pending
  invals : s.invals = []
  replies : s.replies = []
  reqs : s.reqs = []
  ctl : s.ctlWrites = []
  xfers : s.xfers = []
  toks : s.tokMsgs = []
  fills : s.fills = []
  combines : s.combines = []
  txq : s.txq = []
  pairs : s.pairs = []
  held : s.core.st.queue = [] ∧ s.core.st.out = []
  locks : s.core.locks = []
  watch : ∀ i : Fin 8, s.core.st.watch[i].ctl.getLsbD 0 = false
/-- The same with an empty store buffer. -/
structure Claims.Quiet (s : State) : Prop extends Claims.Calm s where
  sb : s.core.sb = []

/-- ea is byte o of the strand's own scratchpad allotment, through the local window (R268). -/
def Claims.ownPad (s : State) (ea : Word) (o : Nat) : Prop :=
  ea.toNat = 0x70000000000000 + o ∧ o < s.core.st.allotSize ∧ o < 0x80000

/-- The effective address of LD and ST: s[b] + off12 · n, wrapped (R155). -/
def Claims.ea (s : State) (b : BitVec 5) (o : BitVec 12) (n : Nat) : Word := Claims.narrow ((s.reg b).toInt + o.toInt * n)

/-- The loads of R155 with a base register: their sizes, and whether they sign-extend. -/
def Claims.loadTable : List ((BitVec 5 → BitVec 5 → BitVec 12 → Instr) × Nat × Bool) := [
  (.ldb, 1, true), (.ldh, 2, true), (.ldw, 4, true), (.ldd, 8, false), (.ldbn, 1, false), (.ldhn, 2, false), (.ldwn, 4, false)]
/-- LDX by its size code (R154). -/
def Claims.ldxTable : List (BitVec 3 × Nat × Bool) := [
  (0, 1, true), (1, 2, true), (2, 4, true), (3, 8, false), (4, 1, false), (5, 2, false), (6, 4, false)]
/-- A loaded value of n bytes as the register takes it. -/
def Claims.ext (sgn : Bool) (n v : Nat) : Word := if sgn then (BitVec.ofNat (8 * n) v).signExtend 64 else BitVec.ofNat 64 v

/-- A load instruction with its effective address, its operand registers, its size and its sign extension. -/
inductive Claims.IsLoad (s : State) : Instr → BitVec 5 → Word → List (BitVec 5) → Nat → Bool → Prop where
  | base (d b : BitVec 5) (o : BitVec 12) (p) (h : p ∈ Claims.loadTable) : Claims.IsLoad s (p.1 d b o) d (Claims.ea s b o p.2.1) [b] p.2.1 p.2.2
  | idx (d a b : BitVec 5) (c : BitVec 2) (p) (h : p ∈ Claims.ldxTable) :
      Claims.IsLoad s (.ldx d a b c p.1) d (s.reg a + BitVec.ofNat 64 ((s.reg b).toNat * 2 ^ c.toNat)) [a, b] p.2.1 p.2.2

/-- The strand may use the page: in K mode, or its U bit is set (R275). -/
def Claims.mayUse (s : State) (x : Xlat) : Prop := s.core.st.kstatus.getLsbD 0 = true ∨ x.u = true

/-- Where the store buffer finds a load's n bytes (R158): kind, unit, address and key slot of an own scratchpad offset, or of a byte of this device's memory that the load's page lets it read. -/
inductive Claims.Looks (s : State) (ea : Word) (n : Nat) : Xlat → Nat → Nat → Nat → Nat → Prop where
  | pad (o : Nat) (h : Claims.ownPad s ea o) : Claims.Looks s ea n windowXlat 2 s.core.st.rank o 0
  | mem (pa key : Nat) (x : Xlat) (h : s.xlate ea n = .at (.slice pa key) x) (r : x.r = true) (u : Claims.mayUse s x) : Claims.Looks s ea n x 0 0 pa key

/-- A buffered store is of that place's memory; it overlaps the n bytes; it covers them whole, without poison; it is the strand's own store to their aligned 8-byte word. -/
def Claims.sameMem (s : State) (e : SbEntry) (kind unit : Nat) : Prop := e.kind = kind ∧ e.unit = unit ∧ (kind = 2 → e.gang = s.core.st.gang)
def Claims.overlaps (e : SbEntry) (a n : Nat) : Prop := e.addr < a + n ∧ a < e.addr + e.n
def Claims.coversAll (e : SbEntry) (a key n : Nat) : Prop := e.key = key ∧ e.addr ≤ a ∧ a + n ≤ e.addr + e.n ∧ e.psn = false
def Claims.ownWord (s : State) (e : SbEntry) (a : Nat) : Prop := e.addr / 8 = a / 8 ∧ e.gang = s.core.st.gang ∧ e.rank = s.core.st.rank

/-- R158 items 4 and 5, for every load: the youngest store of the buffer that overlaps it decides. One that covers its bytes gives them; any other makes the load wait, with nothing changed, and so does, where none overlaps, an earlier store of the strand to the same aligned 8-byte word. -/
def Claims.loadsForward : Prop :=
  ∀ (s : State) (i : Instr) (d : BitVec 5) (ea : Word) (rs : List (BitVec 5)) (n : Nat) (sgn : Bool) (x : Xlat) (kind unit a key : Nat),
    Claims.IsLoad s i d ea rs n sgn → Claims.Clean s rs → Claims.Calm s → ea.toNat % n = 0 → Claims.Looks s ea n x kind unit a key →
    let hit := fun (e : SbEntry) => Claims.sameMem s e kind unit ∧ Claims.overlaps e a n
    (∀ l e r, s.core.sb = l ++ e :: r → hit e → (∀ y ∈ r, ¬ hit y) →
      (Claims.coversAll e a key n → ∃ t, exec i s = .next t ∧ t.core.sb = s.core.sb
        ∧ t.core.st = Claims.scalarAfter s.core.st d (Claims.ext sgn n (e.value.toNat / 256 ^ (a - e.addr) % 256 ^ n)) s.core.st.kfctl (s.core.st.pc + 4))
      ∧ (¬ Claims.coversAll e a key n → exec i s = .next s))
    ∧ ((∀ e ∈ s.core.sb, ¬ hit e) → (∃ e ∈ s.core.sb, Claims.sameMem s e kind unit ∧ Claims.ownWord s e a) → exec i s = .next s)

/-- R155, R156 and R78: every load of the own scratchpad that meets no buffered store, aligned, writes the little-endian bytes there to s[d], extended as its mnemonic says, and changes nothing else; of a poisoned granule it traps with 0x09, KEVAL its address. -/
def Claims.loadsOwnScratchpad : Prop :=
  ∀ (s : State) (i : Instr) (d : BitVec 5) (ea : Word) (rs : List (BitVec 5)) (n : Nat) (sgn : Bool) (o : Nat),
    Claims.IsLoad s i d ea rs n sgn → Claims.Clean s rs → Claims.Calm s → Claims.ownPad s ea o → o % n = 0 →
    (∀ e ∈ s.core.sb, Claims.sameMem s e 2 s.core.st.rank → ¬ Claims.overlaps e o n ∧ ¬ Claims.ownWord s e o) →
    let at_ := s.core.st.allotBase + o
    (s.core.padPsnIn at_ n = false → exec i s = .next (Claims.wrote s d (Claims.ext sgn n (readNat s.core.pad at_ n))))
    ∧ (s.core.padPsnIn at_ n = true → exec i s = .next (s.trap 0x09 ea 0))

/-- R155, R156 and R78: every load of memory of this device that meets no buffered store completes with the bytes of its slice in s[d]: from the scalar L1 where it holds the line, else from the slice where no invalidation of the line is outstanding. The strand changes in s[d], the pc and nothing else. Where the slice's line is poisoned it traps with 0x09, KEVAL its address, the poisoned granule noted for the fault record. -/
def Claims.loadsMemory : Prop :=
  ∀ (s : State) (i : Instr) (d : BitVec 5) (ea : Word) (rs : List (BitVec 5)) (n : Nat) (sgn : Bool) (pa key : Nat) (x : Xlat),
    Claims.IsLoad s i d ea rs n sgn → Claims.Clean s rs → Claims.Calm s → ea.toNat % n = 0 →
    s.xlate ea n = .at (.slice pa key) x → x.r = true → Claims.mayUse s x →
    (∀ e ∈ s.core.sb, Claims.sameMem s e 0 0 → ¬ Claims.overlaps e pa n ∧ ¬ Claims.ownWord s e pa) →
    let loaded := fun (v : Nat) => ∃ t, exec i s = .next t ∧ t.core.st = Claims.scalarAfter s.core.st d (Claims.ext sgn n v) s.core.st.kfctl (s.core.st.pc + 4)
    (∀ l, s.l1Hit pa key = some l → loaded (l.data.toNat / 256 ^ (pa % 64) % 256 ^ n))
    ∧ (s.l1Hit pa key = none → (s.peek pa key n).2 = none → loaded (s.peek pa key n).1)
    ∧ (∀ g, s.l1Hit pa key = none → (s.peek pa key n).2 = some g → ∃ t : State, exec i s = .next (t.trapAt 0x09 ea 0 0 (some g)) ∧ t.core.st = s.core.st ∧ t.gangs = s.gangs)

/-- R155, R156, R158 and R78: what every load of the own scratchpad and of this device's memory does, beside the store buffer and with it. -/
def Obligations.LoadsRead : Prop := Claims.loadsOwnScratchpad ∧ Claims.loadsMemory ∧ Claims.loadsForward

/-- The stores of R155 with a base register, and their sizes. -/
def Claims.storeTable : List ((BitVec 5 → BitVec 5 → BitVec 12 → Instr) × Nat) := [(.stb, 1), (.sth, 2), (.stw, 4), (.std, 8)]

/-- A store instruction with its source register, its effective address, its operand registers and its size. -/
inductive Claims.IsStore (s : State) : Instr → BitVec 5 → Word → List (BitVec 5) → Nat → Prop where
  | base (r b : BitVec 5) (o : BitVec 12) (p) (h : p ∈ Claims.storeTable) : Claims.IsStore s (p.1 r b o) r (Claims.ea s b o p.2) [b, r] p.2
  | idx (r a b : BitVec 5) (c z : BitVec 2) :
      Claims.IsStore s (.stx r a b c z) r (s.reg a + BitVec.ofNat 64 ((s.reg b).toNat * 2 ^ c.toNat)) [a, b, r] (2 ^ z.toNat)

/-- The device after a store whose entry went to the store buffer, its translation found in the core's TLB and now its most recent entry; no byte of memory and no register has changed. -/
def Claims.buffered (s : State) (x : Xlat) (e : SbEntry) : State :=
  { s with core := { s.core with
      tlb := if x = windowXlat then s.core.tlb else x :: s.core.tlb.filter (· != x)
      sb := s.core.sb ++ [e], st := Claims.stepped s.core.st } }

/-- R155, R158 and R301: every store to the own scratchpad, and to memory of this device whose translation the TLB holds, enters the store buffer's youngest place with the low bytes of its source register while a place is free and no instruction is queued before it, and changes nothing else; its bytes reach memory when it is sent. -/
def Obligations.StoresEnterBuffer : Prop :=
  ∀ (s : State) (i : Instr) (r : BitVec 5) (ea : Word) (rs : List (BitVec 5)) (n : Nat),
    Claims.IsStore s i r ea rs n → Claims.Clean s rs → ea.toNat % n = 0 → s.core.sb.length < 16 → s.core.locks = [] → s.core.st.queue = [] → s.core.st.out = [] →
    (∀ k : Fin 8, s.core.st.watch[k].ctl.getLsbD 0 = false) →
    (∀ o, Claims.ownPad s ea o → exec i s = .next (Claims.buffered s windowXlat
      ⟨s.core.st.gang, s.core.st.rank, 2, s.core.st.rank, o, 0, n, BitVec.ofNat 64 ((s.reg r).toNat % 256 ^ n), false, s.asid⟩))
    ∧ (∀ pa key x, s.xlate ea n = .at (.slice pa key) x → x ≠ windowXlat → x ∈ s.core.tlb → x.w = true → (s.core.st.kstatus.getLsbD 0 = true ∨ x.u = true) →
      exec i s = .next (Claims.buffered s x ⟨s.core.st.gang, s.core.st.rank, 0, 0, pa, key, n, BitVec.ofNat 64 ((s.reg r).toNat % 256 ^ n), false, s.asid⟩))

/-- n bytes from pa lie in flat HBM, inside one line of 64 bytes, and the memory error log is off, so that no eviction writes an entry to memory (R283, R417). -/
def Claims.inLine (s : State) (pa n : Nat) : Prop := 0 < n ∧ pa % 64 + n ≤ 64 ∧ s.hbmQ ≤ 4 ∧ pa + n ≤ s.hbmQ * 192 * 2 ^ 30 ∧ s.meEn = false

/-- After a write of v to n bytes of flat HBM from pa: those bytes hold it, and every other byte below the capacity tier reads as before. -/
def Claims.stored (s t : State) (pa n v : Nat) : Prop :=
  readNat t.mem pa n = v % 256 ^ n ∧ ∀ k, k < 0x100000000000 → (k < pa ∨ pa + n ≤ k) → readByte t.mem k = readByte s.mem k

/-- Every byte of flat HBM reads as before: what a walk's reads do in L2 may only move lines of the capacity tier. -/
def Claims.flatKept (s t : State) : Prop := ∀ k, k < 0x100000000000 → readByte t.mem k = readByte s.mem k

/-- va is the address of byte pa of this device's flat HBM, for an aligned access of n bytes that its page permits, by a translation that the core's TLB holds (R268, R272, R274, R275). -/
def Claims.memAt (s : State) (va : Word) (n : Nat) (rd wr : Bool) (pa : Nat) : Prop :=
  ∃ key x, s.xlate va n = .at (.slice pa key) x ∧ x ∈ s.core.tlb ∧ (rd = true → x.r = true) ∧ (wr = true → x.w = true) ∧ Claims.mayUse s x ∧ va.toNat % n = 0 ∧ Claims.inLine s pa n
/-- The line of a byte of memory is not poisoned (R78). -/
def Claims.soundAt (s : State) (pa : Nat) : Prop := s.linePsn (pa / 64) = false

/-- The AMOs of R160 with the new value each forms from the old one, the operand and, for AMOCAS, the expected value, on w-bit values. -/
def Claims.amoTable : List ((BitVec 5 → BitVec 5 → BitVec 5 → BitVec 1 → BitVec 1 → BitVec 1 → BitVec 3 → Instr) × (Nat → Nat → Nat → Nat → Nat)) := [
  (.amoadd, fun w old x _ => (old + x) % 2 ^ w),
  (.amoand, fun _ old x _ => old &&& x),
  (.amoor, fun _ old x _ => old ||| x),
  (.amoxor, fun _ old x _ => old ^^^ x),
  (.amomin, fun w old x _ => if (BitVec.ofNat w x).toInt < (BitVec.ofNat w old).toInt then x else old),
  (.amomax, fun w old x _ => if (BitVec.ofNat w old).toInt < (BitVec.ofNat w x).toInt then x else old),
  (.amominn, fun _ old x _ => min old x),
  (.amomaxn, fun _ old x _ => max old x),
  (.amoswp, fun _ _ x _ => x),
  (.amocas, fun _ old x e => if old = e then x else old)]

/-- R160: every AMO on the own scratchpad, aligned, of a granule without poison, puts the new value where the old one stood and the old one in s[d] (sign-extended from 4 bytes), in one step; every other byte of the scratchpad reads as before, and everything else of the device but the strand in the slot is unchanged, which notes AQ for what follows (R162). The device's line buffer holds no error (R419). -/
def Claims.amosOnScratchpad : Prop :=
  ∀ (s : State) (d a b : BitVec 5) (w q r : BitVec 1) (c : BitVec 3) (o : Nat), ∀ p ∈ Claims.amoTable,
    Claims.Clean s [a, b, d] → Claims.Quiet s →
    let n := if w = 1 then 4 else 8
    Claims.ownPad s (s.reg a) o → o % n = 0 → s.core.padPsnIn (s.core.st.allotBase + o) n = false → s.core.st.allotBase % 8 = 0 → .lineBuffer ∉ s.errors →
    let at_ := s.core.st.allotBase + o
    let old := readNat s.core.pad at_ n
    let new := p.2 (8 * n) old ((s.reg b).toNat % 256 ^ n) ((s.reg d).toNat % 256 ^ n)
    ∃ t, exec (p.1 d a b w q r c) s = .next t
      ∧ t.core.st = Claims.scalarAfter { s.core.st with acq := q == 1 } d (Claims.ext (n == 4) n old) s.core.st.kfctl (s.core.st.pc + 4)
      ∧ t = { s with core := { s.core with st := t.core.st, pad := t.core.pad } }
      ∧ readNat t.core.pad at_ n = new
      ∧ ∀ k, (k < at_ ∨ at_ + n ≤ k) → readByte t.core.pad k = readByte s.core.pad k

/-- R160 and R419: every AMO on flat HBM of this device does the same there: the new value stands where the old one stood, the old one in s[d], and every other byte of flat HBM reads as before. Of a poisoned line it writes nothing and leaves s[d] poisoned. -/
def Claims.amosOnMemory : Prop :=
  ∀ (s : State) (d a b : BitVec 5) (w q r : BitVec 1) (c : BitVec 3) (pa : Nat), ∀ p ∈ Claims.amoTable,
    Claims.Clean s [a, b, d] → Claims.Quiet s → .lineBuffer ∉ s.errors →
    let n := if w = 1 then 4 else 8
    Claims.memAt s (s.reg a) n true true pa →
    let st := { s.core.st with acq := q == 1 }
    let old := readNat s.mem pa n
    (Claims.soundAt s pa → ∃ t, exec (p.1 d a b w q r c) s = .next t
      ∧ t.core.st = Claims.scalarAfter st d (Claims.ext (n == 4) n old) s.core.st.kfctl (s.core.st.pc + 4)
      ∧ Claims.stored s t pa n (p.2 (8 * n) old ((s.reg b).toNat % 256 ^ n) ((s.reg d).toNat % 256 ^ n)))
    ∧ (¬ Claims.soundAt s pa → ∃ t, exec (p.1 d a b w q r c) s = .next t ∧ Claims.flatKept s t
      ∧ t.core.st = Claims.stepped (if d = 0 then st else { st with marks := st.marks.set d.toNat .poisoned }))

/-- R160, R162 and R419: every AMO, on the own scratchpad and on memory of this device. -/
def Obligations.AmosUpdate : Prop := Claims.amosOnScratchpad ∧ Claims.amosOnMemory

/-- R155, R160 and R420: with operands without marks, a misaligned load or store traps with 0x05 and a misaligned AMO with 0x06, before translation, KEVAL the address, and with no other effect. -/
def Claims.misalignedTraps : Prop :=
  ∀ (s : State),
    (∀ i d ea rs n sgn, Claims.IsLoad s i d ea rs n sgn → Claims.Clean s rs → ea.toNat % n ≠ 0 → exec i s = .next (s.trap 0x05 ea 0))
    ∧ (∀ i r ea rs n, Claims.IsStore s i r ea rs n → Claims.Clean s rs → ea.toNat % n ≠ 0 → exec i s = .next (s.trap 0x05 ea 0))
    ∧ (∀ (d a b : BitVec 5) (w q r : BitVec 1) (c : BitVec 3), ∀ p ∈ Claims.amoTable, Claims.Clean s [a, b, d] →
        (s.reg a).toNat % (if w = 1 then 4 else 8) ≠ 0 → exec (p.1 d a b w q r c) s = .next (s.trap 0x06 (s.reg a) 0))

/-- A scalar access with its address, its operand registers, its size, and whether it reads and writes. -/
inductive Claims.IsAccess (s : State) : Instr → Word → List (BitVec 5) → Nat → Bool → Bool → Prop where
  | load (i d ea rs n sgn) (h : Claims.IsLoad s i d ea rs n sgn) : Claims.IsAccess s i ea rs n true false
  | store (i r ea rs n) (h : Claims.IsStore s i r ea rs n) : Claims.IsAccess s i ea rs n false true
  | amo (d a b : BitVec 5) (w q r : BitVec 1) (c : BitVec 3) (p) (h : p ∈ Claims.amoTable) : Claims.IsAccess s (p.1 d a b w q r c) (s.reg a) [a, b, d] (if w = 1 then 4 else 8) true true

/-- A watch register matches an access of n bytes from a (R68, R69): it is enabled for a read or a write of the access, and some byte of it lies in [base, limit) and, with a stride, in the width of a period. -/
def Claims.watchHit (x : Watch) (rd wr : Bool) (a n : Nat) : Prop :=
  let base := x.base.toNat % 2 ^ 55
  let stride := x.str.toNat % 2 ^ 32
  x.ctl.getLsbD 0 = true ∧ ((rd = true ∧ x.ctl.getLsbD 1 = true) ∨ (wr = true ∧ x.ctl.getLsbD 2 = true))
  ∧ ∃ b, a ≤ b ∧ b < a + n ∧ base ≤ b ∧ b < x.lim.toNat % 2 ^ 55 ∧ (stride = 0 ∨ (b - base) % stride < x.str.toNat / 2 ^ 32 % 2 ^ 24)

/-- R155 checks 2 to 4, R160, R257 and R272: with operands without marks and an aligned address, a load, store or AMO whose address does not translate traps with the translation's cause, one that its page does not permit (an AMO needs R and W) or that control space does not take traps with 0x08, and one that an enabled watch register matches, outside a watch pass, with 0x0A; KEVAL is the access's address (for a watch match log 98's reading). A watch trap sets HIT in the registers that match; the lookup and the reads of its walk leave their traces in the memory system (R276), and nothing else happens. -/
def Claims.accessTraps : Prop :=
  ∀ (s : State) (i : Instr) (ea : Word) (rs : List (BitVec 5)) (n : Nat) (rd wr : Bool),
    Claims.IsAccess s i ea rs n rd wr → ea.toNat % n = 0 → Claims.Clean s rs →
    (∀ c g, s.xlate ea n = .fault c g → exec i s = .next ((s.walkFault ea).trapAt c ea 0 0 g))
    ∧ ∀ p x, s.xlate ea n = .at p x →
      let permitted := (rd = true → x.r = true) ∧ (wr = true → x.w = true) ∧ Claims.mayUse s x
      let taken := p.isCtl = true → ¬ (rd = true ∧ wr = true) ∧ 4 ≤ n
      (¬ permitted ∨ ¬ taken → exec i s = .next ((s.walkFault ea).trap 0x08 ea 0))
      ∧ (permitted → taken → s.core.st.watchPass = false → (∃ k : Fin 8, Claims.watchHit s.core.st.watch[k] rd wr ea.toNat n) →
          ∃ u, exec i s = .next (State.trap u 0x0A ea 0) ∧ u.core.st = { s.core.st with watch := u.core.st.watch } ∧ u.core.sb = s.core.sb ∧ u.core.pad = s.core.pad ∧ u.gangs = s.gangs
            ∧ ∀ k : Fin 8, (Claims.watchHit s.core.st.watch[k] rd wr ea.toNat n → u.core.st.watch[k] = { s.core.st.watch[k] with ctl := s.core.st.watch[k].ctl ||| 16 })
                ∧ (¬ Claims.watchHit s.core.st.watch[k] rd wr ea.toNat n → u.core.st.watch[k] = s.core.st.watch[k]))

/-- R205, R398 and R437: FENCE with an empty set, or with nothing of its strand outstanding, completes without any other effect, but that one with ss and vs in pred marks what is still unacknowledged as issued before it; one whose strand holds a note of a pred class asks for containment with cause 0x11 instead. -/
def Obligations.FenceCompletes : Prop :=
  ∀ (s : State) (p u : BitVec 5) (c : BitVec 3),
    (s.core.st.notes &&& p = 0 → (p = 0 ∨ u = 0 ∨ Claims.Quiet s) →
      ∃ t, exec (.fence p u c) s = .next t ∧ t = { Claims.withSt s (Claims.stepped s.core.st) with invals := t.invals, ctlWrites := t.ctlWrites, reqs := t.reqs }
        ∧ (¬ (p.getLsbD 1 = true ∧ p.getLsbD 3 = true) ∨ Claims.Quiet s → t = Claims.withSt s (Claims.stepped s.core.st)))
    ∧ (s.core.st.notes &&& p ≠ 0 → exec (.fence p u c) s = .next (s.trap 0x11 0 0))

/-- A KVTYPE request is well formed (R62, R63): supported codes, an element type that agrees with the width, MX only with a narrow FP type, bits [62:18] zero. -/
def Claims.wellFormedType (k : Word) : Prop :=
  let f := fun (hi lo : Nat) => (k.extractLsb' lo (hi + 1 - lo)).toNat
  f 2 0 ≤ 3 ∧ f 6 3 ≤ 8 ∧ f 11 10 ≤ 2 ∧ f 13 12 ≤ 2 ∧ f 9 7 ≤ 4 ∧ f 62 18 = 0
    ∧ (f 6 3 = 2 → f 2 0 = 3) ∧ (f 6 3 = 3 → f 2 0 = 2) ∧ (f 6 3 = 4 ∨ f 6 3 = 5 → f 2 0 = 1) ∧ (6 ≤ f 6 3 → f 2 0 = 0)
    ∧ (k.getLsbD 17 = true → 6 ≤ f 6 3)

/-- The KVTYPE that a request leaves on a core of grant 2^g (R56, R174): ILL 0, GRP clamped, every other field as asked. -/
def Claims.typeOf (k : Word) (g : Nat) : Word :=
  BitVec.ofNat 64 (k.toNat % 2 ^ 7 + min (k.toNat / 2 ^ 7 % 8) g * 2 ^ 7 + k.toNat / 2 ^ 10 % 2 ^ 53 * 2 ^ 10)

/-- VLMAX (R56): 256 · Ge bytes over the element width. -/
def Claims.vlmax (k : Word) (g : Nat) : Nat := 256 * 2 ^ min (k.toNat / 2 ^ 7 % 8) g / 2 ^ (k.toNat % 8)

/-- A strand after SETVL: VL and KVTYPE written, which ends an error in them (R412), VL also in s[d], no vector byte moved. -/
def Claims.vlSet (s : State) (d : BitVec 5) (k : Word) (vl : Nat) : State :=
  Claims.withSt s (Claims.scalarAfter { s.core.st with kvtype := k, vl := vl, badK := s.core.st.badK.filter (fun k => k != 4 && k != 5) } d (BitVec.ofNat 64 vl) s.core.st.kfctl (s.core.st.pc + 4))

/-- R174, R63 and R56: SETVL and SETVLI, where no grant reduction is pending, set KVTYPE from a well-formed request with its group clamped to the grant and VL to the lesser of VLMAX and the count (VLMAX where the count register is s0); an ill-formed request leaves ILL alone set and VL 0. Nothing else changes. -/
def Claims.setvlConfigures : Prop :=
  ∀ (s : State) (d a b : BitVec 5) (x sr : BitVec 1) (r : BitVec 2) (g : BitVec 3) (et : BitVec 4) (sew : BitVec 2), s.core.reduceTo = none →
    let imm : Word := BitVec.ofNat 64 (sew.toNat + et.toNat * 2 ^ 3 + g.toNat * 2 ^ 7 + 2 * 2 ^ 10 + 2 * 2 ^ 12 + r.toNat * 2 ^ 14 + sr.toNat * 2 ^ 16 + x.toNat * 2 ^ 17)
    ∀ (i : Instr) (req : Word) (rs : List (BitVec 5)),
      ((i = .setvl d a b ∧ req = s.reg b &&& 0x7FFFFFFFFFFFFFFF ∧ rs = [a, b]) ∨ (i = .setvli d a x sr r g et sew ∧ req = imm ∧ rs = [a])) →
      Claims.Clean s rs →
      let vm := Claims.vlmax req s.core.st.grant
      (Claims.wellFormedType req → exec i s = .next (Claims.vlSet s d (Claims.typeOf req s.core.st.grant) (if a = 0 then vm else min (s.reg a).toNat vm)))
      ∧ (¬ Claims.wellFormedType req → exec i s = .next (Claims.vlSet s d 0x8000000000000000 0))

/-- R175: LIVE moves s[a] to KLM where bits [63:48] are zero, which ends an error in it (R412), and else traps with 0x02, KLM kept. -/
def Claims.liveSetLoads : Prop :=
  ∀ (s : State) (a : BitVec 5), Claims.Clean s [a] →
    exec (.live a) s = if (s.reg a).extractLsb' 48 16 = 0
      then .next (Claims.withSt s (Claims.stepped { s.core.st with klm := s.reg a, badK := s.core.st.badK.filter (· != 3) }))
      else .next (s.trap 0x02 0 0)

/-- Element type classes of R164: 0 and 1 are integers, 2 to 5 floating point. -/
def Claims.etInts (s : State) : Prop := s.et ≤ 1
def Claims.etFps (s : State) : Prop := 2 ≤ s.et ∧ s.et ≤ 5

/-- A vector instruction with governing masks ms may start: KVTYPE is legal, no error has struck VL or KVTYPE, no governing mask has been struck by an error, and none leaves every element inactive (R60, R165, R412). -/
structure Claims.VReady (s : State) (ms : List (BitVec 3)) : Prop where
  legal : s.core.st.kvtype.getLsbD 63 = false
  typed : Claims.kSound s [4, 5]
  sound : ∀ m ∈ ms, m = 0 ∨ s.core.st.badMasks.getLsbD m.toNat = false
  some_ : ∀ m ∈ ms, m = 0 ∨ ∃ i, i < s.core.st.vl ∧ (s.core.st.masks[m.toNat]).getLsbD i = true

/-- The active elements of a governing mask, ascending, in the groups from the one an ERET named on (R8, R262). -/
def Claims.els (s : State) (m : BitVec 3) : List Nat :=
  ((List.range s.core.st.vl).filter (fun i => m == 0 || (s.core.st.masks[m.toNat]).getLsbD i)).filter (fun i => decide (s.startGroup ≤ i * s.w / 256))

/-- The strand after a vector instruction: vd written at the given places (each with its poison), flags set, pc + 4; the rest of the device is as before. -/
def Claims.vWrote (s : State) (d : BitVec 5) (ws : List VWrite) (fl : Flags) : State := ((s.putV d ws).addFlags fl).finishQ

/-- What becomes of a vector register under a list of writes that do not overlap, each of at most 8 bytes inside one 8-byte slot and inside the register: every written byte range reads as its value, every byte outside reads as before; a slot is poisoned when a poisoned value was written into it, or when it was before and was not wholly covered (R65, R79). The flags and other registers are as before. -/
def Claims.vectorRegisterWrites : Prop :=
  ∀ (s : State) (d : BitVec 5) (ws : List VWrite),
    (∀ w ∈ ws, 0 < w.n ∧ w.n ≤ 8 ∧ w.off % w.n = 0 ∧ 8 % w.n = 0 ∧ w.off + w.n ≤ 4096) →
    ws.Pairwise (fun x y => x.off + x.n ≤ y.off ∨ y.off + y.n ≤ x.off) →
    let t := s.putV d ws
    (∀ w ∈ ws, vGet (t.vimg d.toNat) w.off w.n = w.val % 256 ^ w.n)
    ∧ (∀ k < 4096, (∀ w ∈ ws, k < w.off ∨ w.off + w.n ≤ k) → vGet (t.vimg d.toNat) k 1 = vGet (s.vimg d.toNat) k 1)
    ∧ (∀ k < 512, (t.vslots d.toNat).getLsbD k = true ↔
        (∃ w ∈ ws, w.psn = true ∧ w.off / 8 = k)
        ∨ ((s.vslots d.toNat).getLsbD k = true ∧ ∃ b < 8, ∀ w ∈ ws, 8 * k + b < w.off ∨ w.off + w.n ≤ 8 * k + b))
    ∧ (∀ v : Fin 32, v.val ≠ d.toNat → t.core.st.v[v] = s.core.st.v[v] ∧ t.core.st.vpsn[v] = s.core.st.vpsn[v])
    ∧ t = Claims.withSt s { s.core.st with v := t.core.st.v, vpsn := t.core.st.vpsn }

/-- An exact integer narrowed to n bits (R83). -/
def Claims.narrowN (n : Nat) (z : Int) : Nat := (z % 2 ^ n).toNat
/-- The signed value of an n-bit pattern. -/
def Claims.sval (n x : Nat) : Int := if 2 ^ (n - 1) ≤ x then (x : Int) - 2 ^ n else x
/-- A value clamped to a range (R83). -/
def Claims.clamp (lo hi z : Int) : Int := if z < lo then lo else if hi < z then hi else z
/-- A pattern as a value of the element type: signed for ET 0, unsigned for ET 1. -/
def Claims.tval (et n x : Nat) : Int := if et = 0 then Claims.sval n x else x
/-- The least and greatest values of the element type. -/
def Claims.tmin (et n : Nat) : Int := if et = 0 then -2 ^ (n - 1) else 0
def Claims.tmax (et n : Nat) : Int := if et = 0 then 2 ^ (n - 1) - 1 else 2 ^ n - 1

/-- p[i] of the carry-less product of two n-bit values: bit i of the sum without carries (R142, R191). -/
def Claims.clBit (x y i : Nat) : Bool := ((List.range (i + 1)).countP (fun j => x.testBit (i - j) && y.testBit j)) % 2 == 1

/-- The vector-scalar and vector-vector forms of R177's and R191's integer instructions, whether they take any element type or integers only, and their results: of the width n in bits, the element type, x, y and the old element. -/
def Claims.vintTable : List ((BitVec 5 → BitVec 5 → BitVec 5 → BitVec 3 → Instr) × (BitVec 5 → BitVec 5 → BitVec 5 → BitVec 3 → Instr) × Bool × (Nat → Nat → Nat → Nat → Nat)) := [
  (.vaddVV, .vaddVS, false, fun n _ x y => Claims.narrowN n (x + y)),
  (.vsubVV, .vsubVS, false, fun n _ x y => Claims.narrowN n (x - y)),
  (.vmulVV, .vmulVS, false, fun n _ x y => Claims.narrowN n (x * y)),
  (.vmulhVV, .vmulhVS, false, fun n _ x y => Claims.narrowN n (Claims.sval n x * Claims.sval n y / 2 ^ n)),
  (.vmulhnVV, .vmulhnVS, false, fun n _ x y => Claims.narrowN n (x * y / 2 ^ n)),
  (.vandVV, .vandVS, true, fun _ _ x y => x &&& y),
  (.vorVV, .vorVS, true, fun _ _ x y => x ||| y),
  (.vxorVV, .vxorVS, true, fun _ _ x y => x ^^^ y),
  (.vsllVV, .vsllVS, true, fun n _ x y => Claims.narrowN n (x * 2 ^ (y % n))),
  (.vsrlVV, .vsrlVS, true, fun n _ x y => x / 2 ^ (y % n)),
  (.vsraVV, .vsraVS, true, fun n _ x y => Claims.narrowN n (Claims.sval n x / 2 ^ (y % n))),
  (.vminVV, .vminVS, false, fun n _ x y => Claims.narrowN n (min (Claims.sval n x) (Claims.sval n y))),
  (.vmaxVV, .vmaxVS, false, fun n _ x y => Claims.narrowN n (max (Claims.sval n x) (Claims.sval n y))),
  (.vminnVV, .vminnVS, false, fun _ _ x y => min x y),
  (.vmaxnVV, .vmaxnVS, false, fun _ _ x y => max x y),
  (.vsaddVV, .vsaddVS, false, fun n t x y => Claims.narrowN n (Claims.clamp (Claims.tmin t n) (Claims.tmax t n) (Claims.tval t n x + Claims.tval t n y))),
  (.vssubVV, .vssubVS, false, fun n t x y => Claims.narrowN n (Claims.clamp (Claims.tmin t n) (Claims.tmax t n) (Claims.tval t n x - Claims.tval t n y)))]

/-- The writes of an element-wise instruction: for each active element its result, poisoned when a source element was. -/
def Claims.elWrites (s : State) (m : BitVec 3) (f : Nat → Nat) (p : Nat → Bool) : List VWrite :=
  (Claims.els s m).map (fun i => ⟨i * s.w, s.w, f i, p i⟩)

/-- R176 and R177: the element-wise integer instructions, in their vector-vector and vector-scalar forms, write each active element of vd with the table's result on the elements of va and vb (or the low bits of s[b]), with the poison of the source elements, set no flag, and change nothing else. -/
def Claims.vectorIntegerResults : Prop :=
  ∀ (s : State) (d a b : BitVec 5) (m : BitVec 3), Claims.VReady s [m] → s.core.st.kvtype.toNat % 8 ≤ 3 → ∀ p ∈ Claims.vintTable, (p.2.2.1 = true ∨ Claims.etInts s) →
    exec (p.1 d a b m) s = .next (Claims.vWrote s d (Claims.elWrites s m
      (fun i => p.2.2.2 s.sewBits s.et (s.el a s.w i) (s.el b s.w i)) (fun i => s.elPsn a s.w i || s.elPsn b s.w i)) 0)
    ∧ (Claims.Clean s [b] → exec (p.2.1 d a b m) s = .next (Claims.vWrote s d (Claims.elWrites s m
      (fun i => p.2.2.2 s.sewBits s.et (s.el a s.w i) ((s.reg b).toNat % 2 ^ s.sewBits)) (fun i => s.elPsn a s.w i)) 0))

/-- R177 and R191: VMERGE takes each bit from x where y has a 1 and keeps the old bit of vd where it has a 0; VCLMUL and VCLMULH write the low and high halves of the carry-less product. -/
def Claims.vectorMergeAndClmul : Prop :=
  ∀ (s : State) (d a b : BitVec 5) (m : BitVec 3), Claims.VReady s [m] → s.core.st.kvtype.toNat % 8 ≤ 3 → ∀ (vs : Bool), (vs = true → Claims.Clean s [b]) →
    let y := fun i => if vs then (s.reg b).toNat % 2 ^ s.sewBits else s.el b s.w i
    let py := fun i => !vs && s.elPsn b s.w i
    (∃ f : Nat → Nat, exec (if vs then .vmergeVS d a b m else .vmergeVV d a b m) s = .next (Claims.vWrote s d
        (Claims.elWrites s m f (fun i => s.elPsn a s.w i || py i || s.elPsn d s.w i)) 0)
      ∧ ∀ i k, k < s.sewBits → (f i).testBit k = if (y i).testBit k then (s.el a s.w i).testBit k else (s.el d s.w i).testBit k)
    ∧ (Claims.etInts s →
      (∃ f : Nat → Nat, exec (if vs then .vclmulVS d a b m else .vclmulVV d a b m) s = .next (Claims.vWrote s d
          (Claims.elWrites s m f (fun i => s.elPsn a s.w i || py i)) 0)
        ∧ ∀ i k, k < s.sewBits → (f i).testBit k = Claims.clBit (s.el a s.w i) (y i) k)
      ∧ (∃ f : Nat → Nat, exec (if vs then .vclmulhVS d a b m else .vclmulhVV d a b m) s = .next (Claims.vWrote s d
          (Claims.elWrites s m f (fun i => s.elPsn a s.w i || py i)) 0)
        ∧ ∀ i k, k < s.sewBits → (f i).testBit k = Claims.clBit (s.el a s.w i) (y i) (s.sewBits + k)))

/-- R85's table: each format, the code of its largest finite value and its canonical NaN (e2m1 has none). -/
def Claims.fmtTable : List (Fmt × Nat × Nat) := [
  (fp64, 0x7FEFFFFFFFFFFFFF, 0x7FF8000000000000), (fp32, 0x7F7FFFFF, 0x7FC00000), (bf16, 0x7F7F, 0x7FC0), (fp16, 0x7BFF, 0x7E00),
  (e5m2, 0x7B, 0x7E), (e4m3, 0x7E, 0x7F), (e2m1, 0x7, 0)]
/-- The formats that arithmetic instructions take (R146, R164). -/
def Claims.arithFmts : List (Fmt × Nat × Nat) := Claims.fmtTable.take 4

/-- The sign bit of a format, and a code with its magnitude and sign. -/
def Claims.signBit (F : Fmt) : Nat := 2 ^ (F.eb + F.fb)
def Claims.withSign (F : Fmt) (neg : Bool) (mag : Nat) : Nat := if neg then Claims.signBit F + mag else mag
/-- Codes of infinities and zeros, and signs (R85). -/
def Claims.isInf (F : Fmt) (x : Nat) : Prop := Claims.expOf F x = 2 ^ F.eb - 1 ∧ Claims.fracOf F x = 0
def Claims.isZero (F : Fmt) (x : Nat) : Prop := x % Claims.signBit F = 0
def Claims.neg (F : Fmt) (x : Nat) : Bool := Claims.sgnOf F x == 1

/-- x comes before y or is y in the order of minimumNumber, where −0 is less than +0 (R91). -/
def Claims.fle (F : Fmt) (x y : Nat) : Prop := Claims.key F x < Claims.key F y ∨ (Claims.key F x = Claims.key F y ∧ Claims.sgnOf F y ≤ Claims.sgnOf F x)

/-- R88, R90, R91, R92 and R96: what the arithmetic of a format gives without rounding. A NaN operand gives the canonical NaN, with NV only where one is signalling or the operation is invalid besides; ∞ − ∞, 0 · ∞ (whatever the addend of a fused operation is), 0/0, ∞/∞ and the root of a negative value give it with NV; a finite value over zero is ∞ with DZ; infinities and zeros come out with their signs and no flag; an exactly zero sum is +0, −0 in RDN, and the zero of zeros of one sign. That x − y is x + (−y) for zeros too is log 78's reading. -/
def Claims.arithmeticSpecials : Prop :=
  ∀ p ∈ Claims.arithFmts, ∀ (mode x y z : Nat) (fused : Bool),
    let F := p.1
    let nan := Claims.isNan F
    let sig := Claims.isSig F
    let inf := Claims.isInf F
    let zero := Claims.isZero F
    let ng := Claims.neg F
    let fin := fun (v : Nat) => v % Claims.signBit F ≤ p.2.1
    let invalid : Nat × Flags := (p.2.2, 1)
    let quiet := fun (any : Bool) => ((p.2.2, if any then 1 else 0) : Nat × Flags)
    let infinity := fun (n : Bool) => Claims.withSign F n (p.2.1 + 1)
    let zeroOf := fun (n : Bool) => Claims.withSign F n 0
    let flip := fun (v : Nat) => if ng v then v - Claims.signBit F else v + Claims.signBit F
    x < 2 * Claims.signBit F → y < 2 * Claims.signBit F → z < 2 * Claims.signBit F → mode ≤ 3 →
    (fSub F mode x y = fAdd F mode x (flip y))
    ∧ (nan x = true ∨ nan y = true → fAdd F mode x y = quiet (sig x || sig y) ∧ fMul F mode x y = quiet (sig x || sig y) ∧ fDiv F mode x y = quiet (sig x || sig y))
    ∧ (nan x = true → fSqrt F mode x = quiet (sig x))
    ∧ (inf x → inf y → fAdd F mode x y = (if ng x = ng y then (x, 0) else invalid) ∧ fMul F mode x y = (infinity (ng x != ng y), 0) ∧ fDiv F mode x y = invalid)
    ∧ (inf x → fin y → fAdd F mode x y = (x, 0) ∧ fAdd F mode y x = (x, 0) ∧ fDiv F mode x y = (infinity (ng x != ng y), 0) ∧ fDiv F mode y x = (zeroOf (ng x != ng y), 0)
        ∧ fMul F mode x y = (if y % Claims.signBit F = 0 then invalid else (infinity (ng x != ng y), 0)) ∧ fMul F mode y x = fMul F mode x y)
    ∧ (fin x → zero y → fMul F mode x y = (zeroOf (ng x != ng y), 0) ∧ fMul F mode y x = (zeroOf (ng x != ng y), 0)
        ∧ fDiv F mode x y = (if x % Claims.signBit F = 0 then invalid else (infinity (ng x != ng y), 2))
        ∧ (¬ zero x → fDiv F mode y x = (zeroOf (ng x != ng y), 0)))
    ∧ (zero x → zero y → fAdd F mode x y = (zeroOf (if ng x = ng y then ng x else decide (mode = 2)), 0))
    ∧ (fin x → ¬ zero x → fAdd F mode x (flip x) = (zeroOf (decide (mode = 2)), 0))
    ∧ (inf x → fSqrt F mode x = (if ng x then invalid else (x, 0)))
    ∧ (zero x → fSqrt F mode x = (x, 0)) ∧ (fin x → ¬ zero x → ng x = true → fSqrt F mode x = invalid)
    ∧ (let r := fFma F mode fused x y z
       let pn := (ng x != ng y) != fused
       ((inf x ∧ zero y) ∨ (zero x ∧ inf y) → r = invalid)
       ∧ (¬ ((inf x ∧ zero y) ∨ (zero x ∧ inf y)) → nan x = true ∨ nan y = true ∨ nan z = true → r = quiet (sig x || sig y || sig z))
       ∧ ((inf x ∧ ¬ zero y ∧ nan y = false) ∨ (inf y ∧ ¬ zero x ∧ nan x = false) → nan z = false →
            (inf z → r = if ng z = pn then (z, 0) else invalid) ∧ (¬ inf z → r = (infinity pn, 0)))
       ∧ (fin x → fin y → inf z → r = (z, 0))
       ∧ (fin x → fin y → zero x ∨ zero y → zero z → r = (zeroOf (if pn = ng z then pn else decide (mode = 2)), 0)))
    ∧ (∀ (mx : Bool), let r := fMinMax F mx x y
       (nan x = true → nan y = true → r.1 = p.2.2) ∧ (nan x = true → nan y = false → r.1 = y) ∧ (nan x = false → nan y = true → r.1 = x) ∧ (r.2 = if sig x || sig y then 1 else 0)
       ∧ (nan x = false → nan y = false → (r.1 = x ∨ r.1 = y) ∧ (if mx then Claims.fle F x r.1 ∧ Claims.fle F y r.1 else Claims.fle F r.1 x ∧ Claims.fle F r.1 y)))

/-- R89, R90, R93 and R100: conversions and 2^x of what is not rounded. A NaN gives the canonical NaN of the destination, with NV where it is signalling, and +0 with NV in e2m1, which has none; an infinity gives the destination's, in e4m3 the NaN and in e2m1 ±6, both with NV; zeros keep their sign; to an integer, a NaN gives 0 and an infinity the limit of its sign, with NV. 2^NaN is NaN, 2^∞ is ∞, 2^−∞ is +0, 2^±0 is 1, an integer's power in range is exact, and every other finite one sets NX. -/
def Claims.conversionSpecials : Prop :=
  ∀ (mode x : Nat), mode ≤ 3 →
    (∀ p ∈ Claims.fmtTable.take 5, ∀ q ∈ Claims.fmtTable,
      let r := fConvert p.1 q.1 mode x
      let n := Claims.neg p.1 x
      (Claims.isNan p.1 x = true → r = if q.1 = e2m1 then (0, 1) else (q.2.2, if Claims.isSig p.1 x then 1 else 0))
      ∧ (Claims.isInf p.1 x → r = if q.1 = e2m1 then (Claims.withSign q.1 n q.2.1, 1) else if q.1 = e4m3 then (q.2.2, 1) else (Claims.withSign q.1 n (q.2.1 + 1), 0))
      ∧ (Claims.isZero p.1 x → r = (Claims.withSign q.1 n 0, 0)))
    ∧ (∀ p ∈ Claims.arithFmts,
      let F := p.1
      let n := Claims.neg F x
      (Claims.isNan F x = true → fToInt F 64 true mode x = (0, 1) ∧ fToInt F 64 false mode x = (0, 1))
      ∧ (Claims.isInf F x → fToInt F 64 true mode x = (if n then 2 ^ 63 else 2 ^ 63 - 1, 1) ∧ fToInt F 64 false mode x = (if n then 0 else 2 ^ 64 - 1, 1))
      ∧ intToF F 64 true mode 0 = (0, 0) ∧ intToF F 64 false mode 0 = (0, 0)
      ∧ (Claims.isNan F x = true → fExp2 F mode x = (p.2.2, if Claims.isSig F x then 1 else 0))
      ∧ (Claims.isInf F x → fExp2 F mode x = (if n then 0 else p.2.1 + 1, 0))
      ∧ (Claims.isZero F x → fExp2 F mode x = (F.bias * 2 ^ F.fb, 0)))

/-- The value of a finite code as a whole number of the format's least magnitude, which is 2 to the power −scale (R85). -/
def Claims.units (F : Fmt) (x : Nat) : Int :=
  let m : Nat := if Claims.expOf F x = 0 then Claims.fracOf F x else (2 ^ F.fb + Claims.fracOf F x) * 2 ^ (Claims.expOf F x - 1)
  if Claims.sgnOf F x = 1 then -(m : Int) else m
def Claims.scale (F : Fmt) : Nat := F.bias + F.fb - 1

/-- An exact real number by its comparison with every number of quarters: the ratio of two integers, and the root of one. -/
def Claims.ratio (p : Int) (q : Nat) (k : Int) : Ordering := compare (4 * p) (k * q)
def Claims.root (n : Nat) (k : Int) : Ordering := if k < 0 then .gt else compare (16 * (n : Int)) (k * k)

/-- The whole numbers of units that a significand of n bits can hold, with exponents unbounded above (R88). -/
def Claims.onGrid (n : Nat) (v : Int) : Prop := ∃ k j, k < 2 ^ n ∧ v.natAbs = k * 2 ^ j

/-- round of R88, in a mode, of the exact number c onto a grid of whole numbers: v is lo, the nearest value not greater than it, or hi, the nearest not less; on a tie the one whose least significand bit is 0, which lies at the smaller magnitude where that is an even multiple of the gap. -/
def Claims.nearest (grid : Int → Prop) (mode : Nat) (c : Int → Ordering) (v : Int) : Prop :=
  ∃ lo hi, grid lo ∧ grid hi ∧ c (4 * lo) ≠ .lt ∧ c (4 * hi) ≠ .gt ∧ (∀ g, grid g → (c (4 * g) ≠ .lt → g ≤ lo) ∧ (c (4 * g) ≠ .gt → hi ≤ g))
    ∧ v = (match mode with
      | 0 => if lo = hi then lo else match c (2 * (lo + hi)) with
        | .lt => lo
        | .gt => hi
        | .eq => if min lo.natAbs hi.natAbs / (hi - lo).natAbs % 2 = 0 ↔ lo.natAbs < hi.natAbs then lo else hi
      | 1 => if c 0 = .lt then hi else lo
      | 2 => lo
      | _ => hi)

/-- The number c is tiny (R92): below the smallest normal magnitude, 2^f units, after rounding with unbounded exponent, which has steps of half a unit there. -/
def Claims.tiny (F : Fmt) (mode : Nat) (c : Int → Ordering) : Prop :=
  let w : Int := 4 * 2 ^ F.fb
  if mode = 0 then c (w - 1) = .lt ∧ c (1 - w) = .gt
  else if (mode = 2 ∧ c 0 = .lt) ∨ (mode = 3 ∧ c 0 = .gt) then c (w - 2) ≠ .gt ∧ c (2 - w) ≠ .lt
  else c w = .lt ∧ c (-w) = .gt

/-- r is the number c, not zero, rounded into a format: the finite code of the rounded value, with c's sign, no flag where it is exact, else NX, and UF beside it for a tiny number that does not become zero; where the rounded magnitude exceeds the largest finite one, R89's code with OF and NX (R88, R89, R92). -/
def Claims.rounded (p : Fmt × Nat × Nat) (mode : Nat) (c : Int → Ordering) (r : Nat × Flags) : Prop :=
  let F := p.1
  let most := (Claims.units F p.2.1).natAbs
  let neg := decide (c 0 = .lt)
  ∃ v, Claims.nearest (Claims.onGrid (F.fb + 1)) mode c v
    ∧ (v.natAbs ≤ most → r.1 < 2 * Claims.signBit F ∧ r.1 % Claims.signBit F ≤ p.2.1 ∧ Claims.units F r.1 = v ∧ Claims.neg F r.1 = neg
        ∧ (c (4 * v) = .eq → r.2 = 0) ∧ (c (4 * v) ≠ .eq → (Claims.tiny F mode c ∧ v ≠ 0 → r.2 = 24) ∧ (¬ (Claims.tiny F mode c ∧ v ≠ 0) → r.2 = 16)))
    ∧ (most < v.natAbs → r = (Claims.withSign F neg (if F.inf = true ∧ (mode = 0 ∨ (mode = 2 ∧ neg = true) ∨ (mode = 3 ∧ neg = false)) then p.2.1 + 1 else p.2.1), 20))

/-- R88, R89, R92 and R96: on finite operands each arithmetic operation of a format gives its exact result, where that is not zero, rounded once. -/
def Claims.arithmeticRounds : Prop :=
  ∀ p ∈ Claims.arithFmts, ∀ (mode x y z : Nat) (fused : Bool), mode ≤ 3 →
    let F := p.1
    let u := Claims.units F
    let K := Claims.scale F
    let fin := fun (v : Nat) => v % Claims.signBit F ≤ p.2.1
    let prod := if fused then -(u x * u y) else u x * u y
    fin x → fin y → fin z →
    (u x + u y ≠ 0 → Claims.rounded p mode (Claims.ratio (u x + u y) 1) (fAdd F mode x y))
    ∧ (u x * u y ≠ 0 → Claims.rounded p mode (Claims.ratio (u x * u y) (2 ^ K)) (fMul F mode x y))
    ∧ (prod + u z * 2 ^ K ≠ 0 → Claims.rounded p mode (Claims.ratio (prod + u z * 2 ^ K) (2 ^ K)) (fFma F mode fused x y z))
    ∧ (u x ≠ 0 → u y ≠ 0 → Claims.rounded p mode (Claims.ratio (u x * 2 ^ K * (u y).sign) (u y).natAbs) (fDiv F mode x y))
    ∧ (0 < u x → Claims.rounded p mode (Claims.root ((u x).toNat * 2 ^ K)) (fSqrt F mode x))

/-- R93 and R100: conversions of finite values other than zero, between formats and to and from integers of 64 bits; a power of two of an integer is exact in range, and of another finite value sets NX. -/
def Claims.conversionsRound : Prop :=
  ∀ (mode x : Nat), mode ≤ 3 →
    (∀ p ∈ Claims.fmtTable, ∀ q ∈ Claims.fmtTable, x % Claims.signBit p.1 ≤ p.2.1 → Claims.units p.1 x ≠ 0 →
      Claims.rounded q mode (Claims.ratio (Claims.units p.1 x * 2 ^ Claims.scale q.1) (2 ^ Claims.scale p.1)) (fConvert p.1 q.1 mode x))
    ∧ (∀ p ∈ Claims.arithFmts, ∀ (sgn : Bool),
      let F := p.1
      let c := Claims.ratio (Claims.units F x) (2 ^ Claims.scale F)
      let lo : Int := if sgn then -2 ^ 63 else 0
      let hi : Int := if sgn then 2 ^ 63 - 1 else 2 ^ 64 - 1
      let r := fToInt F 64 sgn mode x
      let i : Int := if sgn then Claims.sval 64 (x % 2 ^ 64) else (x % 2 ^ 64 : Nat)
      (x % Claims.signBit F ≤ p.2.1 → ∃ v, Claims.nearest (fun _ => True) mode c v
        ∧ (v < lo → r = (Claims.narrowN 64 lo, 1)) ∧ (hi < v → r = (Claims.narrowN 64 hi, 1)) ∧ (lo ≤ v → v ≤ hi → r = (Claims.narrowN 64 v, if c (4 * v) = .eq then 0 else 16)))
      ∧ (i ≠ 0 → Claims.rounded p mode (Claims.ratio (i * 2 ^ Claims.scale F) 1) (intToF F 64 sgn mode x))
      ∧ (x % Claims.signBit F ≤ p.2.1 → ∀ n : Int, Claims.units F x = n * 2 ^ Claims.scale F → -(Claims.scale F : Int) ≤ n → n ≤ F.bias →
          (fExp2 F mode x).2 = 0 ∧ (fExp2 F mode x).1 ≤ p.2.1 ∧ Claims.units F (fExp2 F mode x).1 = 2 ^ (n + Claims.scale F).toNat)
      ∧ (x % Claims.signBit F ≤ p.2.1 → (∀ n : Int, Claims.units F x ≠ n * 2 ^ Claims.scale F) → (fExp2 F mode x).2 ∈ [16#5, 20#5, 24#5]))

/-- R97: where both operand elements and the cell are finite, an FP cell is updated by the exact sum of the cell and its products rounded once: fp64 as a fused multiply-add in KVTYPE.RM, every other type into fp32 in RNE. A sum that is exactly zero is +0, −0 in RDN, where its terms are not all zeros. -/
def Claims.dotProductsRound : Prop :=
  ∀ (s : State) (a b : BitVec 5) (neg : Bool) (c i j : Nat), s.core.st.kvtype.getLsbD 17 = false →
    (s.et = 2 → s.fpUpdate a b neg c i j = fFma fp64 (s.core.st.kvtype.extractLsb' 14 2).toNat neg (s.el a 8 i) (s.el b 8 j) c)
    ∧ ∀ p ∈ Claims.fmtTable, s.et ≠ 2 → fmtOf s.et = some p.1 →
      let F := p.1
      let w := F.width
      let val := fun (v : BitVec 5) (k t : Nat) => s.el v 8 k / 2 ^ (t * w) % 2 ^ w
      let fin := fun (v : Nat) => v % Claims.signBit F ≤ p.2.1
      let sum := ((List.range (64 / w)).map (fun t => Claims.units F (val a i t) * Claims.units F (val b j t))).sum
      let exact := Claims.units fp32 c * 2 ^ (2 * Claims.scale F) + (if neg then -sum else sum) * 2 ^ 149
      c % 2 ^ 31 ≤ 0x7F7FFFFF → (∀ t, t < 64 / w → fin (val a i t) ∧ fin (val b j t)) →
      (exact ≠ 0 → Claims.rounded (fp32, 0x7F7FFFFF, 0x7FC00000) 0 (Claims.ratio exact (2 ^ (2 * Claims.scale F))) (s.fpUpdate a b neg c i j))
      ∧ (exact = 0 → Claims.units fp32 c ≠ 0 → s.fpUpdate a b neg c i j = (0, 0))

/-- The element-wise FP instructions of two sources (R178): vector-vector form, vector-scalar form, the operation on codes. -/
def Claims.vfpTable : List ((BitVec 5 → BitVec 5 → BitVec 5 → BitVec 3 → Instr) × (BitVec 5 → BitVec 5 → BitVec 5 → BitVec 3 → Instr) × (Fmt → Nat → Nat → Nat → Nat × Flags)) := [
  (.vfaddVV, .vfaddVS, fAdd), (.vfsubVV, .vfsubVS, fSub), (.vfmulVV, .vfmulVS, fMul), (.vfdivVV, .vfdivVS, fDiv),
  (.vfminVV, .vfminVS, fun f _ x y => fMinMax f false x y), (.vfmaxVV, .vfmaxVS, fun f _ x y => fMinMax f true x y)]

/-- The or of the flags of a list of results. -/
def Claims.flagsOf (rs : List (Nat × Flags)) : Flags := rs.foldl (fun f r => f ||| r.2) 0

/-- R178: the element-wise FP instructions, under an FP element type, write each active element with its operation's result, rounded in KVTYPE.RM, with the poison of every element read, and set the flags of all of them; the fused ones read the old element, and VFNMS negates the product. What the operations give is ScalarFpResults' and FpRounding's. -/
def Obligations.VectorFpResults : Prop :=
  ∀ (s : State) (d a b : BitVec 5) (m : BitVec 3) (F : Fmt), Claims.VReady s [m] → fmtOf s.et = some F → Claims.etFps s → ∀ (vs : Bool), (vs = true → Claims.Clean s [b]) →
    let rm := (s.core.st.kvtype.extractLsb' 14 2).toNat
    let x := fun i => s.el a s.w i
    let y := fun i => if vs then (s.reg b).toNat % 2 ^ s.sewBits else s.el b s.w i
    let old := fun i => s.el d s.w i
    let py := fun i => !vs && s.elPsn b s.w i
    let done := fun (f : Nat → Nat × Flags) (p : Nat → Bool) =>
      (Host.Outcome.next (Claims.vWrote s d (Claims.elWrites s m (fun i => (f i).1) p) (Claims.flagsOf ((Claims.els s m).map f))) : Out)
    (∀ p ∈ Claims.vfpTable, exec (if vs then p.2.1 d a b m else p.1 d a b m) s = done (fun i => p.2.2 F rm (x i) (y i)) (fun i => s.elPsn a s.w i || py i))
    ∧ exec (if vs then .vfmaVS d a b m else .vfmaVV d a b m) s = done (fun i => fFma F rm false (x i) (y i) (old i)) (fun i => s.elPsn a s.w i || py i || s.elPsn d s.w i)
    ∧ exec (if vs then .vfnmsVS d a b m else .vfnmsVV d a b m) s = done (fun i => fFma F rm true (x i) (y i) (old i)) (fun i => s.elPsn a s.w i || py i || s.elPsn d s.w i)
    ∧ exec (.vfsqrt d a m) s = done (fun i => fSqrt F rm (x i)) (fun i => s.elPsn a s.w i)
    ∧ exec (.vfexp2 d a m) s = done (fun i => fExp2 F rm (x i)) (fun i => s.elPsn a s.w i)

/-- R165, R164, R60 and R412: an element-wise integer instruction of the table traps with 0x09 where an error has struck VL or KVTYPE, else with 0x04 under an ILL KVTYPE, else with 0x01 under an element type it does not take, each before any effect; under an all-false governing mask it is dropped: the pc advances and nothing else changes. -/
def Claims.vectorFrontChecks : Prop :=
  ∀ (s : State) (d a b : BitVec 5) (m : BitVec 3), ∀ p ∈ Claims.vintTable,
    (¬ Claims.kSound s [4, 5] → exec (p.1 d a b m) s = .next (s.trap 0x09 0 0))
    ∧ (Claims.kSound s [4, 5] →
      (s.core.st.kvtype.getLsbD 63 = true → exec (p.1 d a b m) s = .next (s.trap 0x04 0 0))
      ∧ (s.core.st.kvtype.getLsbD 63 = false → p.2.2.1 = false → 2 ≤ s.et → exec (p.1 d a b m) s = .next (s.trap 0x01 0 0))
      ∧ (s.core.st.kvtype.getLsbD 63 = false → (p.2.2.1 = true ∨ Claims.etInts s) → m ≠ 0 → s.core.st.badMasks.getLsbD m.toNat = false →
          (∀ i < s.core.st.vl, (s.core.st.masks[m.toNat]).getLsbD i = false) → exec (p.1 d a b m) s = .next s.finishQ))

/-- The state after a mask register's bits were written, flags set, and the instruction done. -/
def Claims.mWrote (s : State) (d : BitVec 3) (bs : List (Nat × Bool)) (fl : Flags) : State := ((s.putM d bs).addFlags fl).finishQ

/-- R65: a mask write changes the named bits of its register to the last value given for each, and no other bit, register or device field (a write of all 4,096 bits also ends an error in the register: R412). -/
def Claims.maskRegisterWrites : Prop :=
  ∀ (s : State) (d : BitVec 3) (bs : List (Nat × Bool)), (∀ b ∈ bs, b.1 < 4096) → (bs.map (·.1)).Nodup →
    let t := s.putM d bs
    (∀ b ∈ bs, (t.core.st.masks[d.toNat]).getLsbD b.1 = b.2)
    ∧ (∀ k, (∀ b ∈ bs, b.1 ≠ k) → (t.core.st.masks[d.toNat]).getLsbD k = (s.core.st.masks[d.toNat]).getLsbD k)
    ∧ (∀ m : Fin 8, m.val ≠ d.toNat → t.core.st.masks[m] = s.core.st.masks[m])
    ∧ t = Claims.withSt s { s.core.st with masks := t.core.st.masks, badMasks := t.core.st.badMasks }
    ∧ (bs.length ≠ 4096 → t.core.st.badMasks = s.core.st.badMasks)

/-- Integer conditions of R118 on n-bit values: 0 eq, 1 ne, 2 lt, 3 ge, 4 ltn, 5 gen. -/
def Claims.icond (c n x y : Nat) : Bool :=
  match c with
  | 0 => decide (x = y) | 1 => decide (x ≠ y)
  | 2 => decide (Claims.sval n x < Claims.sval n y) | 3 => decide (Claims.sval n x ≥ Claims.sval n y)
  | 4 => decide (x < y) | _ => decide (x ≥ y)

/-- FP conditions of R118, and whether one sets NV, by R182's table: 0 eq, 1 ne, 2 lt, 3 le, 4 un, 5 ord. -/
def Claims.fcond (F : Fmt) (c x y : Nat) : Bool × Flags :=
  let nan := Claims.isNan F x || Claims.isNan F y
  let sig := Claims.isSig F x || Claims.isSig F y
  let a := Claims.key F x
  let b := Claims.key F y
  match c with
  | 0 => (!nan && a == b, if sig then 1 else 0) | 1 => (nan || a != b, if sig then 1 else 0)
  | 2 => (!nan && decide (a < b), if nan then 1 else 0) | 3 => (!nan && decide (a ≤ b), if nan then 1 else 0)
  | 4 => (nan, if sig then 1 else 0) | _ => (!nan, if sig then 1 else 0)

/-- The active elements without regard to a resumed group. -/
def Claims.act (s : State) (m : BitVec 3) : List Nat := (List.range s.core.st.vl).filter (fun i => m == 0 || (s.core.st.masks[m.toNat]).getLsbD i)

/-- A mask bit. -/
def Claims.mbit (s : State) (a : BitVec 3) (i : Nat) : Bool := (s.core.st.masks[a.toNat]).getLsbD i

/-- The state after s[d] was written by an instruction of the vector queue. -/
def Claims.qWrote (s : State) (d : BitVec 5) (v : Word) : State := (s.setReg d v).finishQ

/-- The write of element i. -/
def Claims.wr (s : State) (i v : Nat) (p : Bool) : VWrite := ⟨i * s.w, s.w, v, p⟩

/-- R184 to R188: the permutations, with a destination apart from their sources, move each active element with its poison; what comes from beyond VL is 0; VCOMP packs the active elements down, VIOTA writes the running count of the mask's bits, VEXT and VINS move one element between s and v, VBCST copies s[a] to every active element. -/
def Claims.permutations : Prop :=
  ∀ (s : State) (d a b : BitVec 5) (x m : BitVec 3), Claims.VReady s [m] → Claims.Clean s [a, b] → d ≠ a → d ≠ b →
    let E := Claims.act s m
    let k := (s.reg b).toNat
    exec (.vslup d a b m) s = .next (Claims.vWrote s d ((E.filter (fun i => decide (k ≤ i))).map (fun i => Claims.wr s i (s.el a s.w (i - k)) (s.elPsn a s.w (i - k)))) 0)
    ∧ exec (.vsldn d a b m) s = .next (Claims.vWrote s d (E.map (fun i => if i + k < s.core.st.vl then Claims.wr s i (s.el a s.w (i + k)) (s.elPsn a s.w (i + k)) else Claims.wr s i 0 false)) 0)
    ∧ ((∀ i ∈ E, s.elPsn b s.w i = false) → exec (.vrgath d a b m) s = .next (Claims.vWrote s d
        (E.map (fun i => if s.el b s.w i < s.core.st.vl then Claims.wr s i (s.el a s.w (s.el b s.w i)) (s.elPsn a s.w (s.el b s.w i)) else Claims.wr s i 0 false)) 0))
    ∧ exec (.vcomp d a m) s = .next (Claims.vWrote s d ((List.range E.length).map (fun k => Claims.wr s k (s.el a s.w (E.getD k 0)) (s.elPsn a s.w (E.getD k 0)))) 0)
    ∧ (s.core.st.badMasks.getLsbD x.toNat = false → ∃ ws, exec (.viota d x m) s = .next (Claims.vWrote s d ws 0)
        ∧ ∀ w, w ∈ ws ↔ ∃ i ∈ E, w = Claims.wr s i (((E.filter (fun j => decide (j < i))).countP (Claims.mbit s x)) % 2 ^ s.sewBits) false)
    ∧ (k ∈ E → s.elPsn a s.w k = false → exec (.vext d a b m) s = .next (Claims.qWrote s d
        (if s.et = 0 then (BitVec.ofNat s.sewBits (s.el a s.w k)).signExtend 64 else BitVec.ofNat 64 (s.el a s.w k))))
    ∧ (k ∉ E → exec (.vext d a b m) s = .next (Claims.qWrote s d 0))
    ∧ exec (.vins d a b m) s = .next (if k ∈ E then Claims.vWrote s d [Claims.wr s k ((s.reg a).toNat % 2 ^ s.sewBits) false] 0 else s.finishQ)
    ∧ exec (.vbcst d a m) s = .next (Claims.vWrote s d (E.map (fun i => Claims.wr s i ((s.reg a).toNat % 2 ^ s.sewBits) false)) 0)

/-- The integer operators of R121 on n-bit values: 0 add, 1 min, 2 max, 3 minn, 4 maxn, 5 and, 6 or, 7 xor. -/
def Claims.rop (o n x y : Nat) : Nat :=
  match o with
  | 0 => (x + y) % 2 ^ n
  | 1 => Claims.narrowN n (min (Claims.sval n x) (Claims.sval n y)) | 2 => Claims.narrowN n (max (Claims.sval n x) (Claims.sval n y))
  | 3 => min x y | 4 => max x y | 5 => x &&& y | 6 => x ||| y | _ => x ^^^ y

/-- R98, R189 and R190 for integers: VRED writes element 0 with the reduction of the active elements (each integer operator is associative and commutative, so any order gives it), poisoned when one of them is; VSCAN writes each active element with the reduction of the active elements up to it; neither sets a flag. -/
def Claims.integerReductions : Prop :=
  ∀ (s : State) (d a : BitVec 5) (m : BitVec 3) (o : BitVec 4), Claims.VReady s [m] → Claims.etInts s → o.toNat ≤ 7 → s.core.st.kvtype.toNat % 8 ≤ 3 → Claims.act s m ≠ [] →
    let E := Claims.act s m
    let red := fun (l : List Nat) => match l with
      | [] => 0
      | i :: r => r.foldl (fun x j => Claims.rop o.toNat s.sewBits x (s.el a s.w j)) (s.el a s.w i)
    exec (.vred d a m o) s = .next (Claims.vWrote s d [⟨0, s.w, red E, E.any (s.elPsn a s.w)⟩] 0)
    ∧ ∃ ws, exec (.vscan d a m o) s = .next (Claims.vWrote s d ws 0)
        ∧ ∀ w, w ∈ ws ↔ ∃ i ∈ E, w = Claims.wr s i (red (E.filter (fun j => decide (j ≤ i)))) ((E.filter (fun j => decide (j ≤ i))).any (s.elPsn a s.w))

/-- The operators of R189 on FP codes, rounded in mode rm: 0 add, 1 min, 2 max; and their identities (R98): −0, +∞, −∞. -/
def Claims.fop (F : Fmt) (rm o x y : Nat) : Nat × Flags :=
  match o with
  | 0 => fAdd F rm x y
  | 1 => fMinMax F false x y | _ => fMinMax F true x y
def Claims.fid (F : Fmt) (o : Nat) : Nat :=
  match o with
  | 0 => Claims.withSign F true 0
  | 1 => Claims.withSign F false ((2 ^ F.eb - 1) * 2 ^ F.fb) | _ => Claims.withSign F true ((2 ^ F.eb - 1) * 2 ^ F.fb)

/-- Position p of a level of R98's tree: the value there, where one is present, and the flags raised below it. -/
def Claims.tree (op : Nat → Nat → Nat × Flags) (at_ : Nat → Option Nat) : Nat → Nat → Option Nat × Flags
  | 0, p => (at_ p, 0)
  | n + 1, p =>
    let l := Claims.tree op at_ n (2 * p)
    let r := Claims.tree op at_ n (2 * p + 1)
    match l.1, r.1 with
    | some x, some y => (some (op x y).1, l.2 ||| r.2 ||| (op x y).2)
    | some x, none => (some x, l.2 ||| r.2)
    | none, y => (y, l.2 ||| r.2)

/-- R98, R99, R189 and R190 under an FP type: VRED writes element 0 with the top of the fixed pairwise tree, whose level 0 is the least power of two not below VL, and sets the flags of all its combinations; VSCAN's running value starts at the operator's identity; both rounded in KVTYPE.RM, poisoned as the elements combined are. -/
def Claims.fpReductions : Prop :=
  ∀ (s : State) (d a : BitVec 5) (m : BitVec 3) (o : BitVec 4) (F : Fmt), Claims.VReady s [m] → Claims.etFps s → fmtOf s.et = some F → o.toNat ≤ 2 →
    let E := Claims.act s m
    let op := Claims.fop F (s.core.st.kvtype.extractLsb' 14 2).toNat o.toNat
    let run := fun (l : List Nat) => l.foldl (fun (z : Nat × Flags) j => ((op z.1 (s.el a s.w j)).1, z.2 ||| (op z.1 (s.el a s.w j)).2)) (Claims.fid F o.toNat, 0)
    (∀ n, 1 ≤ s.core.st.vl → s.core.st.vl ≤ 2 ^ n → (∀ k, s.core.st.vl ≤ 2 ^ k → n ≤ k) →
      let top := Claims.tree op (fun i => if i ∈ E then some (s.el a s.w i) else none) n 0
      exec (.vred d a m o) s = .next (Claims.vWrote s d [⟨0, s.w, top.1.getD (Claims.fid F o.toNat), E.any (s.elPsn a s.w)⟩] top.2))
    ∧ ∃ ws, exec (.vscan d a m o) s = .next (Claims.vWrote s d ws (run E).2)
        ∧ ∀ w, w ∈ ws ↔ ∃ i ∈ E, w = Claims.wr s i (run (E.filter (fun j => decide (j ≤ i)))).1 ((E.filter (fun j => decide (j ≤ i))).any (s.elPsn a s.w))

/-- R60, R98 and R190: with VL = 0, or with every element inactive, VRED and VSCAN of a type that takes the operator only complete; nothing is written, the identity neither. -/
def Claims.emptyReductions : Prop :=
  ∀ (s : State) (d a : BitVec 5) (m : BitVec 3) (o : BitVec 4), s.core.st.kvtype.getLsbD 63 = false → Claims.kSound s [4, 5] → (m = 0 ∨ s.core.st.badMasks.getLsbD m.toNat = false) →
    (Claims.etInts s ∧ o.toNat ≤ 7) ∨ (Claims.etFps s ∧ o.toNat ≤ 2) → Claims.act s m = [] →
    exec (.vred d a m o) s = .next s.finishQ ∧ exec (.vscan d a m o) s = .next s.finishQ

/-- Stochastic rounding applies to a conversion from type t (R94, R179): KVTYPE.SR, and an FP type to a narrower one. -/
def Claims.stochastic (s : State) (t : Nat) : Prop :=
  s.core.st.kvtype.getLsbD 16 = true ∧ ∃ F G, fmtOf t = some F ∧ fmtOf s.et = some G ∧ G.width < F.width

/-- R179 and R412: VFCVT without MX, from a type and to a type that are not both integers, with its source registers below v32 and apart from vd, traps with 0x09 where it rounds stochastically and an error has struck KSR, and else completes: it writes the active elements of vd, sets flags, and changes nothing else; without stochastic rounding an FP element converted to an FP type of one width is the model's rounded conversion of it (FpRounding), with its poison. -/
def Obligations.VfcvtCompletes : Prop :=
  ∀ (s : State) (d a : BitVec 5) (t : BitVec 4) (m : BitVec 3), Claims.VReady s [m] → t.toNat ≤ 8 → s.core.st.kvtype.getLsbD 17 = false →
    ¬ (t.toNat ≤ 1 ∧ s.et ≤ 1) → a.toNat + cvtRegs t.toNat s.et s.w ≤ 32 → (d.toNat < a.toNat ∨ a.toNat + cvtRegs t.toNat s.et s.w ≤ d.toNat) →
    (Claims.stochastic s t.toNat ∧ ¬ Claims.kSound s [2] → exec (.vfcvt d a t m) s = .next (s.trap 0x09 0 0))
    ∧ (¬ (Claims.stochastic s t.toNat ∧ ¬ Claims.kSound s [2]) →
      ∃ (f : Nat → Nat) (p : Nat → Bool) (fl : Flags), exec (.vfcvt d a t m) s = .next (Claims.vWrote s d (Claims.elWrites s m f p) fl)
        ∧ ∀ (i : Nat) (F G : Fmt), i * s.w < 256 * 2 ^ (s.core.st.kvtype.toNat / 2 ^ 7 % 8) → fmtOf t.toNat = some F → fmtOf s.et = some G → s.et ≠ 8 → F.width = 8 * s.w → s.core.st.kvtype.getLsbD 16 = false →
            f i = (cvtFp F G (s.core.st.kvtype.extractLsb' 14 2).toNat none none (s.el a s.w i)).1 ∧ p i = s.elPsn a s.w i)

/-- The strand's own scratchpad holds element i of an access of w bytes at offset off i of its allotment, aligned and without poison where it matters. -/
def Claims.inPad (s : State) (va : Nat → Word) (off : Nat → Nat) (w : Nat) (es : List Nat) : Prop :=
  ∀ i ∈ es, Claims.ownPad s (va i) (off i) ∧ off i % w = 0

/-- The addresses of R193: unit stride, byte stride in s[b], and the 64-bit index X(i) of the registers from vb on. -/
def Claims.unitVa (s : State) (a : BitVec 5) (i : Nat) : Word := Claims.narrow ((s.reg a).toInt + i * s.w)
def Claims.strideVa (s : State) (a b : BitVec 5) (i : Nat) : Word := Claims.narrow ((s.reg a).toInt + i * (s.reg b).toInt)
def Claims.indexVa (s : State) (a b : BitVec 5) (i : Nat) : Word := s.reg a + s.idxVal b i

/-- The index registers of an indexed form are legal for it and carry no poison among the active elements (R193, R195). -/
def Claims.idxReady (s : State) (b : BitVec 5) (d : Option (BitVec 5)) (m : BitVec 3) : Prop :=
  s.idxOk b d = true ∧ ∀ i ∈ Claims.els s m, s.idxPsn b i = false

/-- A vector load or store instruction with its element addresses. -/
inductive Claims.IsVLoad (s : State) (d : BitVec 5) (m : BitVec 3) : Instr → (Nat → Word) → Prop where
  | vld (a : BitVec 5) (h : BitVec 1) (c : Claims.Clean s [a]) : Claims.IsVLoad s d m (.vld d a m h) (Claims.unitVa s a)
  | vldff (a : BitVec 5) (h : BitVec 1) (c : Claims.Clean s [a]) : Claims.IsVLoad s d m (.vldff d a m h) (Claims.unitVa s a)
  | vlds (a b : BitVec 5) (h : BitVec 1) (c : Claims.Clean s [a, b]) : Claims.IsVLoad s d m (.vlds d a b m h) (Claims.strideVa s a b)
  | vldx (a b : BitVec 5) (h : BitVec 1) (c : Claims.Clean s [a]) (r : Claims.idxReady s b (some d) m) : Claims.IsVLoad s d m (.vldx d a b m h) (Claims.indexVa s a b)
inductive Claims.IsVStore (s : State) (d : BitVec 5) (m : BitVec 3) : Instr → (Nat → Word) → Prop where
  | vst (a : BitVec 5) (h : BitVec 1) (c : Claims.Clean s [a]) : Claims.IsVStore s d m (.vst d a m h) (Claims.unitVa s a)
  | vsts (a b : BitVec 5) (h : BitVec 1) (c : Claims.Clean s [a, b]) : Claims.IsVStore s d m (.vsts d a b m h) (Claims.strideVa s a b)
  | vstx (a b : BitVec 5) (h : BitVec 1) (c : Claims.Clean s [a]) (r : Claims.idxReady s b none m) : Claims.IsVStore s d m (.vstx d a b m h) (Claims.indexVa s a b)
  | vstxo (a b : BitVec 5) (h : BitVec 1) (c : Claims.Clean s [a]) (r : Claims.idxReady s b none m) : Claims.IsVStore s d m (.vstxo d a b m h) (Claims.indexVa s a b)

/-- The elements of an access lie each at a byte of flat HBM of this device (memAt). -/
def Claims.inMem (s : State) (va : Nat → Word) (pa : Nat → Nat) (w : Nat) (es : List Nat) (rd wr : Bool) : Prop := ∀ i ∈ es, Claims.memAt s (va i) w rd wr (pa i)
/-- What a memory holds after elements of w bytes have been written at the places: each its bytes, and every other byte below the capacity tier as before. -/
def Claims.scattered (m m' : Memory) (es : List Nat) (at_ : Nat → Nat) (w : Nat) (v : Nat → Nat) : Prop :=
  (∀ i ∈ es, readNat m' (at_ i) w = v i) ∧ ∀ k, k < 0x100000000000 → (∀ i ∈ es, k < at_ i ∨ at_ i + w ≤ k) → readByte m' k = readByte m k

/-- R192 to R198: every vector load whose active elements lie aligned in the own scratchpad writes each of them from its bytes there, with the poison of its granule, and changes nothing else; VLDFF trims nothing. One whose active elements lie in flat HBM of this device writes them from there, with the poison of their lines, and leaves every byte of flat HBM. -/
def Obligations.VectorLoadsRead : Prop :=
  ∀ (s : State) (d : BitVec 5) (m : BitVec 3) (i : Instr) (va : Nat → Word),
    Claims.IsVLoad s d m i va → Claims.VReady s [m] → Claims.Quiet s → s.core.st.answers = [] → s.core.st.prog = none →
    let es := Claims.els s m
    (∀ off, Claims.inPad s va off s.w es → exec i s = .next (Claims.vWrote s d (es.map (fun i =>
      ⟨i * s.w, s.w, readNat s.core.pad (s.core.st.allotBase + off i) s.w, s.core.padPsnIn (s.core.st.allotBase + off i) s.w⟩)) 0))
    ∧ (∀ pa, Claims.inMem s va pa s.w es true false → ∃ t, exec i s = .next t ∧ Claims.flatKept s t
      ∧ t.core.st = (Claims.vWrote s d (es.map (fun i => ⟨i * s.w, s.w, readNat s.mem (pa i) s.w, s.linePsn (pa i / 64)⟩)) 0).core.st)

/-- R192 to R197: every vector store whose active elements lie aligned at distinct places of the own scratchpad puts each element's bytes at its place and leaves every other byte of the scratchpad; with no poisoned element no granule becomes poisoned. Everything else of the device is as before, but that the instruction is done. One whose active elements, none of them poisoned, lie at distinct places of flat HBM of this device does the same there (VSTXO in one step where no L1 holds one of the lines: R196). -/
def Obligations.VectorStoresWrite : Prop :=
  ∀ (s : State) (d : BitVec 5) (m : BitVec 3) (i : Instr) (va : Nat → Word),
    Claims.IsVStore s d m i va → Claims.VReady s [m] → Claims.Quiet s → s.core.st.answers = [] → s.core.st.prog = none → s.startGroup = 0 → s.core.st.kvtype.toNat % 8 ≤ 3 →
    let es := Claims.els s m
    (∀ off, Claims.inPad s va off s.w es → s.core.st.allotBase % 64 = 0 → (es.map off).Nodup →
      ∃ t, exec i s = .next t ∧ t = { s.finishQ with core := { s.finishQ.core with pad := t.core.pad, padPsn := t.core.padPsn } }
        ∧ (∀ i ∈ es, readNat t.core.pad (s.core.st.allotBase + off i) s.w = s.el d s.w i)
        ∧ (∀ k, (∀ i ∈ es, k < s.core.st.allotBase + off i ∨ s.core.st.allotBase + off i + s.w ≤ k) → readByte t.core.pad k = readByte s.core.pad k)
        ∧ ((∀ i ∈ es, s.elPsn d s.w i = false) → ∀ g ∈ t.core.padPsn, g ∈ s.core.padPsn))
    ∧ (∀ pa, Claims.inMem s va pa s.w es false true → (es.map pa).Nodup → (∀ i ∈ es, s.elPsn d s.w i = false) →
        ((∃ a b h, i = .vstxo d a b m h) → ∀ i ∈ es, s.holders (pa i / 64) = []) →
      ∃ t, exec i s = .next t ∧ t.core.st = s.finishQ.core.st ∧ t.core.pad = s.core.pad ∧ Claims.scattered s.mem t.mem es pa s.w (s.el d s.w))

/-- What VSCA's operator makes of the old value and the contribution, of n bits (R201, R202): 0 add, 1 min, 2 max, signed for ET 0; rounded in a mode for fp64 and fp32 (ET 2 and 3). -/
def Claims.scaOf (o et mode n old u : Nat) : Nat :=
  let fp := fun (F : Fmt) => (if o = 0 then fAdd F mode old u else fMinMax F (o == 2) old u).1 % 2 ^ n
  if et = 2 then fp fp64 else if et = 3 then fp fp32
  else if o = 0 then (old + u) % 2 ^ n
  else if o = 1 then (if Claims.tval et n u < Claims.tval et n old then u else old)
  else if Claims.tval et n old < Claims.tval et n u then u else old

/-- R201 to R203: VSCA on distinct places without poison, of the own scratchpad or of flat HBM of this device, under an element type that it takes, updates each with its operator (FP in KVTYPE.RM) and leaves every other byte; it writes no register and sets no flag. -/
def Obligations.ScatterAccumulates : Prop :=
  ∀ (s : State) (d a b : BitVec 5) (m : BitVec 3) (o : BitVec 2),
    Claims.VReady s [m] → Claims.Quiet s → Claims.Clean s [a] → s.core.st.answers = [] → s.core.st.prog = none → Claims.idxReady s b none m → o.toNat ≤ 2 →
    let sew := s.core.st.kvtype.toNat % 8
    (s.et ≤ 1 ∧ (sew = 2 ∨ sew = 3)) ∨ (s.et = 2 ∧ sew = 3) ∨ (s.et = 3 ∧ sew = 2) →
    let es := Claims.els s m
    let new := fun (old : Nat) (i : Nat) => Claims.scaOf o.toNat s.et (s.core.st.kvtype.extractLsb' 14 2).toNat s.sewBits old (s.el d s.w i)
    (∀ i ∈ es, s.elPsn d s.w i = false) →
    (∀ off, s.core.st.allotBase % 64 = 0 → Claims.inPad s (Claims.indexVa s a b) off s.w es → (es.map off).Nodup →
      let at_ := fun i => s.core.st.allotBase + off i
      (∀ i ∈ es, s.core.padPsnIn (at_ i) s.w = false) →
      ∃ t, exec (.vsca d a b m o) s = .next t ∧ t = { s.finishQ with core := { s.finishQ.core with pad := t.core.pad } }
        ∧ (∀ i ∈ es, readNat t.core.pad (at_ i) s.w = new (readNat s.core.pad (at_ i) s.w) i)
        ∧ (∀ k, (∀ i ∈ es, k < at_ i ∨ at_ i + s.w ≤ k) → readByte t.core.pad k = readByte s.core.pad k))
    ∧ (∀ pa, Claims.inMem s (Claims.indexVa s a b) pa s.w es false true → (es.map pa).Nodup → (∀ i ∈ es, Claims.soundAt s (pa i)) →
      ∃ t, exec (.vsca d a b m o) s = .next t ∧ t.core.st = s.finishQ.core.st ∧ t.core.pad = s.core.pad
        ∧ Claims.scattered s.mem t.mem es pa s.w (fun i => new (readNat s.mem (pa i) s.w) i))

/-- R199: a peer load or store whose peer addresses all lead nowhere on this device makes no access and sets the fault bits of all active elements; a peer load whose addresses all lead to scratchpads of this device writes its elements and clears their bits; a peer store whose addresses lead to distinct places of the scratchpad of the core in turn puts its elements there, leaves every other byte, and clears their bits. -/
def Obligations.PeerFormsFault : Prop :=
  ∀ (s : State) (d a b : BitVec 5) (m f : BitVec 3) (h : BitVec 1), Claims.VReady s [m] → Claims.Quiet s → Claims.Clean s [a] → s.core.st.answers = [] → s.core.st.prog = none →
    Claims.idxReady s b (some d) m →
    let at_ := fun i => s.peerAt (s.reg a + s.idxVal b i) s.w s.w
    ((∀ i ∈ Claims.els s m, at_ i = .fails) →
      exec (.vldxp d a b m f h) s = .next (Claims.mWrote s f ((Claims.els s m).map (fun i => (i, true))) 0)
      ∧ (s.idxOk b none = true → exec (.vstxp d a b m f h) s = .next (Claims.mWrote s f ((Claims.els s m).map (fun i => (i, true))) 0)))
    ∧ (∀ (c : Nat → Nat) (off : Nat → Nat), (∀ i ∈ Claims.els s m, ∃ g r, at_ i = .at (.peer g r (c i) (off i))) →
      exec (.vldxp d a b m f h) s = .next (((s.putV d ((Claims.els s m).map (fun i =>
        ⟨i * s.w, s.w, readNat (s.coreAt (c i)).pad (off i) s.w, (s.coreAt (c i)).padPsnIn (off i) s.w⟩))).putM f
          ((Claims.els s m).map (fun i => (i, false)))).finishQ))
    ∧ (∀ (off : Nat → Nat), (∀ i ∈ Claims.els s m, (∃ g r, at_ i = .at (.peer g r s.core.id (off i))) ∧ off i % s.w = 0) → ((Claims.els s m).map off).Nodup →
      s.idxOk b none = true → s.core.st.kvtype.toNat % 8 ≤ 3 →
      let u := ((s.putM f ((Claims.els s m).map (fun i => (i, false)))).finishQ)
      ∃ t, exec (.vstxp d a b m f h) s = .next t ∧ t = { u with core := { u.core with pad := t.core.pad, padPsn := t.core.padPsn } }
        ∧ (∀ i ∈ Claims.els s m, readNat t.core.pad (off i) s.w = s.el d s.w i)
        ∧ (∀ k, (∀ i ∈ Claims.els s m, k < off i ∨ off i + s.w ≤ k) → readByte t.core.pad k = readByte s.core.pad k))

/-- Rows and columns in use (R244, R245), and the enabled cells in ascending order. -/
def Claims.lineOn (s : State) (m : BitVec 3) (inUse i : Nat) : Bool :=
  decide (i < inUse) && (m == 0 || (decide (i < s.core.st.vl) && Claims.mbit s m i))
def Claims.cellsOn (s : State) (r k : BitVec 3) : List (Nat × Nat) :=
  ((List.range 32).flatMap (fun i => (List.range 32).map (fun j => (i, j)))).filter (fun c =>
    Claims.lineOn s r (8 * 2 ^ (s.core.st.kvtype.extractLsb' 10 2).toNat) c.1 && Claims.lineOn s k (8 * 2 ^ (s.core.st.kvtype.extractLsb' 12 2).toNat) c.2)

/-- A matrix instruction may start: as a vector instruction under both its masks. -/
def Claims.MReady (s : State) (r k : BitVec 3) : Prop := Claims.VReady s [r, k]

/-- What becomes of an accumulator under writes of distinct cells: each reads as its value and poison, every other cell and accumulator as before (R61, R65, R245). -/
def Claims.accumulatorWrites : Prop :=
  ∀ (s : State) (c : BitVec 3) (ws : List CellWrite), (∀ w ∈ ws, w.i < 32 ∧ w.j < 32) → ws.Pairwise (fun x y => (x.i, x.j) ≠ (y.i, y.j)) →
    let t := s.putCells c ws
    (∀ w ∈ ws, t.cell c w.i w.j = w.val % 2 ^ 64 ∧ t.cellPsn c w.i w.j = w.psn)
    ∧ (∀ i < 32, ∀ j < 32, (∀ w ∈ ws, (w.i, w.j) ≠ (i, j)) → t.cell c i j = s.cell c i j ∧ t.cellPsn c i j = s.cellPsn c i j)
    ∧ (∀ x : Fin 8, x.val ≠ c.toNat → t.core.st.acc[x] = s.core.st.acc[x] ∧ t.core.st.accPsn[x] = s.core.st.accPsn[x])
    ∧ t = Claims.withSt s { s.core.st with acc := t.core.st.acc, accPsn := t.core.st.accPsn }

/-- The state after cells of an accumulator were written by a matrix instruction. -/
def Claims.cWrote (s : State) (c : BitVec 3) (ws : List CellWrite) (fl : Flags) : State := ((s.putCells c ws).addFlags fl).finishQ

/-- Value t of 8-bit operand element i of a register: signed for ET 0 (R97). -/
def Claims.byteAt (s : State) (v : BitVec 5) (i t : Nat) : Int := Claims.tval s.et 8 (s.el v 8 i / 256 ^ t % 256)

/-- R97, R248: under an integer element type of 8 bits, MOPA adds to, and MOPS takes from, every enabled 32-bit cell (i, j) the sum of the eight products of element i of va with element j of vb, wrapped; the cell is poisoned when it, or either operand element, was. Under an FP type every enabled cell is updated by the exact dot product rounded once (FpRounding), and all their flags are set. -/
def Obligations.OuterProducts : Prop :=
  ∀ (s : State) (c : BitVec 3) (a b : BitVec 5) (r k : BitVec 3) (neg : Bool), Claims.MReady s r k →
    let i := if neg then Instr.mops c a b r k else Instr.mopa c a b r k
    let p := fun x y => s.cellPsn c x y || (s.vslots a.toNat).getLsbD x || (s.vslots b.toNat).getLsbD y
    (s.et ≤ 1 → s.core.st.kvtype.toNat % 8 = 0 → s.core.st.kvtype.getLsbD 17 = false →
      exec i s = .next (Claims.cWrote s c ((Claims.cellsOn s r k).map (fun q =>
        let sum := ((List.range 8).map (fun t => Claims.byteAt s a q.1 t * Claims.byteAt s b q.2 t)).sum
        ⟨q.1, q.2, Claims.narrowN 32 (s.cell c q.1 q.2 + if neg then -sum else sum), p q.1 q.2⟩)) 0))
    ∧ (2 ≤ s.et → s.core.st.kvtype.getLsbD 17 = false →
      exec i s = .next (Claims.cWrote s c ((Claims.cellsOn s r k).map (fun q =>
          ⟨q.1, q.2, (s.fpUpdate a b neg (s.cellVal c q.1 q.2) q.1 q.2).1, p q.1 q.2⟩))
        (Claims.flagsOf ((Claims.cellsOn s r k).map (fun q => s.fpUpdate a b neg (s.cellVal c q.1 q.2) q.1 q.2)))))

/-- Cell (i, j) for position p of line x: a row where o is 0, a column where it is 1 (R251). -/
def Claims.cellAt (o : BitVec 1) (x p : Nat) : Nat × Nat := if o = 0 then (x, p) else (p, x)
def Claims.lineOf (s : State) (o : BitVec 1) (x : Nat) (r k : BitVec 3) : List Nat :=
  (List.range 32).filter (fun p => decide (x < 32) && decide (Claims.cellAt o x p ∈ Claims.cellsOn s r k))

/-- R250 to R252: MZERO clears every enabled cell and its poison; MWR writes the enabled cells of a row or column from the front of a vector register; MRD writes the positions of a vector register below VL from them; MPATCH replaces, or adds to, the enabled cells of a row: as 32-bit integers, or under an FP type with the rounded sum (FpRounding) of the cell and the value, fp64 in KVTYPE.RM and fp32 to nearest even. -/
def Obligations.MatrixMoves : Prop :=
  ∀ (s : State) (c : BitVec 3) (o : BitVec 1) (a b : BitVec 5) (r k : BitVec 3), Claims.MReady s r k → Claims.Clean s [b] →
    let w := if s.et = 2 then 8 else 4
    let x := (s.reg b).toNat
    let v := fun p => vGet (s.vimg a.toNat) (p * w) w
    let pv := fun p => (s.vslots a.toNat).getLsbD (p * w / 8)
    exec (.mzero c r k) s = .next (Claims.cWrote s c ((Claims.cellsOn s r k).map (fun q => ⟨q.1, q.2, 0, false⟩)) 0)
    ∧ exec (.mwr c o a b r k) s = .next (Claims.cWrote s c ((Claims.lineOf s o x r k).map (fun p => ⟨(Claims.cellAt o x p).1, (Claims.cellAt o x p).2, v p, pv p⟩)) 0)
    ∧ exec (.mrd c o a b r k) s = .next (Claims.vWrote s a (((Claims.lineOf s o x r k).filter (fun p => decide ((p + 1) * w ≤ s.core.st.vl * s.w))).map
        (fun p => ⟨p * w, w, s.cell c (Claims.cellAt o x p).1 (Claims.cellAt o x p).2 % 2 ^ (8 * w), s.cellPsn c (Claims.cellAt o x p).1 (Claims.cellAt o x p).2⟩)) 0)
    ∧ exec (.mpatch c 0 a b r k) s = .next (Claims.cWrote s c ((Claims.lineOf s 0 x r k).map (fun p => ⟨x, p, v p, pv p⟩)) 0)
    ∧ (s.et ≤ 1 → exec (.mpatch c 1 a b r k) s = .next (Claims.cWrote s c ((Claims.lineOf s 0 x r k).map
        (fun p => ⟨x, p, (s.cell c x p % 2 ^ 32 + v p) % 2 ^ 32, pv p || s.cellPsn c x p⟩)) 0))
    ∧ (let add := fun p => if s.et = 2 then fAdd fp64 (s.core.st.kvtype.extractLsb' 14 2).toNat (s.cell c x p) (v p) else fAdd fp32 0 (s.cell c x p % 2 ^ 32) (v p)
       2 ≤ s.et → exec (.mpatch c 1 a b r k) s = .next (Claims.cWrote s c ((Claims.lineOf s 0 x r k).map (fun p => ⟨x, p, (add p).1, pv p || s.cellPsn c x p⟩))
        (Claims.flagsOf ((Claims.lineOf s 0 x r k).map add))))

/-- The address of cell (i, j) in memory (R253): s[a] + row · s[b] + column · width, rows and columns exchanged for o = 1. -/
def Claims.cellVa (s : State) (o : BitVec 1) (a b : BitVec 5) (q : Nat × Nat) : Word :=
  let w := if s.et = 2 then 8 else 4
  s.reg a + BitVec.ofNat 64 (if o = 0 then q.1 else q.2) * s.reg b + BitVec.ofNat 64 ((if o = 0 then q.2 else q.1) * w)

/-- R253 and R254: MLDT and MSTT move the enabled cells between an accumulator and the own scratchpad, where each lies aligned (and, for MSTT, at a distinct place); MSTT leaves every other byte. They do the same with flat HBM of this device, where MSTT takes no poisoned cell. -/
def Obligations.TileLoadsAndStores : Prop :=
  ∀ (s : State) (c : BitVec 3) (o : BitVec 1) (a b : BitVec 5) (r k : BitVec 3),
    Claims.MReady s r k → Claims.Quiet s → Claims.Clean s [a, b] → s.core.st.answers = [] → s.core.st.prog = none →
    let w := if s.et = 2 then 8 else 4
    let cells := Claims.cellsOn s r k
    let va := Claims.cellVa s o a b
    let val := fun (q : Nat × Nat) => s.cell c q.1 q.2 % 2 ^ (8 * w)
    (∀ (off : Nat × Nat → Nat), s.core.st.allotBase % 64 = 0 → (∀ q ∈ cells, Claims.ownPad s (va q) (off q) ∧ off q % w = 0) →
      let at_ := fun q => s.core.st.allotBase + off q
      exec (.mldt c o a b r k) s = .next (Claims.cWrote s c (cells.map (fun q => ⟨q.1, q.2, readNat s.core.pad (at_ q) w, s.core.padPsnIn (at_ q) w⟩)) 0)
      ∧ ((cells.map off).Nodup →
        ∃ t, exec (.mstt c o a b r k) s = .next t ∧ t = { s.finishQ with core := { s.finishQ.core with pad := t.core.pad, padPsn := t.core.padPsn } }
          ∧ (∀ q ∈ cells, readNat t.core.pad (at_ q) w = val q)
          ∧ (∀ x, (∀ q ∈ cells, x < at_ q ∨ at_ q + w ≤ x) → readByte t.core.pad x = readByte s.core.pad x)))
    ∧ (∀ (pa : Nat × Nat → Nat),
      ((∀ q ∈ cells, Claims.memAt s (va q) w true false (pa q)) →
        ∃ t, exec (.mldt c o a b r k) s = .next t ∧ Claims.flatKept s t
          ∧ t.core.st = (Claims.cWrote s c (cells.map (fun q => ⟨q.1, q.2, readNat s.mem (pa q) w, s.linePsn (pa q / 64)⟩)) 0).core.st)
      ∧ ((∀ q ∈ cells, Claims.memAt s (va q) w false true (pa q) ∧ s.cellPsn c q.1 q.2 = false) → (cells.map pa).Nodup →
        ∃ t, exec (.mstt c o a b r k) s = .next t ∧ t.core.st = s.finishQ.core.st ∧ t.core.pad = s.core.pad
          ∧ (∀ q ∈ cells, readNat t.mem (pa q) w = val q)
          ∧ (∀ x, x < 0x100000000000 → (∀ q ∈ cells, x < pa q ∨ pa q + w ≤ x) → readByte t.mem x = readByte s.mem x)))

/-- The strand after a vector-queue or tile instruction has completed: pc + 4, the watch pass and a named resume group used up, one queue entry less of a resumed window (R262, R392). -/
def Claims.doneQ (t : Strand) : Strand :=
  { t with pc := t.pc + 4, watchPass := false, resFirst := none, prog := none, answers := [], asked := false, code := none
           resN := if t.resFirst = none then t.resN - 1 else t.resN }

/-- The strand after such an instruction wrote v to s[d]. -/
def Claims.doneQWith (t : Strand) (d : BitVec 5) (v : Word) : Strand :=
  Claims.doneQ (if d = 0 then t else { t with regs := t.regs.set d.toNat v, marks := t.marks.set d.toNat .ok })

/-- s[a] is the address of tile number n of the core's scratchpad, inside the strand's own allotment, and no transfer interlocks the core's ranges (R206, R207, R233). -/
def Claims.ownTile (s : State) (a : BitVec 5) (n : Nat) : Prop :=
  s.core.locks = [] ∧ ∃ o, Claims.ownPad s (s.reg a) o ∧ o % 256 = 0 ∧ s.core.st.allotBase + o = 256 * n

/-- The strand in the slot may be suspended (R77): user mode, outside a handler. -/
def Claims.maySuspend (t : Strand) : Prop := t.kstatus.getLsbD 0 = false ∧ t.kstatus.getLsbD 2 = false

/-- t is s after the strand in the slot was suspended (R39, R46): out of the slot, which is saving; among the core's other strands with its registers, its wait, and the pc it resumes at. -/
def Claims.suspended (s t : State) (w : Wait) (live : Word) (pc : Pc) : Prop :=
  t.core.st = Strand.empty ∧ (∃ till, s.now < till ∧ t.core.phase = .saving till)
  ∧ ∃ u, t.core.rest = s.core.rest ++ [u] ∧ u.wait = w ∧ u.status = (if w = .none then .runnable else .waiting) ∧ u.pc = pc ∧ u.waitPc = s.core.st.pc
      ∧ u.live = live ∧ u.zeroing = true ∧ u.regs = s.core.st.regs ∧ u.marks = s.core.st.marks ∧ u.v = s.core.st.v ∧ u.masks = s.core.st.masks
      ∧ u.acc = s.core.st.acc ∧ u.vl = s.core.st.vl ∧ u.kvtype = s.core.st.kvtype ∧ u.kfctl = s.core.st.kfctl ∧ u.gang = s.core.st.gang ∧ u.rank = s.core.st.rank

/-- The strand's image with a live set finds room outside the slot (R43 to R45). -/
def Claims.hasRoom (s : State) (live : Word) : Prop := (s.findRoom s.core s.core.st { s.core.st with live := live }.liveBytes).isSome = true

/-- No AMO with AQ 1 that the strand still awaits comes before its next access (R162, R305). -/
def Claims.noAcquire (s : State) : Prop :=
  s.core.st.acq = true → (∀ r : Fin 32, s.core.st.marks[r] ≠ .pending) ∧ s.invals = [] ∧ s.replies = [] ∧ s.reqs = []

/-- No vector store of the strand awaits its acknowledgement (R482), and no such AMO its reply. -/
def Claims.storesSeen (s : State) : Prop := s.invals = [] ∧ s.reqs = [] ∧ Claims.noAcquire s

/-- R207 to R210, R212 and R215, on a tile of the own allotment, with no vector store of the strand outstanding and no error in KLM: TSTAT writes the tag word's fields to s[d]; TWAIT completes on a full unarmed tile, and else suspends the strand for it, or traps with 0x0C in K mode and in a handler; TSET writes FULL, and with DISARM and BIND takes the arming and the binding away, or traps with 0x14 on an armed tile without DISARM; TARM arms an empty tile, and traps with 0x14 on each misuse. -/
def Obligations.TileTags : Prop :=
  ∀ (s : State) (d a b : BitVec 5) (n : Nat), Claims.Clean s [a, b] → Claims.ownTile s a n → Claims.storesSeen s → Claims.kSound s [3] →
    let g := s.core.tile n
    let v := s.reg b
    (g.cnt < 32 → g.op < 8 → s.core.overrun.length < 32 → ∃ x : Word,
      exec (.tstat d a) s = .next (Claims.withSt s (Claims.doneQWith s.core.st d x))
      ∧ x.getLsbD 0 = g.full ∧ x.getLsbD 1 = g.armed ∧ x.getLsbD 2 = g.bound.isSome ∧ (x.extractLsb' 3 5).toNat = g.cnt
      ∧ (x.extractLsb' 8 3).toNat = (if g.armed then g.op else 0) ∧ x.extractLsb' 11 16 = g.absent
      ∧ (∀ k, k < 4 → x.getLsbD (27 + k) = s.core.padPsn.contains (4 * n + k))
      ∧ (x.extractLsb' 31 5).toNat = s.core.overrun.countP (s.core.waitsFor n) ∧ x.extractLsb' 36 28 = 0)
    ∧ (g.full = true → g.armed = false → exec (.twait a) s = .next (Claims.withSt s (Claims.doneQ s.core.st)))
    ∧ (¬ (g.full = true ∧ g.armed = false) →
        (¬ Claims.maySuspend s.core.st → exec (.twait a) s = .next (s.trap 0x0C (s.reg a) 0))
        ∧ (Claims.maySuspend s.core.st → Claims.hasRoom s s.core.st.klm →
            ∃ t, exec (.twait a) s = .next t ∧ Claims.suspended s t (.tile n) s.core.st.klm (s.core.st.pc + 4)))
    ∧ (g.armed = true → v.getLsbD 1 = false → exec (.tset a b) s = .next (s.trap 0x14 (s.reg a) 0))
    ∧ ((g.armed = false ∨ v.getLsbD 1 = true) → (v.getLsbD 2 = true → v.extractLsb' 32 32 = 0 ∨ isHandle (v.extractLsb' 32 32) = true) →
        s.core.overrun = [] → (∀ u ∈ s.core.st :: s.core.rest, u.wait ≠ .tile n) →
        ∃ t, exec (.tset a b) s = .next t
          ∧ t.core.tile n = { g with
              full := v.getLsbD 0
              armed := g.armed && !v.getLsbD 1
              cnt := if v.getLsbD 1 then 0 else g.cnt
              cnt0 := if v.getLsbD 1 then 0 else g.cnt0
              op := if v.getLsbD 1 then 0 else g.op
              absent := if v.getLsbD 1 then 0 else g.absent
              slots := if v.getLsbD 1 then [] else g.slots
              bound := if v.getLsbD 2 then (if v.extractLsb' 32 32 = 0 then none else some (v.extractLsb' 32 32)) else g.bound }
          ∧ (∀ k, k ≠ n → t.core.tile k = s.core.tile k)
          ∧ t = { s with core := { s.core with tiles := t.core.tiles, st := Claims.doneQ s.core.st } })
    ∧ ((v.extractLsb' 0 5 = 0 ∨ 16 < (v.extractLsb' 0 5).toNat ∨ 4 ≤ (v.extractLsb' 5 3).toNat ∨ g.full = true ∨ g.armed = true
          ∨ 8 ≤ s.core.tiles.countP (fun y => y.armed)) → exec (.tarm a b) s = .next (s.trap 0x14 (s.reg a) 0))
    ∧ (1 ≤ (v.extractLsb' 0 5).toNat → (v.extractLsb' 0 5).toNat ≤ 16 → (v.extractLsb' 5 3).toNat ≤ 3 → g.full = false → g.armed = false →
        s.core.tiles.countP (fun y => y.armed) < 8 → s.core.overrun = [] →
        ∃ t, exec (.tarm a b) s = .next t
          ∧ t.core.tile n = { g with armed := true, cnt0 := (v.extractLsb' 0 5).toNat, cnt := (v.extractLsb' 0 5).toNat, op := (v.extractLsb' 5 3).toNat, absent := 0, slots := [] }
          ∧ (∀ k, k ≠ n → t.core.tile k = s.core.tile k)
          ∧ t = { s with core := { s.core with tiles := t.core.tiles, st := Claims.doneQ s.core.st } })

/-- Elements below a length that a governing mask makes active (R8). -/
def Claims.activeBelow (s : State) (m : BitVec 3) (n : Nat) : List Nat := (List.range n).filter (fun i => m == 0 || (s.core.st.masks[m.toNat]).getLsbD i)

/-- The tiles that VL covers (R211). -/
def Claims.tilesOf (s : State) : Nat := (s.core.st.vl * s.w + 255) / 256

/-- R211: TLDF on tiles n, n + 1, …: with the first f of them full and unarmed, and the next one (if VL covers one inside the allotment) not, it loads the active elements of those f tiles, empties them, trims VL where it covered more, and leaves every other tile and the scratchpad's bytes; with the first not full it suspends for it at its own pc, or traps with 0x0C in K mode and in a handler. -/
def Obligations.TldfLoadsFullTiles : Prop :=
  ∀ (s : State) (d a : BitVec 5) (m : BitVec 3) (n f : Nat), Claims.Clean s [a] → Claims.Quiet s → Claims.VReady s [m] → Claims.kSound s [3] → Claims.ownTile s a n → s.core.overrun = [] → 0 < s.core.st.vl →
    let k := min (Claims.tilesOf s) ((s.core.st.allotSize - (256 * n - s.core.st.allotBase)) / 256)
    let ready := fun j => (s.core.tile (n + j)).full && !(s.core.tile (n + j)).armed
    0 < k → f ≤ k → (∀ j, j < f → ready j = true) → (f < k → ready f = false) →
    let vl := if f < Claims.tilesOf s then f * 256 / s.w else s.core.st.vl
    (0 < f → ∃ t, exec (.tldf d a m) s = .next t
      ∧ t.core.st = Claims.doneQ ((Claims.withSt s { s.core.st with vl := vl }).putV d ((Claims.activeBelow s m vl).map (fun i =>
          ⟨i * s.w, s.w, readNat s.core.pad (256 * n + i * s.w) s.w, s.core.padPsnIn (256 * n + i * s.w) s.w⟩))).core.st
      ∧ (∀ j, j < f → t.core.tile (n + j) = { s.core.tile (n + j) with full := false })
      ∧ (∀ j, (j < n ∨ n + f ≤ j) → t.core.tile j = s.core.tile j)
      ∧ t = { s with core := { s.core with st := t.core.st, tiles := t.core.tiles } })
    ∧ (f = 0 → ¬ Claims.maySuspend s.core.st → exec (.tldf d a m) s = .next (s.trap 0x0C (s.reg a) 0))
    ∧ (f = 0 → Claims.maySuspend s.core.st → Claims.hasRoom s s.core.st.klm →
        ∃ t, exec (.tldf d a m) s = .next t ∧ Claims.suspended s t (.tile n) s.core.st.klm s.core.st.pc)

/-- The transfer that a TSTF or TCMB of the strand in the slot becomes (R205): its kind, bytes and fault mask. -/
def Claims.isXfer (s : State) (x : Xfer) (kind total : Nat) (mf : BitVec 3) : Prop :=
  x.id = s.nextId ∧ x.kind = kind ∧ x.total = total ∧ x.done = 0 ∧ x.mf = mf.toNat ∧ x.gang = s.core.st.gang ∧ x.rank = s.core.st.rank ∧ x.handle = none ∧ x.segs = [] ∧ x.failed = false

/-- R213 and R216: a TSTF of one tile, and a TCMB, to a rank of the own gang on this device are accepted as engine transfers with a free entry at the core: the bytes of the active elements (or the register's first 256 bytes, with the slot of s[b]) are on their way to the tile, and the strand goes on. Where the peer address leads nowhere, either sends nothing, sets bit 0 of its fault mask at once, and leaves no transfer. -/
def Obligations.TileStoresSend : Prop :=
  ∀ (s : State) (d a b : BitVec 5) (m f : BitVec 3), Claims.Clean s [a, b] → Claims.VReady s [m] → Claims.Quiet s → s.core.id < 288 →
    (∀ g r o, Claims.tilesOf s = 1 → s.fillAt (s.reg a) true = .here g r o → r ≠ s.core.st.rank →
      ∃ t x e, exec (.tstf d a m f) s = .next t ∧ t.core.st = Claims.doneQ s.core.st ∧ t.xfers = [x] ∧ Claims.isXfer s x 3 256 f ∧ x.waiting = 1
        ∧ t.fills = s.fills ++ [e] ∧ e.gang = g ∧ e.rank = r ∧ e.off = o ∧ e.last = true ∧ e.combine = false ∧ e.xfer = x.id ∧ e.slot = 0 ∧ e.unit = s.core.id ∧ e.rest = []
        ∧ (∀ i ∈ Claims.activeBelow s m s.core.st.vl, e.data.toNat / 256 ^ (i * s.w) % 256 ^ s.w = s.el d s.w i)
        ∧ (∀ k, k < 256 → e.mask.getLsbD k = decide (∃ i ∈ Claims.activeBelow s m s.core.st.vl, i * s.w ≤ k ∧ k < (i + 1) * s.w))
        ∧ t = { s with core := t.core, xfers := t.xfers, fills := t.fills, nextId := s.nextId + 1 } ∧ t.core = { s.core with st := t.core.st })
    ∧ (∀ g r o, s.fillAt (s.reg a) false = .here g r o →
      ∃ t x e, exec (.tcmb d a b m f) s = .next t ∧ t.core.st = Claims.doneQ s.core.st ∧ t.xfers = [x] ∧ Claims.isXfer s x 4 256 f ∧ x.waiting = 1
        ∧ t.combines = s.combines ++ [e] ∧ e.gang = g ∧ e.rank = r ∧ e.off = o ∧ e.combine = true ∧ e.xfer = x.id ∧ e.slot = (s.reg b).toNat % 16 ∧ e.unit = s.core.id
        ∧ e.absent = false ∧ e.data.toNat = vGet (s.vimg d.toNat) 0 256
        ∧ t = { s with core := t.core, xfers := t.xfers, combines := t.combines, nextId := s.nextId + 1 } ∧ t.core = { s.core with st := t.core.st })
    ∧ (∀ (g : Gang), s.myGang = some g → g.coreOf s.core.st.rank = some s.core.id → s.core.st.status = .running → s.core.rest = [] →
      let failed := fun (i : Instr) => ∃ u, exec i s = .next u ∧ u.xfers = [] ∧ u.fills = s.fills ∧ u.combines = s.combines ∧ u.core.st = Claims.doneQ (s.putM f [(0, true)]).core.st
      (Claims.tilesOf s = 1 → s.fillAt (s.reg a) true = .fails → failed (.tstf d a m f))
      ∧ (s.fillAt (s.reg a) false = .fails → failed (.tcmb d a b m f)))

/-- s[r] is the handle (R34) of an own token (R222): of this device, this core and this gang. -/
def Claims.ownHandle (s : State) (r : BitVec 5) (k : Token) : Prop :=
  s.kdev < 512 ∧ s.core.id < 288 ∧ k.slot < 256 ∧ ((s.reg r).extractLsb' 0 32).toNat = s.kdev * 2 ^ 23 + s.core.id * 2 ^ 14 + k.slot * 2 ^ 6
  ∧ s.core.tokens.find? (fun t => t.slot == k.slot) = some k ∧ k.gang = s.core.st.gang ∧ k.gang ≠ 0

/-- The token of a slot of the core in turn. -/
def Claims.tok (s : State) (slot : Nat) : Option Token := s.core.tokens.find? (fun t => t.slot == slot)

/-- t is s but for one token slot, now k, and the strand in the slot. -/
def Claims.tokenNow (s t : State) (slot : Nat) (k : Option Token) (u : Strand) : Prop :=
  Claims.tok t slot = k ∧ (∀ j, j ≠ slot → Claims.tok t j = Claims.tok s j) ∧ t = { s with core := { s.core with tokens := t.core.tokens, st := u } }

/-- R223 to R227: TKNEW with s0 allots a free entry with count 0 and pending 0 and writes its handle, or all ones where none is free (which entry is the model's free choice: log 8); with the handle of an own token that has nothing pending it clears count, LATE and arming. TKFREE frees such a token that nobody waits for. TKARM arms one with a threshold that its count has not reached. TKRD writes LATE, pending and count. TKSIG sends a signal of s[b][31:0] to a token of this device. -/
def Claims.tokenInstructions : Prop :=
  ∀ (s : State) (d a b : BitVec 5) (k : Token), Claims.Clean s [a, b] →
    ((∃ j, j < 256 ∧ Claims.tok s j = none) → ∃ j t, j < 256 ∧ Claims.tok s j = none ∧ exec (.tknew d 0) s = .next t
        ∧ Claims.tok t j = some (Token.fresh j s.core.st.gang) ∧ (∀ i, i ≠ j → Claims.tok t i = Claims.tok s i)
        ∧ t.core.st = Claims.doneQWith s.core.st d (BitVec.ofNat 64 ((s.kdev * 2 ^ 23 + s.core.id * 2 ^ 14 + j * 2 ^ 6) % 2 ^ 32)) ∧ t.mem = s.mem)
    ∧ ((∀ j, j < 256 → Claims.tok s j ≠ none) → exec (.tknew d 0) s = .next (Claims.withSt s (Claims.doneQWith s.core.st d (BitVec.allOnes 64))))
    ∧ (Claims.ownHandle s a k →
        (k.bad = false → Claims.noAcquire s → exec (.tkrd d a) s = .next (Claims.withSt s (Claims.doneQWith s.core.st d
          (BitVec.ofNat 64 ((if k.late then 2 ^ 63 else 0) + k.pend % 2 ^ 16 * 2 ^ 32 + k.count)))))
        ∧ (k.bad = false → k.pend = 0 → a ≠ 0 → ∃ t, exec (.tknew d a) s = .next t
            ∧ Claims.tokenNow s t k.slot (some { k with count := 0, late := false, arm := none }) (Claims.doneQWith s.core.st d ((s.reg a).extractLsb' 0 32 |>.setWidth 64)))
        ∧ (k.bad = false → k.pend = 0 → (∀ u ∈ s.core.st :: s.core.rest, ∀ n, u.wait ≠ .token k.slot n) → ∃ t, exec (.tkfree a) s = .next t
            ∧ Claims.tokenNow s t k.slot none (Claims.doneQ s.core.st))
        ∧ (isHandle ((s.reg b).extractLsb' 32 32) = true → k.count < ((s.reg b).extractLsb' 0 32).toNat → ∃ t, exec (.tkarm a b) s = .next t
            ∧ Claims.tokenNow s t k.slot (some { k with arm := some ((s.reg b).extractLsb' 32 32, ((s.reg b).extractLsb' 0 32).toNat) }) (Claims.doneQ s.core.st))
        ∧ (Claims.Quiet s → exec (.tksig a b) s = .next (Claims.withSt { s with tokMsgs := [⟨2, (s.reg a).extractLsb' 0 32, ((s.reg b).extractLsb' 0 32).toNat, false, none, false, s.core.id, s.stamp, none⟩] } (Claims.doneQ s.core.st))))

/-- The live set that AWAIT or YIELD names (R40): KLM where its register is s0. -/
def Claims.liveOf (s : State) (d : BitVec 5) : Word := if d = 0 then s.core.st.klm else s.reg d

/-- R39 and R228: AWAIT on an own token whose count has reached s[b][31:0] completes with nothing else changed, else suspends the strand for it; YIELD suspends it without a wait. In K mode and in a handler both trap with 0x0C. -/
def Claims.awaitAndYield : Prop :=
  ∀ (s : State) (d a b : BitVec 5) (k : Token), Claims.Clean s [a, b, d] → (d = 0 → Claims.kSound s [3]) → (Claims.liveOf s d).extractLsb' 48 16 = 0 →
    (¬ Claims.maySuspend s.core.st → exec (.yield d) s = .next (s.trap 0x0C 0 0) ∧ exec (.await d a b) s = .next (s.trap 0x0C ((s.reg a).extractLsb' 0 32 |>.setWidth 64) 0))
    ∧ (Claims.maySuspend s.core.st → Claims.hasRoom s (Claims.liveOf s d) →
        (∃ t, exec (.yield d) s = .next t ∧ Claims.suspended s t .none (Claims.liveOf s d) (s.core.st.pc + 4))
        ∧ (Claims.ownHandle s a k → k.bad = false → Claims.noAcquire s → k.count < ((s.reg b).extractLsb' 0 32).toNat →
            ∃ t, exec (.await d a b) s = .next t ∧ Claims.suspended s t (.token k.slot ((s.reg b).extractLsb' 0 32).toNat) (Claims.liveOf s d) (s.core.st.pc + 4)))
    ∧ (Claims.maySuspend s.core.st → Claims.ownHandle s a k → k.bad = false → Claims.noAcquire s → ((s.reg b).extractLsb' 0 32).toNat ≤ k.count →
        exec (.await d a b) s = .next (Claims.withSt s (Claims.stepped s.core.st)))

/-- R220, R229, R232 and R235: CPY, CPY2D and CPYG, with operands that carry no mark, a well-formed length word, a handle or s0 for their token, and an empty queue, enter the vector queue with their operands as they are now, and change nothing else: what they copy and where they trap is decided when they are accepted. Reserved bits of the length word trap with 0x02, a token that is no handle with 0x0C, and a CPYG of a group in which the strand is not enrolled with 0x0F. -/
def Obligations.CopiesEnterQueue : Prop :=
  ∀ (s : State) (d a b t : BitVec 5) (f : BitVec 3),
    let h := (s.reg t).extractLsb' 0 32
    let e := fun (kind : Nat) (pitch : Word) (mf : Nat) => Claims.withSt s { s.core.st with
      vq := some ⟨s.core.st.pc, kind, s.reg a, s.reg b, s.reg d, pitch, if t = 0 then none else some h, mf⟩ }
    let g := ((s.reg d).extractLsb' 32 12).toNat
    let enrolled := ∃ x ∈ s.groups, x.g = g ∧ (∀ y ∈ s.groups, y.g = g → y = x) ∧ (s.core.st.gang, s.core.st.rank) ∈ x.members
    s.core.st.vq = none →
    ((t = 0 ∨ isHandle h = true) →
      (Claims.Clean s [d, a, b, t] → (s.reg d).extractLsb' 32 32 = 0 → exec (.cpy d a b f t) s = .next (e 0 0 f.toNat))
      ∧ (Claims.Clean s [d, d + 1, a, b, t] → exec (.cpy2d d a b f t) s = .next (e 1 (s.reg (d + 1)) f.toNat))
      ∧ (Claims.Clean s [d, a, b, t] → (s.reg d).extractLsb' 44 20 = 0 → enrolled → exec (.cpyg d a b t) s = .next (e 2 0 0))
      ∧ (Claims.Clean s [d, a, b, t] → (s.reg d).extractLsb' 44 20 = 0 → (∀ x ∈ s.groups, x.g ≠ g) → exec (.cpyg d a b t) s = .next (s.trap 0x0F (BitVec.ofNat 64 g) 0)))
    ∧ (Claims.Clean s [d, a, b, t] → (s.reg d).extractLsb' 32 32 ≠ 0 → exec (.cpy d a b f t) s = .next (s.trap 0x02 0 0))
    ∧ (Claims.Clean s [d, a, b, t] → (s.reg d).extractLsb' 32 32 = 0 → t ≠ 0 → isHandle h = false → exec (.cpy d a b f t) s = .next (s.trap 0x0C (h.setWidth 64) 0))

/-- The gang of the strand in the slot is g, and no other gang of the list has its number. -/
def Claims.onlyGang (s : State) (g : Gang) : Prop := s.gangs = [g] ∧ g.id = s.core.st.gang

/-- R234, R237, R239 and R240, with nothing of the strand outstanding. GJOIN and GLEAVE hand their change for group (s[a] + imm)[11:0] to the command processor and complete when its acknowledgement of status 0 has come. BAR with an own token's handle records the arrival, raises pending and goes on; with handle 0 it waits, suspended; either while another rank has not arrived. SPAWN hands the 64 bytes at s[a] to the intake and leaves s[d] awaiting the answer. SEXIT leaves the slot for good, its exit recorded. -/
def Obligations.GroupAndStrandInstructions : Prop :=
  ∀ (s : State) (d a : BitVec 5) (i : BitVec 12) (g : Gang), Claims.Clean s [a] → Claims.Quiet s → Claims.onlyGang s g → s.core.st.notes = 0 → s.groups = [] →
    let num := ((s.reg a).toNat + i.toNat) % 4096
    let t := s.core.st
    (t.answers = [] → t.asked = false →
      exec (.gjoin a i) s = .next { Claims.withSt s { t with asked := true, askedAt := s.now } with groupReqs := s.groupReqs ++ [⟨true, num, t.gang, t.rank⟩] }
      ∧ exec (.gleave a i) s = .next { Claims.withSt s { t with asked := true, askedAt := s.now } with groupReqs := s.groupReqs ++ [⟨false, num, t.gang, t.rank⟩] })
    ∧ (∀ x, t.answers = [x] → x.status = 0 → exec (.gjoin a i) s = .next (Claims.withSt s (Claims.stepped t)) ∧ exec (.gleave a i) s = .next (Claims.withSt s (Claims.stepped t)))
    ∧ ((∃ r, r < g.task.c * g.task.s ∧ r ≠ t.rank ∧ (∀ e ∈ g.exited, e.rank ≠ r) ∧ r ∉ g.contained) → g.arrived = [] →
      (∀ k, Claims.ownHandle s a k → (s.reg a).extractLsb' 0 32 ≠ 0 → k.pend < 0xFFFF → k.bad = false → ∃ u, exec (.bar a) s = .next u ∧ u.core.st = Claims.doneQ t
          ∧ Claims.tok u k.slot = some { k with pend := k.pend + 1 } ∧ ∃ h, u.gangs = [h] ∧ h.arrived = [⟨t.rank, some ((s.reg a).extractLsb' 0 32)⟩])
      ∧ ((s.reg a).extractLsb' 0 32 = 0 → Claims.maySuspend t → Claims.kSound s [3] → Claims.hasRoom s t.klm →
          ∃ u, exec (.bar a) s = .next u ∧ Claims.suspended s u .barrier t.klm (t.pc + 4) ∧ ∃ h, u.gangs = [h] ∧ h.arrived = [⟨t.rank, none⟩]))
    ∧ (∀ o, Claims.ownPad s (s.reg a) o → o % 64 = 0 → s.core.padPsnIn (t.allotBase + o) 64 = false → d ≠ 0 → s.spawns = [] → g.task.spawned = false →
        readNat s.core.pad (t.allotBase + o) 8 / 2 ^ 32 % 512 = 0 →
        ∃ u p, exec (.spawn d a) s = .next u ∧ u.spawns = [p] ∧ p.gang = t.gang ∧ p.rank = t.rank ∧ p.reg = d.toNat ∧ p.asid = g.kasid ∧ p.queue = g.task.queue
          ∧ p.dwords = (List.range 8).map (fun j => BitVec.ofNat 64 (readNat s.core.pad (t.allotBase + o + 8 * j) 8))
          ∧ u.core.st = Claims.stepped { t with marks := t.marks.set d.toNat .pending })
    ∧ (g.arrived = [] → ∃ u, exec .sexit s = .next u ∧ u.core.st = Strand.empty ∧ u.core.phase = .idle ∧ u.mem = s.mem
        ∧ u.core.rest = s.core.rest ++ [{ t with status := .exited, deferred := [], notes := 0, watchPass := false, wait := .none }]
        ∧ u.gangs = [{ g with exited := g.exited ++ [⟨t.rank, t.pc, t.kstatus.getLsbD 0, t.kstatus.getLsbD 2⟩] }])

/-- What is left of cached translations, as TLBINV leaves them (R264). -/
def Claims.keeps (hit : Xlat → Bool) (s t : State) : Prop :=
  t.core.tlb = s.core.tlb.filter (fun x => !hit x) ∧ t.hub0 = s.hub0.filter (fun x => !hit x) ∧ t.hub1 = s.hub1.filter (fun x => !hit x)
  ∧ t.walks = s.walks.filter (fun w => !hit w.2) ∧ t.others.map (fun k => k.tlb) = s.others.map (fun k => k.tlb.filter (fun x => !hit x))
  ∧ (∃ since, t.core.st = Claims.stepped { s.core.st with askedAt := since }) ∧ t.mem = s.mem ∧ t.gangs = s.gangs ∧ t.l2 = s.l2

/-- Effective priority (R340): the gang's PRIO plus the strand's boost, a rise for every 4,096 cycles that another strand has held the slot, at most 7. -/
def Claims.prio (s : State) (t : Strand) : Nat :=
  let due := if t.status = .runnable then ((if s.core.phase = .run then s.now else s.core.freeFrom) - t.agedAt) / 4096 else 0
  min ((match s.gang? t.gang with | some g => g.task.prio | none => 0) + t.boost + due) 7
/-- A Runnable strand of the core in turn that the selector may choose: its gang is not being parked (R342). -/
def Claims.runnable (s : State) (t : Strand) : Prop :=
  t ∈ s.core.rest ∧ t.status = .runnable ∧ ∀ g, s.gang? t.gang = some g → g.state ≠ .parking
/-- u comes before v or beside it in the selector's order (R340): higher effective priority, then earlier Runnable, then lower place. -/
def Claims.before (s : State) (u v : Strand) : Prop :=
  Claims.prio s v < Claims.prio s u ∨ (Claims.prio s v = Claims.prio s u ∧ (u.readyAt < v.readyAt ∨ (u.readyAt = v.readyAt ∧ u.place ≤ v.place)))

/-- Rotation wants the slot's strand out (R48): held for 16,384 cycles, and some Runnable strand of the core has at least its priority. -/
def Claims.rotationWanted (s : State) : Prop :=
  s.core.phase = .run ∧ s.core.st.status = .running ∧ s.core.st.wait = .none ∧ 16384 ≤ s.now - s.core.slotFrom
  ∧ (s.findRoom s.core s.core.st s.core.st.fullBytes).isSome = true
  ∧ ∃ v, Claims.runnable s v ∧ Claims.prio s { s.core.st with boost := 0 } ≤ Claims.prio s v

/-- The registers of a strand that a suspension or a rotation keeps whole. -/
def Claims.sameRegs (u v : Strand) : Prop :=
  u.regs = v.regs ∧ u.marks = v.marks ∧ u.v = v.v ∧ u.vpsn = v.vpsn ∧ u.masks = v.masks ∧ u.acc = v.acc ∧ u.accPsn = v.accPsn ∧ u.vl = v.vl ∧ u.kvtype = v.kvtype
  ∧ u.kfctl = v.kfctl ∧ u.ksr = v.ksr ∧ u.klm = v.klm ∧ u.kstatus = v.kstatus ∧ u.user = v.user ∧ u.super = v.super ∧ u.watch = v.watch ∧ u.gang = v.gang ∧ u.rank = v.rank

/-- No vector instruction of the strand is queued or has begun, and no store of it is held (R390, R391). -/
def Claims.boundary (t : Strand) : Prop := t.queue = [] ∧ t.out = [] ∧ t.vq = none ∧ t.prog = none ∧ t.asked = false ∧ t.answers = []

/-- The strand in the slot is rank r of gang number gi, and no other strand of its core is. -/
def Claims.slotIs (s : State) (gi r : Nat) : Prop :=
  (∃ g, s.gang? gi = some g ∧ g.coreOf r = some s.core.id) ∧ s.core.st.gang = gi ∧ s.core.st.rank = r ∧ s.core.st.status ≠ .none
  ∧ ∀ u ∈ s.core.rest, ¬ (u.gang = gi ∧ u.rank = r)

/-- R36, R37, R39, R42, R274, R276, R280 and R281, for the core in turn and the first occurrence: TOKEN_COMPLETION adds a message's amount to its token (saturating), takes one from pending for a completion, and wakes a strand whose threshold is reached; REMOTE_REPLY gives a pending register its value, its poison or its loss, and drops a reply that nobody awaits; L1_FILL and PAGE_WALK put their line or translation first in its cache; INVALIDATION_ACK takes every copy of the line out of the core's caches and counts the core off. -/
def Obligations.CoreTraffic : Prop :=
  ∀ (s : State), s.pick = 0 →
    (∀ m r k, s.tokMsgs = m :: r → (m.handle.extractLsb' 14 9).toNat = s.core.id → Claims.tok s (m.handle.extractLsb' 6 8).toNat = some k →
      k.bad = false → k.arm = none → k.gang ≠ 0 → m.source = none → s.foremost m.unit s.core.id m.seq = true →
      let n := min (k.count + m.amount) 0xFFFFFFFF
      ∃ t, exec .tokenCompletion s = .next t ∧ t.tokMsgs = r ∧ t.mem = s.mem
        ∧ Claims.tok t k.slot = some { k with count := n, late := k.late || m.late, pend := if m.kind = 1 then k.pend - 1 else k.pend }
        ∧ (∀ u ∈ s.core.rest, ∀ x, u.wait = .token k.slot x → u.status = .waiting → u.held = .none → u.inPlace = false → u.saving = false → x ≤ n →
            { u with wait := .none, status := .runnable, boost := 0, readyAt := s.now, agedAt := s.now } ∈ t.core.rest)
        ∧ (∀ u ∈ s.core.rest, (∀ x, u.wait = .token k.slot x → n < x) → u ∈ t.core.rest))
    ∧ (∀ r l (q : Fin 32), s.replies = r :: l → r.reg = q.val → q.val ≠ 0 → Claims.slotIs s r.gang r.rank → s.core.st.queue = [] → s.foremost r.unit s.core.id r.seq = true →
        let st := s.core.st
        let res := fun (u : Strand) => (Host.Outcome.next { Claims.withSt s u with replies := l } : Out)
        (st.marks[q] = .pending → r.status = 0 → r.psn = false → exec .remoteReply s = res { st with regs := st.regs.set q r.value, marks := st.marks.set q .ok })
        ∧ (st.marks[q] = .pending → r.status = 0 → r.psn = true → exec .remoteReply s = res { st with marks := st.marks.set q .poisoned })
        ∧ (st.marks[q] = .pending → r.status ≠ 0 → exec .remoteReply s = res { st with marks := st.marks.set q (.lost r.status r.addr) })
        ∧ (st.marks[q] ≠ .pending → exec .remoteReply s = res st))
    ∧ (∀ f r, s.l1Fills = f :: r → f.core = s.core.id →
        ∃ t, exec .l1Fill s = .next t ∧ t.l1Fills = r ∧ t.mem = s.mem ∧ t.core.st = s.core.st
          ∧ (f.instr = false → t.core.icache = s.core.icache ∧ t.core.l1.head? = some ⟨f.line, f.data⟩ ∧ ∀ y ∈ t.core.l1.tail, y ∈ s.core.l1 ∧ y.line ≠ f.line)
          ∧ (f.instr = true → t.core.l1 = s.core.l1 ∧ t.core.icache.head? = some ⟨f.line, f.data⟩ ∧ ∀ y ∈ t.core.icache.tail, y ∈ s.core.icache ∧ y.line ≠ f.line))
    ∧ (∀ v r cs, s.invals = v :: r → v.left = s.core.id :: cs → (v.cls ≠ 0 ∨ v.gang = 0) →
        ∃ t, exec .invalidationAck s = .next t ∧ t.mem = s.mem ∧ t.core.st = s.core.st
          ∧ (∀ y ∈ t.core.l1 ++ t.core.icache, y.line % 2 ^ 48 ≠ v.line) ∧ (∀ y ∈ s.core.l1, y.line % 2 ^ 48 ≠ v.line → y ∈ t.core.l1)
          ∧ (cs = [] → t.invals = r) ∧ (cs ≠ [] → t.invals.head? = some { v with left := cs }))
    ∧ (∀ x r, s.walks = (s.core.id, x) :: r →
        ∃ t, exec .pageWalk s = .next t ∧ t.walks = r ∧ t.mem = s.mem ∧ t.core.st = s.core.st ∧ t.core.tlb.head? = some x ∧ t.core.tlb.length ≤ 128
          ∧ (if (if x.big then x.page % 2 else x.page / 2 ^ 13 % 2) = 1 then t.hub1.head? = some x ∧ t.hub0 = s.hub0 else t.hub0.head? = some x ∧ t.hub1 = s.hub1))

/-- R158, R301 and R272: STORE_SEND takes the oldest entry of the core's store buffer, when nothing of its strand is unanswered, to its destination: the bytes of a flat HBM line, the writes to control space, or the bytes of a scratchpad granule of this core; no other byte changes. -/
def Obligations.StoreSendWrites : Prop :=
  ∀ (s : State) (e : SbEntry) (r : List SbEntry), s.pick = 0 → s.core.sb = e :: r → s.invals = [] → s.ctlWrites = [] → s.reqs = [] → s.replies = [] → e.psn = false → s.core.st.out = [] →
    (∀ c t, s.strand? e.gang e.rank = some (c, t) → ∀ q : Fin 32, t.marks[q] ≠ .pending) →
    (e.kind = 0 → Claims.inLine s e.addr e.n → e.n < 64 → ∃ t, exec .storeSend s = .next t ∧ t.core.sb = r ∧ t.core.st = s.core.st ∧ Claims.stored s t e.addr e.n e.value.toNat)
    ∧ (e.kind = 1 → exec .storeSend s = .next { s with core := { s.core with sb := r }, ctlWrites := [⟨e.addr, e.n, e.value, false, s.kdev, e.gang, e.rank, 0, 0, false⟩] })
    ∧ (∀ g gi ri o, e.kind = 2 → s.gang? e.gang = some g → s.peerIn g.open e.unit e.addr e.n = .at gi ri s.core.id o → 0 < e.n → e.n < 64 → o % 64 + e.n ≤ 64 →
        ∃ t, exec .storeSend s = .next t ∧ t = { s with core := { s.core with sb := r, pad := t.core.pad } } ∧ readNat t.core.pad o e.n = e.value.toNat % 256 ^ e.n
          ∧ ∀ k, (k < o ∨ o + e.n ≤ k) → readByte t.core.pad k = readByte s.core.pad k)

/-- A copy entry of the own scratchpad onto itself: n bytes from offset a to offset b of the allotment, apart from each other and inside the first 64 KiB, without a token (R229). -/
def Claims.padCopy (s : State) (e : VqEntry) (a b n : Nat) : Prop :=
  e.kind = 0 ∧ e.src.toNat = 0x70000000000000 + a ∧ e.dst.toNat = 0x70000000000000 + b ∧ e.opnd.toNat = n ∧ e.handle = none ∧ 0 < n
  ∧ a + n ≤ s.core.st.allotSize ∧ b + n ≤ s.core.st.allotSize ∧ a + n ≤ 65536 ∧ b + n ≤ 65536 ∧ (a + n ≤ b ∨ b + n ≤ a)

/-- R230, R231 and R233: COPY_ACCEPT takes a copy inside the own scratchpad from the head of the running strand's queue into the engine with its two interlock entries, and the strand goes on; no byte has moved. COPY_COMPLETE moves the next run of a copy between scratchpads of the core in turn, byte for byte, and counts its bytes; with nothing left it retires the transfer and sends its token the bytes landed. -/
def Obligations.CopyEvents : Prop :=
  ∀ (s : State), s.pick = 0 → 
    (∀ e a b n, s.core.phase = .run → s.core.st.status = .running → s.core.st.vq = some e → Claims.padCopy s e a b n → Claims.Quiet s →
        let t := s.core.st
        ∃ u x, exec .copyAccept s = .next u ∧ u.xfers = [x] ∧ x.id = s.nextId ∧ x.kind = 0 ∧ x.total = n ∧ x.done = 0 ∧ x.waiting = 0 ∧ x.handle = none ∧ x.gang = t.gang ∧ x.rank = t.rank ∧ x.segs ≠ []
          ∧ u.core.locks = [⟨s.nextId, t.gang, t.rank, a, a + n, false⟩, ⟨s.nextId, t.gang, t.rank, b, b + n, true⟩]
          ∧ u.core.st = Claims.doneQ { t with vq := none } ∧ u.core.pad = s.core.pad ∧ u.mem = s.mem)
    ∧ (∀ x, s.xfers = [x] → x.waiting = 0 → s.pieces = [] → s.contains = [] →
        (∀ g gs gi ri o gj rj p c v d, x.segs = g :: gs → g.src = .pad gi ri o → g.dst = .pad gj rj p → g.va.toNat / 2 ^ 44 ≠ 0x600 → s.tokMsgs = [] → s.replies = [] → s.fills = [] → s.combines = [] → 0 < g.len →
            s.gang? gi = some c → c.state = .placed → s.peerIn c ri o g.len = .at gi ri s.core.id d →
            s.strand? gj rj = some (s.core.id, v) → (∀ h, s.gang? gj = some h → h.state = .placed) →
            ∃ u y, exec .copyComplete s = .next u ∧ u.xfers = [y] ∧ y = { x with segs := gs, done := x.done + g.len } ∧ u.mem = s.mem
              ∧ (∀ k, k < g.len → readByte u.core.pad (v.allotBase + p + k) = readByte s.core.pad (d + k))
              ∧ (∀ k, (k < v.allotBase + p ∨ v.allotBase + p + g.len ≤ k) → readByte u.core.pad k = readByte s.core.pad k))
        ∧ (x.segs = [] → s.invals = [] → ∃ u, exec .copyComplete s = .next u ∧ u.xfers = [] ∧ u.mem = s.mem
            ∧ (x.handle = none → u.tokMsgs = s.tokMsgs)
            ∧ (∀ h, x.handle = some h → (h.extractLsb' 23 9).toNat = s.kdev →
                u.tokMsgs = s.tokMsgs ++ [⟨1, h, if x.kind = 2 then (if x.failed then 0 else 1) else min x.done 0xFFFFFFFF, x.late, none, true, s.coreOf x.gang x.rank, s.stamp, some x.id⟩])))

/-- Tile n of the core in turn holds 256 bytes of data whole. -/
def Claims.tileHolds (t : State) (n data : Nat) : Prop := readNat t.core.pad (256 * n) 256 = data % 256 ^ 256

/-- R214, R216, R217 and R432, for an arrival that finds its tile on the core in turn: a whole-tile FILL, first or retried, of a tile that is free for it writes the tile, leaves it full and owned by no fill, and answers its sender; a COMBINE at an armed tile is held in its empty slot and counts CNT down, and the last one leaves the tile full and unarmed; FILL_END gives a tile of an ended fill up. -/
def Obligations.TileArrivals : Prop :=
  ∀ (s : State) (a : Arrival) (n : Nat), s.pick = 0 →
    let g := s.core.tile n
    a.toDev = 0 → a.fromDev = 0 → a.also = [] → a.rest = [] →
    (a.combine = false → a.mask = BitVec.allOnes 256 → a.last = true → g.armed = false → g.full = false → g.owner = none →
      (s.fills = [a] → s.targetOf a = .tile s.core.id n → s.foremost a.unit s.core.id a.seq = true → ∃ t, exec .fill s = .next t ∧ t.fills = [] ∧ Claims.tileHolds t n a.data.toNat
        ∧ t.core.tile n = { g with full := true, owner := none } ∧ (∀ k, k < 256 * n ∨ 256 * n + 256 ≤ k → readByte t.core.pad k = readByte s.core.pad k))
      ∧ (s.retries = [a] → a.due ≤ s.now → (a.peer.extractLsb' 32 16).toNat < 0xFE00 → s.targetOf a = .tile s.core.id n → ∃ t, exec .fillRetry s = .next t ∧ t.retries = [] ∧ Claims.tileHolds t n a.data.toNat
        ∧ t.core.tile n = { g with full := true, owner := none }))
    ∧ (a.combine = true → s.combines = [a] → s.targetOf a = .tile s.core.id n → s.foremost a.unit s.core.id a.seq = true → g.armed = true → a.slot < g.cnt0 → (∀ x ∈ g.slots, x.k ≠ a.slot) →
      (1 < g.cnt → ∃ t, exec .combine s = .next t ∧ t.combines = [] ∧ t.core.tile n = { g with slots := g.slots ++ [⟨a.slot, a.absent, a.data, a.psn⟩], cnt := g.cnt - 1 } ∧ t.core.pad = s.core.pad)
      ∧ (g.cnt = 1 → ∃ t, exec .combine s = .next t ∧ t.combines = [] ∧ (t.core.tile n).full = true ∧ (t.core.tile n).armed = false ∧ (t.core.tile n).cnt = 0 ∧ (t.core.tile n).op = 0 ∧ (t.core.tile n).slots = []))
    ∧ (∀ o, s.fillEnds = [o] → s.others = [] → s.core.overrun = [] → s.core.tiles = [g] → g.idx = n → g.owner = some o →
      ∃ t, exec .fillEnd s = .next t ∧ t.fillEnds = [] ∧ t.core.tile n = { g with owner := none } ∧ t.core.pad = s.core.pad)

/-- R234, R236 and R363, for the first occurrence: PORCH_REQUEST of a piece without an entry opens one for the hold time of its group, where another enrolled strand has still to come; HOLD_EXPIRY releases an entry whose time has run out and keeps it for one more hold time; RELEASED_ENTRY_EXPIRY then takes it away; GROUP_CHANGE_ACK of a GJOIN enrols its strand, writes the egress entries of its core's row (R363; the bits' order is log 94's) and answers it, of a GLEAVE withdraws it. -/
def Obligations.PorchAndGroups : Prop :=
  ∀ (s : State), s.pick = 0 →
    let hold := fun (g : Nat) => match s.holds.find? (fun h => h.1 == g) with | some h => h.2 | none => 4096
    (∀ p r x m, s.pieces = p :: r → s.porch = [] → s.groups = [x] → x.g = p.group → m ∈ x.members → m ≠ (p.gang, p.rank) →
      ∃ t e, exec .porchRequest s = .next t ∧ t.pieces = r ∧ t.porch = [e] ∧ e.released = false ∧ e.expiry = s.now + hold p.group ∧ e.members = [(p.gang, p.rank, p.xfer)]
        ∧ e.group = p.group ∧ e.src = p.src ∧ e.len = p.len ∧ e.off = p.off ∧ t.fills = s.fills ∧ t.mem = s.mem)
    ∧ (∀ p pa key, s.porch = [p] → p.released = false → p.expiry ≤ s.now → p.src = .mem pa key → s.invals = [] →
        ∃ t, exec .holdExpiry s = .next t ∧ t.porch = [{ p with released := true, expiry := s.now + hold p.group }]
          ∧ (∀ gi ri x y, p.members = [(gi, ri, x)] → p.len = 256 → s.xfers.find? (fun z => z.id == x) = some y → y.failed = false → ∃ e, t.fills = s.fills ++ [e] ∧ e.gang = gi ∧ e.rank = ri ∧ e.off = p.off ∧ e.xfer = x ∧ e.last = true
              ∧ (∀ i, i < 256 → e.mask.getLsbD i = true)))
    ∧ (∀ p r, s.porch = p :: r → p.released = true → p.expiry ≤ s.now → exec .releasedEntryExpiry s = .next { s with porch := r })
    ∧ (∀ q, s.groupReqs = [q] → q.join = true → Claims.slotIs s q.gang q.rank → s.core.st.asked = true → s.groups = [] →
        ∃ t x, exec .groupChangeAck s = .next t ∧ t.groupReqs = [] ∧ t.groups = [x] ∧ x.g = q.g ∧ x.members = [(q.gang, q.rank)] ∧ (∀ g, s.gang? q.gang = some g → x.asid = g.kasid)
          ∧ (∀ r, r < 288 → t.egressAt r q.g = if r / 9 ≠ s.core.id / 9 then 0 else if r = s.core.id then 16 else if r < s.core.id then 4 else 8)
          ∧ t.core.st = { s.core.st with answers := [⟨0, 0, false, 0⟩] })
    ∧ (∀ q x, s.groupReqs = [q] → q.join = false → Claims.slotIs s q.gang q.rank → s.core.st.asked = true → s.groups = [x] → x.g = q.g → x.members = [(q.gang, q.rank)]
        → (∀ g, s.gang? q.gang = some g → x.asid = g.kasid) → s.fills = [] → s.porch = [] →
        ∃ t, exec .groupChangeAck s = .next t ∧ t.groupReqs = [] ∧ t.groups = [] ∧ t.core.st = { s.core.st with answers := [⟨0, 0, false, 0⟩] })

/-- R51, R395 and R396, for the only gang, with vector queues of at most 32 instructions (R302): CONTAINMENT under the whole policy leaves the gang contained with status 1, under isolate it counts the rank as contained and leaves the gang's state; the request is gone either way. GANG_COMPLETE, once every rank has exited and no token of the gang has anything pending, ends the gang: its strands are gone from the core in turn and its packet is finished with its status. -/
def Obligations.GangsEnd : Prop :=
  ∀ (s : State) (g : Gang), s.pick = 0 → s.gangs = [g] →
    (∀ x, s.contains = [x] → x.gang = g.id → s.reqs = [] → (∀ k ∈ s.core :: s.others, k.st.queue.length ≤ 32) →
      ∃ t h, exec .containment s = .next t ∧ t.contains = [] ∧ t.gangs = [h] ∧ h.id = g.id ∧ h.task = g.task ∧ h.cores = g.cores ∧ h.exited = g.exited ∧ h.status = 1
        ∧ (g.task.isolate = false → h.state = .contained)
        ∧ (g.task.isolate = true → h.state = g.state ∧ h.contained = g.contained ++ [x.rank]))
    ∧ (g.state = .placed → g.status = 0 → s.porch = [] → (∀ r, r < g.task.c * g.task.s → ∃ e ∈ g.exited, e.rank = r) →
        (∀ k ∈ s.core :: s.others, ∀ y ∈ k.tokens, y.gang = g.id → y.pend = 0) →
        ∃ t, exec .gangComplete s = .next t ∧ t.gangs = [] ∧ g.id ∉ t.waiting ∧ t.mem = s.mem
          ∧ (∀ p ∈ t.pkts, p.id = g.task.pkt → p.phase = 2 ∧ p.status = 0)
          ∧ (s.core.id ∈ g.cores → t.core.st.gang ≠ g.id ∨ t.core.st.status = .none) ∧ (s.core.id ∈ g.cores → ∀ u ∈ t.core.rest, u.gang ≠ g.id))

/-- A strand as R31 places it: rank r of a gang of n ranks, at the packet's code address with its argument in s4, its rank in s5 and the number of ranks in s6, every other register zero, KVTYPE ill, in user mode. -/
def Claims.placedAs (u : Strand) (k : Task) (gi r : Nat) : Prop :=
  u.status = .runnable ∧ u.gang = gi ∧ u.rank = r ∧ u.pc = k.code ∧ u.allotSize = k.spad ∧ u.kvtype = 0x8000000000000000#64 ∧ u.kstatus = 0 ∧ u.vl = 0 ∧ u.kfctl = 0
  ∧ u.regs[4] = k.arg ∧ u.regs[5] = BitVec.ofNat 64 r ∧ u.regs[6] = BitVec.ofNat 64 (k.c * k.s) ∧ ∀ i : Fin 32, i.val ≠ 4 → i.val ≠ 5 → i.val ≠ 6 → u.regs[i] = 0

/-- R31, R49, R50, R333, R338, R341 to R344, R440 and R481, for the only gang, on the core in turn: GANG_PLACE puts a waiting gang's strands on the core that R338 finds, under number 1; GANG_REPLACE brings a parked gang back; PREEMPT takes a strand of a gang that is being parked out of its slot, PREEMPT_SAVE parks a gang whose state fits; GRANT_REDUCTION completes a core whose strands have all applied it, and then the set; GRANT_REDUCTION_TIMEOUT after 262,144 cycles has a laggard's gang parked, or, where that would not fit, defers cause 0x12 to it. -/
def Obligations.SchedulerEvents : Prop :=
  ∀ (s : State) (g : Gang), s.pick = 0 → s.gangs = [g] → s.notified = [] →
    let c := s.core.id
    (∀ gr, s.waiting = [g.id] → g.state = .waiting → 65536 ≤ g.id → s.placement g = some (gr, [c]) →
      ∃ t h us, exec .gangPlace s = .next t ∧ t.waiting = [] ∧ t.gangs = [h] ∧ h.id = 1 ∧ h.state = .placed ∧ h.grant = gr ∧ h.cores = [c] ∧ h.task = g.task
        ∧ h.kutvec = 0 ∧ s.recordBlock g.task = some h.kfrec ∧ h.block = h.kfrec
        ∧ (g.task.spawned = false → h.kstvec = (s.queue g.task.queue).stvec ∧ h.kasid = (s.queue g.task.queue).asid ∧ h.kptbase = (s.queue g.task.queue).ptbase)
        ∧ (g.task.spawned = true → h.kstvec = g.task.stvec ∧ h.kasid = g.task.asid ∧ h.kptbase = g.task.ptbase)
        ∧ t.core.rest = s.core.rest ++ us ∧ us.length = g.task.s ∧ (∀ j (hj : j < us.length), Claims.placedAs us[j] g.task 1 j) ∧ t.mem = s.mem)
    ∧ (∀ v, s.waiting = [g.id] → g.state = .parked → g.cores = [c] → s.placement g = some (g.grant, [c]) → s.core.rest = [v] → v.gang = g.id → v.rank < g.task.c * g.task.s → v.status = .parked →
      ∃ t u, exec .gangReplace s = .next t ∧ t.waiting = [] ∧ t.gangs = [{ g with state := .placed }] ∧ t.core.rest = [u] ∧ u.status = v.held ∧ Claims.sameRegs u v ∧ u.pc = v.pc ∧ t.mem = s.mem)
    ∧ (g.state = .parking → s.core.st.gang = g.id → s.core.st.status = .running → s.core.st.inPlace = false → Claims.boundary s.core.st → s.core.st.turn = 0 →
      ∃ t u, exec .preempt s = .next t ∧ t.core.st = Strand.empty ∧ t.core.phase = .idle ∧ t.core.rest = s.core.rest ++ [u] ∧ u.status = .runnable ∧ Claims.sameRegs u s.core.st ∧ u.pc = s.core.st.pc ∧ t.mem = s.mem)
    ∧ (∀ v, g.state = .parking → g.cores = [c] → s.core.st.status = .none → s.core.tiles = [] → s.xfers = [] → s.waiting = [] → s.core.sb = [] → s.contains = [] → s.gangDone g = false →
        (∃ w, s.parkGang g = some w ∧ ∀ x ∈ w.core.rest, x.image.saveKiB = 0) → s.core.rest = [v] → v.gang = g.id → v.status = .runnable → v.inPlace = false → v.saving = false →
      ∃ t u, exec .preemptSave s = .next t ∧ t.gangs = [{ g with state := .parked }] ∧ t.waiting = [g.id] ∧ t.core.rest = [u] ∧ u.status = .parked ∧ u.held = .runnable ∧ Claims.sameRegs u v ∧ u.pc = v.pc)
    ∧ (∀ r, s.core.reduceTo = some r → (∀ u ∈ s.core.st :: s.core.rest, u.status = .none ∨ u.status = .parked ∨ u.status = .exited ∨ u.grant ≤ r) →
      exec .grantReduction s = .next { s with core := { s.core with grant := r, reduceTo := none } })
    ∧ (∀ r, s.reductions = [r] → s.waiting = [] → (∀ k ∈ s.core :: s.others, k.reduceTo = none) → g.id ∈ r.gangs → g.state = .placed →
      exec .grantReduction s = .next { s with reductions := [], gangs := [{ g with grant := r.grant }] })
    ∧ (∀ r q, s.reductions = [r] → r.late = false → r.since + 262144 ≤ s.now → r.gangs = [g.id] → g.state = .placed → g.cores = [c] → s.core.rest = [] → s.core.reduceTo = some q →
        s.core.st.gang = g.id → s.core.st.status = .running → q < s.core.st.grant → s.core.st.rank = 0 → 0 < g.task.s → s.core.st.deferred = [] →
      let s1 := { s with reductions := [{ r with late := true }] }
      ((s1.parkGang g).isSome = true → exec .grantReductionTimeout s = .next { s1 with gangs := [{ g with state := .parking }] })
      ∧ (s1.parkGang g = none → exec .grantReductionTimeout s = .next (Claims.withSt s1 { s.core.st with deferred := [⟨0x12, 0, 1⟩] })))

/-- A packet's TYPE (R328), and that its checks of R330 pass with translations n, fail with a status, or wait for a table line. -/
def Claims.pktType (p : Pkt) : Nat := ((p.dwords.getD 0 0).extractLsb' 8 8).toNat
def Claims.checks (s : State) (p : Pkt) : Option (Except Nat Named) := s.checkPkt (s.queue p.queue) (s.queue p.queue).asid (s.queue p.queue).ptbase false p.dwords
/-- The packet after it has started. -/
def Claims.started (p : Pkt) (n : Named) : Pkt := { p with phase := 1, sig := n.sig, target := n.target }
/-- A signal's word in flat HBM (R332), 8 bytes, aligned. -/
def Claims.signalAt (s : State) (a : Nat) : Prop := Claims.inLine s a 8 ∧ a % 8 = 0

/-- What a WAIT's test does to its packet (R334): status 6 and a stopped queue on FAULT, finished where COUNT is at most its value, else nothing. -/
def Claims.waitTested (s t : State) (p : Pkt) (a : Nat) : Prop :=
  let v := readNat s.mem a 8
  Claims.flatKept s t
  ∧ (2 ^ 63 ≤ v → t.pkts = [{ p with phase := 2, status := 6 }] ∧ (t.queue p.queue).err = true ∧ (t.queue p.queue).estat = 6)
  ∧ (v ≤ (p.dwords.getD 2 0).toNat → v < 2 ^ 63 → t.pkts = [{ p with phase := 2 }] ∧ t.queues = s.queues)

/-- R327: the packet in the slot at QRD of an enabled queue has been read, freed and counted: its eight dwords as they stood, VALID cleared in memory. -/
def Claims.pktRead (s t : State) (x : Queue) (pa : Nat) : Prop :=
  let v := readNat s.mem pa 64
  t.pkts = [⟨s.nextId, x.q, false, (List.range 8).map (fun i => BitVec.ofNat 64 (readNat s.mem (pa + 8 * i) 8)), 0, 0, none, none, 0⟩]
  ∧ (t.queue x.q).rd = x.rd + 1 ∧ (t.queue x.q).en = true ∧ (t.queue x.q).err = false ∧ Claims.stored s t pa 8 (v % 2 ^ 64 - 1)

/-- The only queue is enabled and has no packet under way; the slot at QRD lies at pa in flat HBM. -/
def Claims.slotAt (s : State) (x : Queue) (pa : Nat) : Prop :=
  s.boot = .full ∧ s.queues = [x] ∧ x.en = true ∧ x.err = false ∧ s.pkts = [] ∧ s.notified = [] ∧ s.invals = [] ∧ Claims.inLine s pa 64
  ∧ ∃ y key, s.cpPage x.asid x.ptbase (x.base.toNat / 64 % 2 ^ 49 * 64 + 64 * (x.rd % 2 ^ x.qsize)) true true = .ok (y, pa, key)
/-- And its VALID is 1. -/
def Claims.mayRead (s : State) (x : Queue) (pa : Nat) : Prop := Claims.slotAt s x pa ∧ readNat s.mem pa 64 % 2 = 1

/-- The only queue starts, or restarts, as y (R325, R327): before full mode it is only noted; then its slot is examined, and a packet in it is read. -/
def Claims.startsAt (s t : State) (y : Queue) : Prop :=
  let u := { s with queues := [y] }
  (s.boot ≠ .full → t = { u with notified := [y.q] })
  ∧ ∀ pa, Claims.slotAt u y pa →
    (readNat s.mem pa 64 % 2 = 1 → Claims.pktRead u t y pa)
    ∧ (readNat s.mem pa 64 % 2 = 0 → t.queue y.q = y ∧ t.pkts = [] ∧ Claims.flatKept s t)

/-- R327 to R337, for the only packet under way, with the memory error log off, no invalidation outstanding and no line in an L1: QUEUE_SCAN reads a queue's next packet. A packet whose checks fail stops its queue with the status (LAUNCH row). One whose checks pass: LAUNCH joins its gang to the waiting list; SIGNAL lowers its word's COUNT, never below 0, and keeps FAULT; WAIT and its poll test their word; COPY becomes a transfer of its length; TABLE sets its group's hold time and, with an image, has the switches load their shadow tables, then commit them, and finishes when all 36 have acknowledged. PACKET_COMPLETE takes the packet away, and lowers its completion signal by one, setting FAULT for a status other than 0. The model's choices: what a SIGNAL or a WAIT without a target does (log 62, DEDUCED), TABLE's three steps and the order of its group's settings (log 67, DEDUCED), how the switches are told and when they answer (log 43, DESIGN CHOICE). -/
def Obligations.CommandProcessorEvents : Prop :=
  ∀ (s : State), s.pick = 0 → s.invals = [] → s.notified = [] → s.meEn = false → (∀ l, s.holders l = []) →
    (∀ x pa, Claims.mayRead s x pa → ∃ t, exec .queueScan s = .next t ∧ Claims.pktRead s t x pa)
    ∧ ∀ (p : Pkt), s.pkts = [p] →
      let d := fun (i : Nat) => p.dwords.getD i 0
      let done := fun (n : Named) => { Claims.started p n with phase := 2 }
      let signalled := fun (n : Named) => { done n with gang := 2 ^ 20 + 2 * p.id + 1 }
      let mayLoad := s.boot = .full ∧ s.quiesce = false ∧ s.fabricLost = false
      (p.phase = 0 → s.spawns = [] →
        (∀ st, ¬ (2 ≤ Claims.pktType p ∧ Claims.pktType p ≤ 5) → Claims.checks s p = some (.error st) → ∃ t sg, exec .launch s = .next t ∧ t.pkts = [{ p with phase := 2, status := st, sig := sg }]
          ∧ (t.queue p.queue).err = true ∧ (t.queue p.queue).estat = st ∧ Claims.flatKept s t ∧ t.gangs = s.gangs)
        ∧ (∀ n, Claims.pktType p = 1 → Claims.checks s p = some (.ok n) → ∃ t g, exec .launch s = .next t ∧ t.gangs = s.gangs ++ [g] ∧ t.waiting = s.waiting ++ [g.id] ∧ g.state = .waiting ∧ g.joined = s.now
          ∧ g.task.c = ((d 0).extractLsb' 48 9).toNat ∧ g.task.s = ((d 0).extractLsb' 57 6).toNat ∧ g.task.grp = ((d 0).extractLsb' 45 3).toNat ∧ g.task.isolate = (d 0).getLsbD 41
          ∧ g.task.prio = min ((d 0).extractLsb' 42 3).toNat (min (s.queue p.queue).maxPrio 7) ∧ g.task.code = (d 1).setWidth 55 ∧ g.task.arg = d 2 ∧ g.task.spad = ((d 3).extractLsb' 0 32).toNat
          ∧ g.task.asid = (s.queue p.queue).asid ∧ g.task.ptbase = (s.queue p.queue).ptbase ∧ g.task.stvec = (s.queue p.queue).stvec
          ∧ t.pkts = [{ Claims.started p n with phase := 3, gang := g.id }] ∧ Claims.flatKept s t)
        ∧ (∀ n, Claims.pktType p = 2 → Claims.checks s p = some (.ok n) →
          (n.target = none → ∃ t, exec .signalPacket s = .next t ∧ t.pkts = [signalled n] ∧ t.queues = s.queues ∧ Claims.flatKept s t)
          ∧ (∀ a key, n.target = some (a, key) → Claims.signalAt s a → ∃ t, exec .signalPacket s = .next t ∧ t.pkts = [signalled n]
              ∧ Claims.stored s t a 8 (readNat s.mem a 8 / 2 ^ 63 * 2 ^ 63 + (readNat s.mem a 8 % 2 ^ 63 - (d 2).toNat))))
        ∧ (∀ n a key, Claims.pktType p = 3 → Claims.checks s p = some (.ok n) → n.target = some (a, key) → Claims.signalAt s a →
          ∃ t, exec .waitPacket s = .next t ∧ Claims.waitTested s t (Claims.started p n) a
            ∧ ((d 2).toNat < readNat s.mem a 8 → readNat s.mem a 8 < 2 ^ 63 → t.pkts = [Claims.started p n] ∧ t.queues = s.queues))
        ∧ (∀ n, Claims.pktType p = 3 → Claims.checks s p = some (.ok n) → n.target = none → ∃ t, exec .waitPacket s = .next t ∧ t.pkts = [done n] ∧ t.queues = s.queues ∧ Claims.flatKept s t)
        ∧ (∀ n a ka b kb len, Claims.pktType p = 4 → Claims.checks s p = some (.ok n) → n.src = [(a, ka, len)] → n.dst = [(b, kb, len)] → (d 3).toNat = len → 0 < len → s.xfers = [] →
          ∃ t x, exec .copyPacket s = .next t ∧ t.xfers = [x] ∧ x.kind = 5 ∧ x.packet = p.id ∧ x.total = len ∧ x.done = 0 ∧ x.segs ≠ [] ∧ t.pkts = [Claims.started p n] ∧ Claims.flatKept s t)
        ∧ (∀ n, Claims.pktType p = 5 → Claims.checks s p = some (.ok n) →
          let set := fun (t : State) => Claims.flatKept s t ∧ t.casts = s.casts ∧ t.holds.find? (fun h => h.1 == (d 1).toNat) = some ((d 1).toNat, if d 2 = 0 then 4096 else (d 2).toNat)
          (d 3 = 0 → ∃ t, exec .tablePacket s = .next t ∧ set t ∧ t.pkts = [done n] ∧ t.shadowCasts = s.shadowCasts ∧ t.switchOut = s.switchOut)
          ∧ (∀ a key, d 3 ≠ 0 → n.image = [(a, key, 64)] → Claims.inLine s a 64 → mayLoad →
              let image := BitVec.ofNat 512 (readNat s.mem a 64)
              ∃ t, exec .tablePacket s = .next t ∧ set t ∧ t.pkts = [Claims.started p n] ∧ t.switchOut = s.switchOut ++ [.load (d 1).toNat image]
                ∧ t.shadowCasts.find? (fun c => c.1 == (d 1).toNat) = some ((d 1).toNat, image))))
      ∧ (Claims.pktType p = 5 →
        (p.phase = 1 → mayLoad → ∃ t, exec .tablePacket s = .next t ∧ t.pkts = [{ p with phase := 4 }] ∧ t.casts = s.shadowCasts ∧ t.shadowCasts = s.shadowCasts ∧ t.switchOut = s.switchOut ++ [.commit] ∧ t.mem = s.mem)
        ∧ (p.phase = 4 → s.switchAcks < 36 → exec .tablePacket s = .next s)
        ∧ (p.phase = 4 → 36 ≤ s.switchAcks → exec .tablePacket s = .next { s with pkts := [{ p with phase := 2 }], switchAcks := s.switchAcks - 36 }))
      ∧ (∀ a key, p.phase = 1 → Claims.pktType p = 3 → p.target = some (a, key) → Claims.signalAt s a → ∃ t, exec .waitPacketPoll s = .next t ∧ Claims.waitTested s t p a)
      ∧ (p.phase = 2 → (p.gang = 0 ∨ (s.xfers = [] ∧ s.ctlWrites = [] ∧ s.reqs = [] ∧ ∀ k ∈ s.core :: s.others, k.sb = [])) → (d 0).getLsbD 2 = false →
        (p.sig = none → exec .packetComplete s = .next { s with pkts := [] })
        ∧ (∀ a key, p.sig = some (a, key) → Claims.signalAt s a → ∃ t, exec .packetComplete s = .next t ∧ t.pkts = []
            ∧ Claims.stored s t a 8 ((if p.status ≠ 0 ∨ 2 ^ 63 ≤ readNat s.mem a 8 then 2 ^ 63 else 0) + (readNat s.mem a 8 % 2 ^ 63 - 1))))

/-- A write of 8 bytes that has reached offset off of control space, from a strand of this device, or by a management request of a host (a number other than 0). -/
def Claims.ctlW (s : State) (off : Nat) (v : Word) (host : Nat) : CtlWrite := ⟨0xFF0000000000 + off, 8, v, host != 0, s.kdev, 0, 0, 0, host, false⟩

/-- R322 to R325, R348, R370, R417, R449 to R454, R474 and R475: what a write of 8 bytes to a control register does when it is the oldest one waiting. Each takes the write away; the ones stated exactly change nothing else. A write that starts or restarts a queue has its slot examined (R325, R327). The model's choices: the joins that FDEVID begins (log 57, DEDUCED), and which bits of KEYDATA a KEYCMD load takes (log 26, DEDUCED). -/
def Obligations.ControlWrites : Prop :=
  ∀ (s : State) (q : Nat) (v : Word), q < 1024 →
    let at_ := fun (off : Nat) => s.ctlWrites = [Claims.ctlW s off v 0]
    let x := s.queue q
    let s0 := { s with ctlWrites := [] }
    let f := fun (hi lo : Nat) => (v.extractLsb' lo (hi + 1 - lo)).toNat
    (at_ (0x1000 * q) → (s.boot ≠ .full → exec .notify s = .next s0) ∧ (∀ y pa, Claims.mayRead s y pa → y.q = q → ∃ t, exec .notify s = .next t ∧ Claims.pktRead s t y pa))
    ∧ (at_ (0x400000 + 0x1000 * q) →
        (x.en = false → v.getLsbD 0 = true → 4 ≤ f 23 20 → f 23 20 ≤ 16 → ∃ t, exec .queueEnable s = .next t ∧ t.ctlWrites = [] ∧ (t.queue q).en = true ∧ (t.queue q).qsize = f 23 20
            ∧ (t.queue q).maxPrio = f 18 16 ∧ (t.queue q).priv = v.getLsbD 2 ∧ (t.queue q).rd ≤ 1)
        ∧ (let on := v.getLsbD 0 = true ∧ 4 ≤ f 23 20 ∧ f 23 20 ≤ 16
           let y := { x with qsize := f 23 20, maxPrio := f 18 16, priv := v.getLsbD 2, err := x.err && !v.getLsbD 1 }
           let y0 := { y with en := true, rd := 0 }
           (x.en = false → on → y.err = true → ∃ t, exec .queueEnable s = .next t ∧ t.ctlWrites = [] ∧ t.queue q = y0 ∧ t.mem = s.mem ∧ t.pkts = s.pkts)
           ∧ (x.en = false → on → y.err = false → s.queues = [x] → s.notified = [] → ∃ t, exec .queueEnable s = .next t ∧ Claims.startsAt s0 t y0)
           ∧ (x.en = false → v.getLsbD 0 = true → f 23 20 < 4 → ∃ t, exec .queueEnable s = .next t ∧ t.ctlWrites = [] ∧ t.queue q = y ∧ t.mem = s.mem ∧ t.pkts = s.pkts))
        ∧ (x.en = true → x.err = true → v.getLsbD 0 = true → v.getLsbD 1 = true → s.queues = [x] → s.notified = [] →
            ∃ t, exec .errClear s = .next t ∧ Claims.startsAt s0 t { x with err := false })
        ∧ (x.en = true → v.getLsbD 0 = false → ∃ t, exec .queueDisable s = .next t ∧ t.ctlWrites = [] ∧ t.queue q = { x with en := false, err := x.err && !v.getLsbD 1 } ∧ q ∉ t.notified ∧ t.mem = s.mem)
        ∧ (x.en = false → x.err = true → v.getLsbD 0 = false → v.getLsbD 1 = true → ∃ t, exec .errClear s = .next t ∧ t.ctlWrites = []
            ∧ t.queue q = { x with err := false, qsize := f 23 20, maxPrio := f 18 16, priv := v.getLsbD 2 } ∧ t.mem = s.mem))
    ∧ (at_ 0x800000 → s.hmEn = false → v.getLsbD 0 = true → 4 ≤ f 8 4 → f 8 4 ≤ 16 →
        exec .hmctlEnable s = .next { s0 with hmEn := true, hmSize := f 8 4, hmWr := 0, hmRd := 0, hmLost := 0 })
    ∧ (at_ 0x810000 → s.meEn = false → v.getLsbD 0 = true → 4 ≤ f 8 4 → f 8 4 ≤ 16 →
        exec .mectlEnable s = .next { s0 with meEn := true, meSize := f 8 4, meWr := 0, meRd := 0, meLost := 0 })
    ∧ (at_ 0x8201C0 → ∃ t, exec .ffset s = .next t ∧ (s.reqs = [] → ∀ m, m < 512 → t.fence.getLsbD m = (decide (m = f 8 0) || s.fence.getLsbD m))
        ∧ (∀ r reg n sgn ad, s.reqs = [r] → r.dst = f 8 0 → r.kind = .load reg n sgn ad → t.reqs = [] ∧ ∃ y, t.replies = s.replies ++ [y] ∧ y.gang = r.gang ∧ y.rank = r.rank ∧ y.reg = reg ∧ y.status = 1))
    ∧ (at_ 0x820138 → ∃ t, exec .fbridge s = .next t ∧ t.fbridge = v.extractLsb' 0 4 ∧ t.ctlWrites = [])
    ∧ (at_ 0x820130 → (v.getLsbD 1 ≠ s.quiesce → ∃ t, exec .quiesce s = .next t ∧ t.quiesce = v.getLsbD 1 ∧ t.ctlWrites = [] ∧ (s.quiesce = true → ∀ p ∈ t.planes, p.state ≠ 2))
        ∧ (v.getLsbD 1 = s.quiesce → v.getLsbD 0 = true →
            exec .fctlClr s = .next { s0 with flink := (0, 0), fdisc := (0, 0), planes := s.planes.map (fun p => { p with pdis := 0, pdisAtHalving := 0 }) }))
    ∧ (∀ h, h ≠ 0 → s.ctlWrites = [Claims.ctlW s 0x8201D0 v h] → s.gangs = [] → ∃ t, exec .fdevid s = .next t ∧ t.kdev = f 8 0 ∧ t.pairs = []
        ∧ (f 8 0 ≠ 0 → ∀ m, 0 < m → m < 512 → m ≠ f 8 0 → (m, s.now) ∈ t.joins))
    ∧ (∀ y, at_ 0x830028 → v.getLsbD 0 = true → s.frames = [y] → y.dirty = true → y.bad = false → s.portUp (s.frameLine y) = true →
        ∃ t, exec .hflush s = .next t ∧ t.frames = [{ y with dirty := false }] ∧ t.hflush = false)
    ∧ (at_ 0x830020 → (v.getLsbD 8 = true → ∃ t, exec .keyLoad s = .next t ∧ t.keyData = 0 ∧ t.keys = s.keys.filter (fun k => k.1 != f 7 0) ++ [(f 7 0, s.keyData.extractLsb' 0 256)] ∧ t.mem = s.mem)
        ∧ (v.getLsbD 8 = false → exec .keyClear s = .next { s0 with keyData := 0, keys := s.keys.filter (fun k => k.1 != f 7 0) }))
    ∧ (at_ 0x830008 → exec .registerWrite s = .next { s0 with plim := max 1200 (min 2400 (f 11 0)) })
    ∧ (at_ (0x400008 + 0x1000 * q) → x.en = false → ∃ t, exec .registerWrite s = .next t ∧ t.queue q = { x with base := v &&& 0x7FFFFFFFFFFFC0 } ∧ t.ctlWrites = [] ∧ t.mem = s.mem)

/-- A flit as it comes when no symbol of it is harmed (R349 to R355): its preamble on every plane, and the 32 words of its body with their check bits. -/
def Claims.whole (f : Flit) (src : Nat) : RxFlit :=
  ⟨List.replicate 36 (some (BitVec.ofNat 16 (preamble f.vc f.mc f.dest))), (List.range 32).map (fun i => sendWord (f.body / 2 ^ (64 * i))), false, src⟩

/-- A flit of this pair: for this device, not multicast, with content, its SEQ the next one and NAK clear (R350, R354, R356). -/
def Claims.nextFlit (s : State) (f : Flit) (src : Nat) : Prop :=
  f.dest = s.kdev ∧ f.mc = false ∧ f.vc < 4 ∧ s.kdev < 512 ∧ f.area ≠ 0 ∧ f.ctl.getLsbD 24 = false
  ∧ (f.ctl.extractLsb' 0 12).toNat = ((s.pair src).accepted + 1) % 4096

/-- R349, R350 and R353: the preamble word holds the destination, the multicast bit, the channel and their check nibble; the first eight link words of a sent flit carry its symbols on every plane, the other 32 its body, 64 bits each below the check bits; every fifteen flits that leave make a block, in which each lane has its bit of the 600 words in the order sent, and check bits that make it a multiple of the generator. -/
def Obligations.SentBlocks : Prop :=
  (∀ (vc dest : Nat) (mc : Bool), vc < 4 → dest < 512 → let p := preamble vc mc dest
    p < 2 ^ 16 ∧ p % 512 = dest ∧ p.testBit 9 = mc ∧ p / 2 ^ 10 % 4 = vc ∧ p / 2 ^ 12 = (p % 16) ^^^ (p / 2 ^ 4 % 16) ^^^ (p / 2 ^ 8 % 16))
  ∧ (∀ (f : Flit) (k p : Nat), k < 8 → p < 36 → (f.word k).toNat / 4 ^ p % 4 = preamble f.vc f.mc f.dest / 4 ^ k % 4)
  ∧ (∀ (f : Flit) (k : Nat), k < 32 → (f.word (8 + k)).toNat % 2 ^ 64 = f.body / 2 ^ (64 * k) % 2 ^ 64)
  ∧ (∀ (ws : List (BitVec 72)) (lane : Nat), ws.length = 600 → let b := laneBlock ws lane
    (∀ i (h : i < ws.length), b.getLsbD (679 - i) = ws[i].getLsbD lane) ∧ fireMod 600 b.toNat = 0)
  ∧ (∀ (s : State) (f : Flit), s.txFlits.length = 14 →
    (s.emitOne f).txFlits = [] ∧ (s.emitOne f).txBlocks = s.txBlocks ++ [(List.range 72).map (laneBlock ((s.txFlits ++ [f]).flatMap (fun f => (List.range 40).map f.word)))])

/-- R352: a word that carries 64 bits of data and its check bits reads back as the data, also when one plane's symbol has been changed. -/
def Obligations.PlaneCorrection : Prop :=
  ∀ (d p e : Nat), p < 36 → e < 4 →
    ∃ w, correctWord [] (sendWord d ^^^ BitVec.ofNat 72 (e * 4 ^ p)) = some w ∧ w % 2 ^ 64 = d % 2 ^ 64

/-- R354 to R356, R444, R448 and R457, for a device in full mode that may transmit: FLIT_RECEIVE accepts a whole flit whose SEQ is the next one, and counts and answers with NAK one whose block's burst code failed (a group's on channel 3 with the group's number, log 27); ACK_TIMER acknowledges after 200 ns; REPLAY_LIMIT fences a device after 16 resends or 100 microseconds; SCORE_HALVING halves a plane's scores after 2^24 blocks; JOIN_RESEND sends the join write. The model's choices: the group's number in a multicast NAK (log 27, DEDUCED), and the SEQ of a flit without content (log 28, DEDUCED). -/
def Obligations.LinkEvents : Prop :=
  ∀ (s : State), s.pick = 0 → s.boot = .full → s.quiesce = false → s.fabricLost = false → s.kdev ≠ 0 →
    (∀ f r src, s.rxFlits = Claims.whole f src :: r → (∀ p ∈ s.planes, p.state ≠ 2) → Claims.nextFlit s f src → s.fence.getLsbD src = false →
      ∃ t, exec .flitReceive s = .next t ∧ t.rxFlits = r ∧ (t.pair src).accepted = (f.ctl.extractLsb' 0 12).toNat ∧ (t.pair src).nakSent = false
        ∧ t.planes = s.planes ∧ t.flink = s.flink ∧ t.mem = s.mem ∧ t.core = s.core)
    ∧ (∀ f r src, s.rxFlits = { Claims.whole f src with blockBad := true } :: r → (∀ p ∈ s.planes, p.state ≠ 2) → f.vc < 4 → f.dest < 512 → src < 512 → src ≠ s.kdev → s.fence.getLsbD src = false →
      ∃ t x, exec .flitReceive s = .next t ∧ t.rxFlits = r ∧ t.flink = (s.flink.1, min (s.flink.2 + 1) 0xFFFFFFFF) ∧ t.sent = s.sent ++ [x] ∧ x.dest = src ∧ x.area = 0 ∧ x.ctl.getLsbD 24 = true
        ∧ (f.mc = true → x.vc = 3 ∧ (x.ctl.extractLsb' 0 12).toNat = f.dest)
        ∧ (t.pair src).accepted = (s.pair src).accepted ∧ t.rx = s.rx ∧ t.mem = s.mem)
    ∧ (∀ p r, s.pairs = p :: r → p.dev < 512 → p.sinceAck ≠ 0 → 600 ≤ s.now - p.lastAckAt →
      ∃ t x, exec .ackTimer s = .next t ∧ t.sent = s.sent ++ [x] ∧ x.dest = p.dev ∧ x.mc = false ∧ x.area = 0
        ∧ (x.ctl.extractLsb' 0 12).toNat = p.acked % 4096 ∧ (x.ctl.extractLsb' 12 12).toNat = p.accepted % 4096 ∧ x.ctl.getLsbD 24 = p.nakSent
        ∧ t.mem = s.mem ∧ t.core = s.core ∧ t.txq = s.txq)
    ∧ (∀ p r, s.pairs = p :: r → p.dev < 512 → p.goBack ≠ [] → (16 ≤ p.resends ∨ 300000 ≤ s.now - p.heldSince) → s.reqs = [] → (∀ x ∈ s.joins, x.1 ≠ p.dev) →
      ∃ t, exec .replayLimit s = .next t ∧ (∀ m, m < 512 → t.fence.getLsbD m = (decide (m = p.dev) || s.fence.getLsbD m)) ∧ ∀ x ∈ t.pairs, x.dev ≠ p.dev)
    ∧ (∀ p r, s.planes = p :: r → 2 ^ 24 ≤ p.blocks → p.state ≤ 1 → p.score1 < 16384 → p.score0 < 16384 →
      exec .scoreHalving s = .next { s with planes := { p with
        score1 := p.score1 / 2, score0 := p.score0 / 2, blocks := p.blocks - 2 ^ 24, pdisAtHalving := p.pdis
        state := if p.score1 / 2 < 4096 ∧ p.score0 / 2 < 4096 then 0 else p.state } :: r })
    ∧ (∀ m t0 r, s.joins = (m, t0) :: r → s.reqs = [] → (∀ x ∈ r, x.1 ≠ m) →
      ∃ t q, exec .joinResend s = .next t ∧ t.txq = s.txq ++ [q] ∧ q.typ = 0x02 ∧ q.dst = m ∧ q.src = s.kdev ∧ q.len = 8 ∧ q.d1 = 0xFF00008201C8 ∧ q.payload = BitVec.ofNat 2048 s.kdev
        ∧ t.joins = (m, s.now) :: r ∧ t.reqs = [⟨q.tag, m, 0, 0, .join, 0⟩] ∧ t.mem = s.mem ∧ t.core = s.core)

/-- The only packet that has arrived is p, from another device that is not fenced, while the fabric works (R348, R451, R454). -/
def Claims.arrived (s : State) (p : Packet) : Prop :=
  s.rx = [p] ∧ s.kdev ≠ 0 ∧ s.fabricLost = false ∧ s.fence.getLsbD p.src = false ∧ p.src ≠ s.kdev
/-- The target of a request, with its key slot and its PSN bits apart: byte pa of this device's memory (R359). -/
def Claims.targets (p : Packet) (pa : Nat) : Prop := (p.d1.extractLsb' 0 48).toNat = pa ∧ p.d1.getLsbD 63 = false
/-- A response to p: its type, tag, data and dword 1 (R361). -/
def Claims.responds (s t : State) (p : Packet) (typ len data : Nat) (d1 : Word) : Prop :=
  ∃ q, t.txq = s.txq ++ [q] ∧ q.typ = typ ∧ q.dst = p.src ∧ q.src = s.kdev ∧ q.tag = p.tag ∧ q.len = len ∧ q.d1 = d1 ∧ q.payload = BitVec.ofNat 2048 data

/-- The operators of ATOMIC on 8-byte values (R114, R160). -/
def Claims.atomicTable : List (Nat × (Nat → Nat → Nat)) := [
  (0, fun old x => (old + x) % 2 ^ 64), (1, fun old x => old &&& x), (2, fun old x => old ||| x), (3, fun old x => old ^^^ x),
  (4, fun old x => if (BitVec.ofNat 64 x).toInt < (BitVec.ofNat 64 old).toInt then x else old),
  (5, fun old x => if (BitVec.ofNat 64 old).toInt < (BitVec.ofNat 64 x).toInt then x else old),
  (6, fun old x => min old x), (7, fun old x => max old x), (8, fun _ x => x)]

/-- R360 to R362, R365 and R366, for the only packet waiting, which another device has sent: READ and GFORWARD answer with the bytes of flat HBM; WRITE stores its payload and answers DONE; ATOMIC stores the new value and answers with the old one; SPAWN_REQUEST of an enabled queue of the same ASID joins the intake, of any other is refused with status 1; HOSTMSG goes to the bridge's ring, dwords 1 to 3 before dword 0 (R371), and is lost at a device that is no bridge; the join write lifts a fence (R457). The model's choices: the fields of SPAWN_REQUEST's dword 1 (log 25), a HOSTMSG at a device that is no bridge (log 72), and that the join leaves the pair's accepted count (log 59). -/
def Obligations.RemoteRequests : Prop :=
  ∀ (s : State) (p : Packet), s.pick = 0 →
    (∀ pa, Claims.arrived s p → Claims.targets p pa → Claims.inLine s pa p.len → s.invals = [] → s.linePsn (pa / 64) = false →
      (p.typ = 0x01 → ∃ t, exec .read s = .next t ∧ t.rx = [] ∧ Claims.responds s t p 0x04 p.len (readNat s.mem pa p.len) 0 ∧ ∀ k, k < 0x100000000000 → readByte t.mem k = readByte s.mem k)
      ∧ (p.typ = 0x02 → s.l2At (pa / 64) = none → s.holders (pa / 64) = [] → p.d1.extractLsb' 48 4 = 0 →
        ∃ t, exec .write s = .next t ∧ t.rx = [] ∧ Claims.responds s t p 0x05 0 0 0 ∧ Claims.stored s t pa p.len p.payload.toNat)
      ∧ (∀ f ∈ Claims.atomicTable, p.typ = 0x03 → p.len = 8 → pa % 8 = 0 → s.l2At (pa / 64) = none → s.holders (pa / 64) = [] → .lineBuffer ∉ s.errors → (p.d1.extractLsb' 48 10).toNat = f.1 →
        let old := readNat s.mem pa 8
        ∃ t, exec .atomic s = .next t ∧ t.rx = [] ∧ Claims.responds s t p 0x06 8 old 0 ∧ Claims.stored s t pa 8 (f.2 old (p.payload.toNat % 2 ^ 64))))
    ∧ (∀ pa, Claims.arrived s p → (p.d1.extractLsb' 0 48).toNat = pa → p.typ = 0x14 → p.len = 256 → pa % 256 = 0 → s.hbmQ ≤ 4 → pa + 256 ≤ s.hbmQ * 192 * 2 ^ 30 → s.meEn = false → s.invals = [] →
      (∀ l, l < 4 → s.linePsn (pa / 64 + l) = false) →
      ∃ t, exec .gforward s = .next t ∧ t.rx = [] ∧ Claims.responds s t p 0x04 256 (readNat s.mem pa 256) 0)
    ∧ (Claims.arrived s p → p.typ = 0x15 → let q := (p.d1.extractLsb' 0 10).toNat
      ((s.queue q).en = true → (s.queue q).asid = p.asid → s.spawns = [] → s.gangs = [] →
        ∃ t w, exec .spawnRequest s = .next t ∧ t = { s with rx := [], spawns := [w] } ∧ w.queue = q ∧ w.asid = p.asid ∧ w.fromDev = p.src ∧ w.fromTag = p.tag
          ∧ w.prio = (p.d1.extractLsb' 16 3).toNat ∧ w.dwords = (List.range 8).map (fun i => p.payload.extractLsb' (64 * i) 64))
      ∧ ((s.queue q).en = false ∨ (s.queue q).asid ≠ p.asid → ∃ t, exec .spawnRequest s = .next t ∧ t.rx = [] ∧ t.spawns = s.spawns ∧ Claims.responds s t p 0x05 0 0 0x100))
    ∧ (s.rx = [p] → p.typ = 0x17 → s.hmKept = [] →
      ((s.fbridge.getLsbD 3 = false ∨ (s.fbridge.extractLsb' 0 3).toNat ≠ s.kdev % 8) → exec .hostmsg s = .next { s with rx := [], hmLost := s.hmLost + 1 })
      ∧ (s.fbridge.getLsbD 3 = true → (s.fbridge.extractLsb' 0 3).toNat = s.kdev % 8 → s.hmEn = true → s.hmWr - s.hmRd < 2 ^ s.hmSize →
        exec .hostmsg s = .next { s with
          rx := [], hmWr := s.hmWr + 1
          hostMem := s.hostMem ++ [(s.hmBase.toNat + 32 * (s.hmWr % 2 ^ s.hmSize) + 8, 24, p.payload.setWidth 256 >>> 64),
            (s.hmBase.toNat + 32 * (s.hmWr % 2 ^ s.hmSize), 8, (p.payload.setWidth 256 % 2 ^ 64) ||| (if s.hmWr / 2 ^ s.hmSize % 2 = 0 then 1 else 0))] }))
    ∧ (s.rx = [p] → s.kdev ≠ 0 → s.fabricLost = false → p.src ≠ s.kdev → p.typ = 0x02 → p.len = 8 → p.d1 = 0xFF00008201C8 →
      p.src < 512 → s.fence.getLsbD p.src = true → (p.payload.extractLsb' 0 64).toNat = p.src → s.meEn = false →
      ∃ t, exec .fjoin s = .next t ∧ t.rx = [] ∧ Claims.responds s t p 0x05 0 0 0 ∧ t.mem = s.mem ∧ (t.pair p.src).accepted = (s.pair p.src).accepted
        ∧ ∀ m, m < 512 → t.fence.getLsbD m = (decide (m ≠ p.src) && s.fence.getLsbD m))

/-- R36, R361, R430 and R483, for the only packet waiting: a response with STATUS 0 ends the request of its tag, a load's and an AMO's with a reply for its register (extended as the access says), a store's with nothing more; SIGNAL adds its amount to a token of the core in turn, INCREMENT raises its pending and its REMOTE. -/
def Obligations.RemoteAnswers : Prop :=
  ∀ (s : State) (p : Packet), s.pick = 0 → s.rx = [p] →
    (∀ r, s.reqs = [r] → r.tag = p.tag → r.dst = p.src → p.d1.extractLsb' 0 8 = 0 →
      let s0 := { s with rx := [], reqs := [] }
      let v := fun (n : Nat) => p.payload.toNat % 256 ^ n
      (∀ reg n sgn ad, p.typ = 0x04 → r.kind = .load reg n sgn ad → n ∈ [1, 2, 4, 8] →
        exec .readData s = .next { s0 with replies := s.replies ++ [⟨r.gang, r.rank, reg, 0, false, Claims.ext sgn n (v n), ad, 1000 + r.dst, s.stamp⟩] })
      ∧ (∀ reg n ad, p.typ = 0x06 → r.kind = .amo reg n ad → n ∈ [4, 8] →
        exec .atomicData s = .next { s0 with replies := s.replies ++ [⟨r.gang, r.rank, reg, 0, false, Claims.ext (n == 4) n (v n), ad, 1000 + r.dst, s.stamp⟩] })
      ∧ (∀ cls, p.typ = 0x05 → r.kind = .store cls → exec .done s = .next s0))
    ∧ (∀ k, let h := p.d1.extractLsb' 0 32
      (h.extractLsb' 23 9).toNat = s.kdev → (h.extractLsb' 14 9).toNat = s.core.id → s.core.id < 288 → h.extractLsb' 0 6 = 0 → Claims.tok s (h.extractLsb' 6 8).toNat = some k →
      k.bad = false → k.arm = none → k.gang ≠ 0 →
      (p.typ = 0x10 → p.dec = false → let n := min (k.count + (p.d1.extractLsb' 32 32).toNat) 0xFFFFFFFF
        ∃ t, exec .signal s = .next t ∧ t.rx = [] ∧ Claims.tok t k.slot = some { k with count := n } ∧ t.mem = s.mem
          ∧ ∀ u ∈ s.core.rest, ∀ x, u.wait = .token k.slot x → u.status = .waiting → u.held = .none → u.inPlace = false → u.saving = false → x ≤ n →
              { u with wait := .none, status := .runnable, boost := 0, readyAt := s.now, agedAt := s.now } ∈ t.core.rest)
      ∧ (p.typ = 0x11 → k.pend < 65535 → k.source = none → k.multi = false →
        ∃ t, exec .increment s = .next t ∧ t.rx = [] ∧ Claims.tok t k.slot = some { k with pend := k.pend + 1, remote := k.remote + 1, source := some p.src } ∧ t.mem = s.mem ∧ t.core.st = s.core.st))

/-- R348, R368, R369 and R471, for the only host request: through the bridge, a read of flat HBM of the bridge itself answers with its bytes, a write stores them and is done once it has been performed, an atomic stores its new value and answers with the old one (R367; its operators are log 95's); a management request of this device reads a register or has its write wait for its row, and before full mode SVC0 gives the error response. -/
def Obligations.HostRequests : Prop :=
  ∀ (s : State) (r : HostReq), s.pick = 0 → s.hostReqs = [r] →
    let pa := (r.addr.extractLsb' 0 48).toNat
    let done := fun (ok : Bool) (x : BitVec 2048) => { s with hostReqs := [], hostOut := s.hostOut ++ [⟨r.id, ok, x⟩] }
    (s.boot = .full → r.addr.extractLsb' 51 13 = 0 → (r.addr.extractLsb' 48 3).toNat = s.kdev % 8 → s.fbridge.getLsbD 3 = true → (s.fbridge.extractLsb' 0 3).toNat = s.kdev % 8 →
      Claims.inLine s pa r.len → s.invals = [] →
      (r.started = false → r.atomic = none → r.write = false → s.linePsn (pa / 64) = false →
        ∃ t, exec .hostRequest s = .next t ∧ t.hostReqs = [] ∧ t.hostOut = s.hostOut ++ [⟨r.id, true, BitVec.ofNat 2048 (readNat s.mem pa r.len)⟩] ∧ ∀ k, k < 0x100000000000 → readByte t.mem k = readByte s.mem k)
      ∧ (∀ f ∈ Claims.atomicTable, r.started = false → r.atomic = some f.1 → Claims.inLine s pa 8 → pa % 8 = 0 → s.linePsn (pa / 64) = false → s.l2At (pa / 64) = none → .lineBuffer ∉ s.errors →
          let old := readNat s.mem pa 8
          ∃ t, exec .hostRequest s = .next t ∧ t.hostReqs = [{ r with started := true, data := BitVec.ofNat 2048 old }] ∧ t.hostOut = s.hostOut ∧ Claims.stored s t pa 8 (f.2 old (r.data.toNat % 2 ^ 64)))
      ∧ (r.started = false → r.atomic = none → r.write = true → ∃ t, exec .hostRequest s = .next t ∧ t.hostReqs = [{ r with started := true }] ∧ t.hostOut = s.hostOut ∧ Claims.stored s t pa r.len r.data.toNat)
      ∧ (r.started = true → exec .hostRequest s = .next (done true (if r.atomic = none then 0 else r.data))))
    ∧ (r.addr.getLsbD 51 = true → r.started = false → r.atomic = none →
      (s.boot = .full → r.len = 8 → r.write = false → pa = 0xFF0000830008 → exec .managementRequest s = .next (done true (BitVec.ofNat 2048 (s.plim % 2 ^ 64))))
      ∧ (s.boot = .full → r.len = 8 → r.write = false → pa = 0xFF00008201D0 → exec .managementRequest s = .next (done true (BitVec.ofNat 2048 (s.kdev % 2 ^ 64))))
      ∧ (s.boot = .full → r.len = 8 → r.write = true → 0xFF0000000000 ≤ pa → pa % 8 = 0 →
          exec .managementRequest s = .next { s with
            hostReqs := [{ r with started := true }], ctlWrites := s.ctlWrites ++ [⟨pa, 8, r.data.setWidth 64, true, s.kdev, 0, 0, 0, r.id, false⟩] })
      ∧ (s.boot = .seedling → r.svc = 0 → exec .managementRequest s = .next (done false 0)))

/-- One of MECE's four 16-bit counts raised, no further than 65,535 (R417). -/
def Claims.counted (x : Word) (k : Nat) : Word := if (x.extractLsb' (16 * k) 16).toNat = 65535 then x else x + (1#64 <<< (16 * k))

/-- R409, R410, R417 and R423, with the memory error log off: UNCORRECTABLE_ERROR poisons the line at an address of an HBM channel (R277), the granule of a bank's row of a scratchpad (R291) or a scalar register, and drops a line of an L1; PATROL_READ poisons the line it finds; CORRECTABLE_ERROR only counts; a capacity port's link loss starts its retraining, which may end with the port as it was and a count, or after 100 ms with the port down, from which it can be restored. -/
def Obligations.ErrorEvents : Prop :=
  ∀ (s : State), s.pick = 0 → s.meEn = false →
    let s0 := { s with errors := [] }
    (∀ ch a asid, s.errors = [.hbm ch a asid] → let pa := hbmPa ch a
      pa < s.hbmQ * 192 * 2 ^ 30 → pa / 4096 ∉ s.dead →
      ∃ t, exec .uncorrectableError s = .next t ∧ exec .patrolRead s = .next t ∧ t = { s0 with memPsn := t.memPsn, meLost := s.meLost + 1 } ∧ ∀ l, l ∈ t.memPsn ↔ (l = pa / 64 ∨ l ∈ s.memPsn))
    ∧ (∀ ch a, ch < 384 → a < 2 ^ 40 → (2 * (hbmPa ch a / 4096 % 192) + hbmPa ch a / 256 % 2 = ch) ∧ hbmAddr (hbmPa ch a) = a)
    ∧ (∀ b row asid o, s.errors = [.scratch s.core.id b row asid] → s.core.offsetAt b row = some o →
      ∃ t, exec .uncorrectableError s = .next t ∧ t.core.pad = s.core.pad ∧ t.core.st = s.core.st ∧ t.mem = s.mem ∧ ∀ k, k ∈ t.core.padPsn ↔ (k = o / 64 ∨ k ∈ s.core.padPsn))
    ∧ (∀ g r (n : Fin 32), s.errors = [.reg g r n] → Claims.slotIs s g r → n ≠ 0 → s.core.st.marks[n] ≠ .pending → (∀ i, s.core.st.marks[n] ≠ .queued i) →
      exec .uncorrectableError s = .next (Claims.withSt s0 { s.core.st with marks := s.core.st.marks.set n .poisoned }))
    ∧ (∀ l, s.errors = [.l1Data s.core.id l] → exec .uncorrectableError s = .next { s0 with mece := Claims.counted s.mece 2, core := { s.core with l1 := s.core.l1.filter (fun x => x.line != l) } })
    ∧ exec .correctableError s = .next { s with mece := Claims.counted s.mece 0 }
    ∧ (∀ p r, s.ports = p :: r → 1 ≤ s.portsW →
      (p.up = true → p.down = false → exec .capacityLinkLoss s = .next { s with ports := ⟨false, some s.now, false⟩ :: r })
      ∧ (p.up = false → p.down = false → exec .capacityLinkRetrained s = .next { s with ports := ⟨true, none, false⟩ :: r, mece := Claims.counted s.mece 3 })
      ∧ (∀ t0, p.lostAt = some t0 → p.down = false → 300000000 ≤ s.now - t0 → exec .capacityPortDown s = .next { s with ports := { p with down := true } :: r, meLost := s.meLost + 1 })
      ∧ (p.down = true → exec .capacityPortRestored s = .next { s with ports := ⟨true, none, false⟩ :: r, meLost := s.meLost + 1 }))

/-- A core one point down, or up, the curve of R476: 10 mV, between 420 and 620. -/
def Claims.pointDown (k : Core) : Core := { k with mv := max 420 (k.mv - 10), mhz := 15 * max 420 (k.mv - 10) / 2 - 750 }
def Claims.pointUp (k : Core) : Core := { k with mv := min 620 (k.mv + 10), mhz := 15 * min 620 (k.mv + 10) / 2 - 750 }

/-- R220, R302, R390 and R391, for a strand without deferred causes. An instruction of the vector queue that enters it stands there last with the scalar state it carries, the register it will write awaits it, the pc goes on, and nothing else changes; behind 32 queued instructions the scalar unit stalls. A scalar ADD behind queued instructions commits at once, ahead of them, and after 64 such nothing does. A single queued instruction is performed by its own meaning on the state it carries and leaves the queue, the scalar state as the younger instructions have made it. What stops at the oldest queued instruction takes the strand back to its scalar state. -/
def Obligations.VectorQueue : Prop :=
  ∀ (s : State), s.core.st.deferred = [] →
    let t := s.core.st
    (∀ i u, s.enqueue i = some u → t.queue.length < 32 ∧ ∃ e, e.instr = i ∧ e.ctx = t.ctx ∧ e.held = [] ∧ u.core.st.queue = t.queue ++ [e] ∧ u.core.st.pc = t.pc + 4
        ∧ u.core.st.regs = t.regs ∧ u.core.st.v = t.v ∧ u.core.st.masks = t.masks ∧ u.core.st.acc = t.acc ∧ u.core.st.kstatus = t.kstatus ∧ u.core.pad = s.core.pad ∧ u.mem = s.mem
        ∧ (∀ d, scalarDest i = some d → d ≠ 0 → u.core.st.marks[d.toNat] = .queued e.id) ∧ (scalarDest i = none → u.core.st.marks = t.marks))
    ∧ (∀ i stay, t.queue.length = 32 → inQueue i = true → s.issueOne stay i = .next s)
    ∧ (∀ (d a b : BitVec 5) stay, t.queue ≠ [] → Claims.Clean s [d, a, b] →
        (t.ahead < 64 → ∃ u, s.issueOne stay (.add d a b) = .next u ∧ u = Claims.withSt s u.core.st ∧ u.core.st.pc = t.pc + 4 ∧ u.core.st.regs = (if d = 0 then t.regs else t.regs.set d.toNat (s.reg a + s.reg b))
            ∧ u.core.st.queue.map (fun e => (e.instr, e.ctx, e.held)) = t.queue.map (fun e => (e.instr, e.ctx, e.held)) ∧ u.core.st.ahead = t.ahead + 1
            ∧ u.core.st.v = t.v ∧ u.core.st.masks = t.masks ∧ u.core.st.acc = t.acc ∧ u.core.st.vl = t.vl ∧ u.core.st.kvtype = t.kvtype)
        ∧ (64 ≤ t.ahead → s.issueOne stay (.add d a b) = .next s))
    ∧ (∀ e w, t.queue = [e] → exec e.instr (s.modSt (fun t => t.issue e.ctx)) = .next w → w.left t = false → w.core.st.wait = .none → w.core.st.vq = none → w.core.st.pc = e.ctx.pc + 4 → s.overtakable e = none →
        ∃ u, s.runAlone e = .next u ∧ u.core.st.queue = [] ∧ u.core.st.pc = t.pc ∧ u.core.st.v = w.core.st.v ∧ u.core.st.masks = w.core.st.masks ∧ u.core.st.acc = w.core.st.acc
          ∧ u.core.pad = w.core.pad ∧ u.mem = w.mem ∧ (scalarDest e.instr = none → u.core.st.regs = t.regs ∧ u.core.st.marks = t.marks)
          ∧ u.core.st.kfctl = t.kfctl ||| (w.core.st.kfctl &&& ~~~e.ctx.kfctl))
    ∧ (∀ e r, t.queue = e :: r → let u := t.unwind
        u.queue = [] ∧ u.pc = e.ctx.pc ∧ u.regs = e.ctx.regs ∧ u.marks = e.ctx.marks ∧ u.vl = e.ctx.vl ∧ u.kvtype = e.ctx.kvtype ∧ u.klm = e.ctx.klm ∧ u.acc = t.acc
        ∧ (t.win < 2 → u.v = t.v ∧ u.masks = t.masks ∧ u.kfctl = e.ctx.kfctl)
        ∧ (∀ h, 2 ≤ t.win → t.hist = some h → u.v = h.v ∧ u.vpsn = h.vpsn ∧ u.masks = h.masks ∧ u.kfctl = h.kfctl ∧ u.resFirst = some t.row ∧ u.resN = t.win - 1))

/-- R102 to R129: a word that decodes to an instruction is that instruction's own word, and the word of a well-formed instruction decodes to it, with every operand: no bit of an encoding is dropped, and no two words are one instruction. -/
def Obligations.DecodeEncode : Prop :=
  (∀ (i : Instr) (w : IWord), WellFormed i = true → encode i = some w → decodeWord w = .instr i)
  ∧ (∀ (i : Instr) (w : IWord), decodeWord w = .instr i → WellFormed i = true ∧ encode i = some w)

/-- Some words whose encodings the spec writes out, one or more of each format, and words of an unassigned major opcode, of an unassigned function and with a field that must be zero. -/
def Obligations.DecodeWords : Prop :=
  decodeWord 0x02321400 = .instr (.add 3 4 5)
  ∧ decodeWord 0x0C4200BF = .instr (.srai 4 4 63)
  ∧ decodeWord 0x16780100 = .instr (.movk 7 2 0x100)
  ∧ decodeWord 0x1863A0CA = .instr (.fcmp 6 7 8 1 1)
  ∧ decodeWord 0x20600FFD = .instr (.beq 6 0 0xFFD)
  ∧ decodeWord 0x25FFFFC0 = .instr (.jal 0x1FFFFC0)
  ∧ decodeWord 0x32B12FFE = .instr (.stw 11 2 0xFFE)
  ∧ decodeWord 0x3863A120 = .instr (.amoadd 6 7 8 0 1 0 2)
  ∧ decodeWord 0x3A001FD2 = .instr (.fence 0x1F 0x1A 2)
  ∧ decodeWord 0x46408985 = .instr (.vfmaVV 4 1 2 3)
  ∧ decodeWord 0x60302054 = .instr (.vldxp 3 0 8 0 5 0)
  ∧ decodeWord 0x66252C66 = .instr (.tcmb 2 10 11 0 6)
  ∧ decodeWord 0x72052C00 = .instr (.await 0 10 11)
  ∧ decodeWord 0x80922403 = .instr (.mrd 2 1 4 9 0 0)
  ∧ decodeWord 0x00000000 = .illegal 0x01
  ∧ decodeWord 0x0232141A = .illegal 0x01
  ∧ decodeWord 0x02321480 = .illegal 0x02

/-- What follows a move (R359): packets that wait to be sent leave, as far as they may, which changes nothing but what the fabric holds; with none waiting, nothing changes. -/
def Claims.settled (o o' : Out) : Prop := (∀ t, o = .next t → ∃ u, o' = .next u ∧ u = { t with txq := u.txq, rx := u.rx, sent := u.sent, pairs := u.pairs, txFlits := u.txFlits, txBlocks := u.txBlocks, credit := u.credit } ∧ (t.txq = [] → u = t)) ∧ (∀ f, o = .fault f → o' = .fault f) ∧ (∀ r, o = .refused r → o' = .refused r)

/-- A step is the next move of the agenda (log 7, the model's schedule): the strand in the slot of the named core, with nothing in its vector queue, runs the instruction that the word at its pc decodes to, unless a deferred cause stands before it and the instruction has not begun (R429); the same with a vector instruction left in the queue (R302), or the vector unit takes its next step (R391); an event of the table is performed on its named occurrence; cycles pass; a core number of 288 or more and an encoded instruction named as an event fault. -/
def Obligations.StepRunsTheMove : Prop :=
  ∀ (s : State) (l : List Move),
    let s1 := { s with now := s.now + 1, agenda := l }
    (∀ c w x pa key miss i, s.agenda = .run c :: l → c < 288 → (s1.turnTo c).canIssue = true → (s1.turnTo c).fetch = .word w x pa key miss → decodeWord w = .instr i →
      let u := (s1.turnTo c).useCode x pa key miss
      u.core.st.queue = [] → u.core.st.out = [] → u.core.st.resN = 0 →
      (u.core.st.deferred = [] → Claims.settled (exec i u) (step s))
      ∧ (u.core.st.mayDefer = true → u.core.st.begun = false → u.failsEarly i = false → Claims.settled (exec .deferredTrap (Claims.withSt u { u.core.st with checked := true })) (step s))
      ∧ (u.core.st.mayDefer = true → u.core.st.begun = true → Claims.settled (exec i u) (step s)))
    ∧ (∀ c w x pa key miss i, s.agenda = .queue c :: l → c < 288 → (s1.turnTo c).canIssue = true → (s1.turnTo c).fetch = .word w x pa key miss → decodeWord w = .instr i →
      let u := (s1.turnTo c).useCode x pa key miss
      ∀ v, u.core.st.deferred = [] → u.core.st.out = [] → inQueue i = true → u.enqueue i = some v → Claims.settled (.next v) (step s))
    ∧ (∀ c n, s.agenda = .vector c n :: l → c < 288 → Claims.settled ((s1.turnTo c).runVector n State.scalarStuck) (step s))
    ∧ (∀ i k, s.agenda = .event i k :: l → encode i = none → Claims.settled (exec i { s1 with pick := k }) (step s))
    ∧ (∀ n, s.agenda = .pass n :: l → step s = .next { s1 with now := s.now + 1 + n })
    ∧ (∀ c n, s.agenda = .run c :: l ∨ s.agenda = .queue c :: l ∨ s.agenda = .vector c n :: l → 288 ≤ c → step s = .fault .noSuchCore)
    ∧ (∀ i k w, s.agenda = .event i k :: l → encode i = some w → step s = .fault .notAnEvent)

/-- No instruction and no event ever stops the machine, in any state: every meaning answers a next state. A step faults only for an agenda that names no core of the device or names an encoded instruction as an event (log 7), and is never refused. -/
def Obligations.NeverStops : Prop :=
  (∀ (i : Instr) (s : State), goesOn (exec i s))
  ∧ ∀ (s : State), (∀ c n l, s.agenda = .run c :: l ∨ s.agenda = .queue c :: l ∨ s.agenda = .vector c n :: l → c < 288) → (∀ i k l, s.agenda = .event i k :: l → encode i = none) → goesOn (step s)

/-- The memories of the device, of its capacity devices and of every core's scratchpad keep their canonical form (log 2) through every step, whatever the state and the move. -/
def Obligations.StepKeepsMemoryForm : Prop := ∀ (s t : State), s.Inv → step s = .next t → t.Inv

/-- After reset (R271, R348, R417, R449 to R451, R471 to R474, R476): memories in canonical form, the cores and queues not started, KDEV 0, no plane degraded or failed, BOOTSTAT and the log's and ring's enables 0, PLIM at 2,400, cores at 500 mV and 3,000 MHz. That memory lists nothing, and the boot record that waits, are the model's choices (logs 2 and 5). -/
def Obligations.ResetState : Prop :=
  State.reset.Inv ∧ State.reset.mem = [] ∧ State.reset.boot = .powerGood ∧ State.reset.stage = 0 ∧ State.reset.fail = 0 ∧ State.reset.kdev = 0 ∧ State.reset.plim = 2400
  ∧ (∀ p ∈ State.reset.planes, p.state = 0 ∧ p.score1 = 0 ∧ p.score0 = 0) ∧ State.reset.planes.length = 36 ∧ State.reset.quiesce = false ∧ State.reset.fbridge = 0
  ∧ State.reset.meEn = false ∧ State.reset.hmEn = false ∧ State.reset.keys = [] ∧ State.reset.measure = 0 ∧ State.reset.dead = []
  ∧ (∀ q, (State.reset.queue q).en = false) ∧ (∀ c, (State.reset.coreAt c).mv = 500 ∧ (State.reset.coreAt c).mhz = 3000 ∧ (State.reset.coreAt c).st.status = .none)

/-- R142 to R144: every scalar ALU instruction writes its result to s[d] (s0 discards) and changes nothing else: three-register forms, bit counts, immediates, and the constants of MOVW, ADRP and MOVK. -/
def Obligations.ScalarIntegerResults : Prop := Claims.scalarAluResults ∧ Claims.scalarBitCounts ∧ Claims.scalarImmediateResults ∧ Claims.constantResults

/-- R145 to R149 and R412, with R90, R91, R93 and R100: the scalar FP instructions complete with the results and the flags of the model's operations, and change nothing else; FCLASS sets one bit, FCMP writes 0 or 1; and what those operations give where nothing is rounded: NaNs, infinities, zeros with their signs, minima and maxima. What is rounded is FpRounding's. The model's choices in this statement: x − y as x + (−y) for the sign of a zero difference (log 78, DEDUCED), OF and tininess as R92 has them (logs 19 and 77, DEDUCED), and that FADD and the like read KFCTL, so that an error in it traps (log 82, DEDUCED). -/
def Obligations.ScalarFpResults : Prop :=
  Claims.scalarFpCompletes ∧ Claims.fcvtCompletes ∧ Claims.fclassOneHot ∧ Claims.fcmpResults ∧ Claims.arithmeticSpecials ∧ Claims.conversionSpecials

/-- R88, R89, R92, R93, R96 and R97: every arithmetic operation and conversion that rounds gives the exact real result rounded once in its mode, with OF, UF and NX as R92's table says. The operations of scalar and vector instructions (O5, O20, O21) and the updates of the matrix unit (O28) are these. OF looks at the rounded magnitude, and tininess is judged after rounding (logs 77 and 19, the model's readings of R92); the zero of an exact sum of more than two terms is log 81's. -/
def Obligations.FpRounding : Prop := Claims.arithmeticRounds ∧ Claims.conversionsRound ∧ Claims.dotProductsRound

/-- R150, R151 and R152: branches, JAL and JALR, with every outcome. -/
def Obligations.BranchAndJump : Prop := Claims.branchTargets ∧ Claims.jalrTargets

/-- What an operand mark does to a scalar instruction, what the checks before a vector instruction do (R42, R80, R430, R400), and misaligned accesses, accesses without a translation or a permission, and accesses that a watch register matches (R69, R155, R160, R257, R272, R420). -/
def Obligations.ChecksBeforeEffects : Prop := Claims.operandMarks ∧ Claims.vectorFrontChecks ∧ Claims.misalignedTraps ∧ Claims.accessTraps

/-- R259 to R262, R390, R392, R402, R403 and R412, in four parts. BRK and CALLK trap at their own pc with causes 0x0B and 0x20, the trapped value their zero-extended field; CALLK goes to the supervisor handler from either mode, and a BRK in K mode is contained. ERET, with no error in the registers it reads, completes: in K mode it goes to KEPC with bits [1:0] taken as 0 and moves PM to M; in a user handler it goes to KUEPC and clears UIN; the named group is where the resumed instruction starts, the depth says how many after it do, and the watch pass is armed exactly when the cause was 0x0A; with an error in one of them it traps with 0x09. In user mode every TLBINV, and ERET outside a handler, traps with 0x03; so do KRD and KWR of a supervisor register, and with 0x02 in either mode KRD and KWR of a number that R70 does not list. ILLEGAL_ENCODING and FETCH_FAULT, for a strand that may issue and has nothing queued: a word that selects no instruction traps with the cause that decoding gives it, KEVAL 0; a fetch that fails traps with its cause and KEVAL the pc; where neither stands at the pc, or older instructions are still queued, both rows do nothing. -/
def Obligations.TrapsAndReturns : Prop :=
  (∀ (s : State) (ku ks : Word) (n : BitVec 12), Claims.Handlers s ku ks →
    exec (.brk n) s = .next (Claims.trapped s ku ks 0x0B (n.setWidth 64) 0 0 none)
    ∧ exec (.callk n) s = .next (Claims.trapped s ku ks 0x20 (n.setWidth 64) 0 0 none)
    ∧ (ks ≠ 0 → exec (.callk n) s = .next (Claims.withSt s (Claims.atSuper s.core.st ks 0x20 (n.setWidth 64) 0 0)))
    ∧ (s.core.st.kstatus.getLsbD 0 = true → exec (.brk n) s = .next { s with
        core := { s.core with st := Strand.empty, phase := .idle, freeFrom := s.now
                              rest := s.core.rest ++ [{ s.core.st with status := .stopped, watchPass := false, prog := none }] }
        contains := s.contains ++ [⟨s.core.st.gang, s.core.st.rank, 0x0B, n.setWidth 64, 0, 0, none⟩] }))
  ∧ (∀ (s : State) (r : TrapRegs),
    let t := s.core.st
    let back := fun (k : Word) => Claims.withSt s { t with
      pc := r.epc &&& ~~~3#55, kstatus := k, resFirst := some r.egrp.toNat, resG := r.egrp.toNat, resN := r.depth, watchPass := r.cause == 0x0A }
    (t.kstatus.getLsbD 0 = true → Claims.kSound s [0x100, 0x101, 0x102, 0x103] → r = t.super → exec .eret s = .next (back ((t.kstatus &&& ~~~1#64) ||| ((t.kstatus >>> 1) &&& 1))))
    ∧ (t.kstatus.getLsbD 0 = false → t.kstatus.getLsbD 2 = true → Claims.kSound s [0x100, 0x10, 0x11, 0x12] → r = t.user → exec .eret s = .next (back (t.kstatus &&& ~~~4#64)))
    ∧ ((t.kstatus.getLsbD 0 = true ∧ ¬ Claims.kSound s [0x100, 0x101, 0x102, 0x103]) ∨ (t.kstatus.getLsbD 0 = false ∧ t.kstatus.getLsbD 2 = true ∧ ¬ Claims.kSound s [0x100, 0x10, 0x11, 0x12]) →
      exec .eret s = .next (s.trap 0x09 0 0)))
  ∧ (∀ (s : State) (d a : BitVec 5) (k : BitVec 12), s.core.st.kstatus.getLsbD 0 = false →
    exec .tlbinvAll s = .next (s.trap 0x03 0 0)
    ∧ exec (.tlbinvAsid d) s = .next (s.trap 0x03 0 0)
    ∧ exec (.tlbinvPage d a) s = .next (s.trap 0x03 0 0)
    ∧ (s.core.st.kstatus.getLsbD 2 = false → exec .eret s = .next (s.trap 0x03 0 0))
    ∧ (k.toNat ∈ [0x100, 0x101, 0x102, 0x103, 0x104, 0x105, 0x106, 0x110, 0x111, 0x112] →
        exec (.krd d k) s = .next (s.trap 0x03 0 0) ∧ exec (.kwr a k) s = .next (s.trap 0x03 0 0))
    ∧ (k.toNat = 0 ∨ k.toNat = 6 ∨ k.toNat = 7 ∨ (0x107 ≤ k.toNat ∧ k.toNat < 0x110) ∨ (0x15 ≤ k.toNat ∧ k.toNat < 0x40) ∨ (0x60 ≤ k.toNat ∧ k.toNat < 0x100) ∨ 0x113 ≤ k.toNat →
        exec (.krd d k) s = .next (s.trap 0x02 0 0) ∧ exec (.kwr a k) s = .next (s.trap 0x02 0 0)))
  ∧ (∀ (s : State), s.canIssue = true →
    (¬ (s.core.st.queue = [] ∧ s.core.st.out = []) → exec .illegalEncoding s = .next s ∧ exec .fetchFault s = .next s)
    ∧ (s.core.st.queue = [] → s.core.st.out = [] →
    (∀ w x pa key miss c, s.fetch = .word w x pa key miss → decodeWord w = .illegal c →
      exec .illegalEncoding s = .next (s.trapAt c 0 0 0 none) ∧ exec .fetchFault s = .next s)
    ∧ (∀ c g, s.fetch = .fault c g → exec .fetchFault s = .next ((s.faultCode c).trapAt c (s.core.st.pc.setWidth 64) 0 0 g) ∧ exec .illegalEncoding s = .next s)
    ∧ (∀ w x pa key miss i, s.fetch = .word w x pa key miss → decodeWord w = .instr i → exec .illegalEncoding s = .next s ∧ exec .fetchFault s = .next s)))

/-- R62, R68, R71, R256, R263 and R412, in three parts. KWR of a register that the mode may reach completes: of KFCTL, KSR, KLM, KSCRATCH, KSTATUS, the trap registers and the watch registers it writes the defined bits, M of KSTATUS kept and HIT of a watch register cleared by a 1, and ends an error in it; a write of a saved pc or group also drops the resume depth that the trap left (R392); of a read-only register (KVL, KVTYPE, KSTRAND to KBUDGET) it changes nothing, an error in it included; every other register is unchanged. KWR of KUTVEC, KSTVEC, KASID, KPTBASE or KFREC writes the gang's register, for every strand of the gang, in its defined bits, and leaves every other gang, but that KASID may pass a binding on (log 101). WSET completes by loading a watch register whole from four registers, reserved bits left zero and HIT cleared; WCLR by clearing it whole; both end an error in its four K-registers, and change nothing else. -/
def Obligations.KregisterWrites : Prop :=
  (∀ (s : State) (a : BitVec 5) (k : BitVec 12), Claims.kReach s k.toNat → Claims.Clean s [a] →
    let v := s.reg a
    let t := { s.core.st with badK := s.core.st.badK.filter (· != k.toNat) }
    (∃ s', exec (.kwr a k) s = .next s')
    ∧ (k = 0x001 → exec (.kwr a k) s = .next (Claims.withSt s (Claims.stepped { t with kfctl := v &&& 0x1F3 })))
    ∧ (k = 0x002 → exec (.kwr a k) s = .next (Claims.withSt s (Claims.stepped { t with ksr := v &&& 0xFFFFFFFF })))
    ∧ (k = 0x003 → exec (.kwr a k) s = .next (Claims.withSt s (Claims.stepped { t with klm := v &&& 0xFFFFFFFFFFFF })))
    ∧ (k = 0x106 → exec (.kwr a k) s = .next (Claims.withSt s (Claims.stepped { t with kscratch := v })))
    ∧ (k = 0x100 → exec (.kwr a k) s = .next (Claims.withSt s (Claims.stepped { t with kstatus := (t.kstatus &&& 1) ||| (v &&& 6) })))
    ∧ (let trap := fun (x : TrapRegs) (n : Nat) => if n = 0 then { x with cause := v.setWidth 8 } else if n = 1 then { x with epc := v.setWidth 55, depth := 0 }
          else if n = 2 then { x with egrp := v.setWidth 4, depth := 0 } else { x with eval := v }
       ∀ n : Fin 4, (k.toNat = 0x10 + n → exec (.kwr a k) s = .next (Claims.withSt s (Claims.stepped { t with user := trap t.user n })))
          ∧ (k.toNat = 0x101 + n → exec (.kwr a k) s = .next (Claims.withSt s (Claims.stepped { t with super := trap t.super n }))))
    ∧ (∀ (w : Fin 8) (n : Fin 4), k.toNat = 0x40 + 4 * w + n →
        let x := t.watch[w]
        let y := if n = 0 then { x with ctl := (v &&& 0xF) ||| (x.ctl &&& 16 &&& ~~~v) } else if n = 1 then { x with base := v &&& 0x7FFFFFFFFFFFFF }
          else if n = 2 then { x with lim := v &&& 0x7FFFFFFFFFFFFF } else { x with str := v &&& 0xFFFFFFFFFFFFFF }
        exec (.kwr a k) s = .next (Claims.withSt s (Claims.stepped { t with watch := t.watch.set w y })))
    ∧ (k.toNat = 4 ∨ k.toNat = 5 ∨ (8 ≤ k.toNat ∧ k.toNat ≤ 0xF) → exec (.kwr a k) s = .next (Claims.withSt s (Claims.stepped s.core.st))))
  ∧ (∀ (s : State) (a : BitVec 5) (k : BitVec 12) (g : Gang), Claims.kReach s k.toNat → Claims.Clean s [a] → g ∈ s.gangs →
    k.toNat ∈ [0x014, 0x105, 0x110, 0x111, 0x112] →
    ∃ s', exec (.kwr a k) s = .next s' ∧ s'.mem = s.mem ∧
      (g.id ≠ s.core.st.gang → ∃ h ∈ s'.gangs, h = { g with bound := h.bound } ∧ (k ≠ 0x110 → h = g)) ∧
      (g.id = s.core.st.gang → ∃ h ∈ s'.gangs, h.id = g.id ∧ h.task = g.task ∧ h.cores = g.cores
        ∧ h.kutvec = (if k = 0x014 then s.reg a &&& 0x7FFFFFFFFFFFFC else g.kutvec)
        ∧ h.kstvec = (if k = 0x105 then s.reg a &&& 0x7FFFFFFFFFFFFC else g.kstvec)
        ∧ h.kasid = (if k = 0x110 then (s.reg a).toNat % 2 ^ 16 else g.kasid)
        ∧ h.kptbase = (if k = 0x111 then (s.reg a).toNat % 2 ^ 48 / 2 ^ 16 * 2 ^ 16 else g.kptbase)
        ∧ h.kfrec = (if k = 0x112 then (s.reg a).toNat % 2 ^ 48 / 2 ^ 7 * 2 ^ 7 else g.kfrec)))
  ∧ (∀ (s : State) (n : BitVec 3) (a : BitVec 5), Claims.Clean s [a, a + 1, a + 2, a + 3] →
    let w := Watch.mk (s.reg a &&& 0xF) (s.reg (a + 1) &&& 0x7FFFFFFFFFFFFF) (s.reg (a + 2) &&& 0x7FFFFFFFFFFFFF) (s.reg (a + 3) &&& 0xFFFFFFFFFFFFFF)
    let t := { s.core.st with badK := s.core.st.badK.filter (fun k => !(0x40 + 4 * n.toNat ≤ k && k ≤ 0x43 + 4 * n.toNat)) }
    exec (.wset n a) s = .next (Claims.withSt s (Claims.stepped { t with watch := t.watch.set n.toNat w }))
    ∧ exec (.wclr n) s = .next (Claims.withSt s (Claims.stepped { t with watch := t.watch.set n.toNat (Watch.mk 0 0 0 0) })))

/-- R174 and R175: SETVL, SETVLI and LIVE. -/
def Obligations.VectorConfiguration : Prop := Claims.setvlConfigures ∧ Claims.liveSetLoads

/-- R61, R65, R79 and R245: the frames of vector, mask and matrix instructions. -/
def Obligations.VectorStateWrites : Prop := Claims.vectorRegisterWrites ∧ Claims.maskRegisterWrites ∧ Claims.accumulatorWrites

/-- R176, R177 and R191: vector integer results, merges and carry-less products. -/
def Obligations.VectorIntegerArithmetic : Prop := Claims.vectorIntegerResults ∧ Claims.vectorMergeAndClmul

/-- R181, R182, R183, R65, R171 and R412. VCMP_VV, VCMP_VS, VFCMP_VV and VFCMP_VS complete where no active source is poisoned: they write, for each active element, the condition's bit into md, the FP ones set NV as R182's table says, and nothing else changes; at a poisoned active source they trap with 0x09 at that element's group, the groups below written. MAND, MOR and MXOR complete and write the active bits of md; MPOPC counts and MFIRST finds the set active bits (all ones where there is none); MTOV packs the bits of a mask below VL into elements; each traps with 0x09 where an error has struck a mask it reads. VTOM unpacks elements into the active bits, or traps at a poisoned one. -/
def Obligations.ComparesAndMasks : Prop :=
  (∀ (s : State) (d : BitVec 3) (a b : BitVec 5) (m c : BitVec 3) (vs : Bool), Claims.VReady s [m] → c.toNat ≤ 5 → s.core.st.kvtype.toNat % 8 ≤ 3 → (vs = true → Claims.Clean s [b]) →
    let y := fun i => if vs then (s.reg b).toNat % 2 ^ s.sewBits else s.el b s.w i
    let bad := fun i => s.elPsn a s.w i || (!vs && s.elPsn b s.w i)
    let es := Claims.els s m
    let writes := fun (i : Instr) (put : List Nat → State) =>
      (es.all (fun i => !bad i) = true → exec i s = .next (put es))
      ∧ ∀ k, es.find? bad = some k → ∃ t, exec i s = .next (State.trap t 0x09 (BitVec.ofNat 64 k) (k * s.w / 256))
          ∧ t.finishQ = put (es.filter (fun j => decide (j * s.w / 256 < k * s.w / 256))) ∧ t.core.st.pc = s.core.st.pc
    (Claims.etInts s → writes (if vs then .vcmpVS d a b m c else .vcmpVV d a b m c)
      (fun l => Claims.mWrote s d (l.map (fun i => (i, Claims.icond c.toNat s.sewBits (s.el a s.w i) (y i)))) 0))
    ∧ (∀ F, fmtOf s.et = some F → Claims.etFps s →
      let r := fun i => Claims.fcond F c.toNat (s.el a s.w i) (y i)
      writes (if vs then .vfcmpVS d a b m c else .vfcmpVV d a b m c)
        (fun l => Claims.mWrote s d (l.map (fun i => (i, (r i).1))) (Claims.flagsOf (l.map (fun i => (0, (r i).2)))))))
  ∧ (∀ (s : State) (d a b m : BitVec 3) (r : BitVec 5), Claims.VReady s [m] →
    let lost := fun (x : BitVec 3) => s.core.st.badMasks.getLsbD x.toNat
    let on := Claims.act s m
    let n := s.sewBits
    (lost a = false → lost b = false →
      exec (.mand d a b m) s = .next (Claims.mWrote s d (on.map (fun i => (i, Claims.mbit s a i && Claims.mbit s b i))) 0)
      ∧ exec (.mor d a b m) s = .next (Claims.mWrote s d (on.map (fun i => (i, Claims.mbit s a i || Claims.mbit s b i))) 0)
      ∧ exec (.mxor d a b m) s = .next (Claims.mWrote s d (on.map (fun i => (i, Claims.mbit s a i != Claims.mbit s b i))) 0))
    ∧ (lost a = false →
      exec (.mpopc r a m) s = .next (Claims.qWrote s r (BitVec.ofNat 64 (on.countP (Claims.mbit s a))))
      ∧ exec (.mfirst r a m) s = .next (Claims.qWrote s r (match on.find? (Claims.mbit s a) with | some i => BitVec.ofNat 64 i | none => -1))
      ∧ (∃ f : Nat → Nat, exec (.mtov r a m) s = .next (Claims.vWrote s r ((on.filter (fun i => decide (i * n < s.core.st.vl))).map (fun i => ⟨i * s.w, s.w, f i, false⟩)) 0)
          ∧ ∀ i k, k < n → (f i).testBit k = (decide (i * n + k < s.core.st.vl) && Claims.mbit s a (i * n + k))))
    ∧ (lost a = true → ∀ i ∈ [Instr.mand d a b m, .mor d a b m, .mxor d a b m, .mand d b a m, .mor d b a m, .mxor d b a m, .mpopc r a m, .mfirst r a m, .mtov r a m],
        exec i s = .next (s.trap 0x09 0 0))
    ∧ ((∀ i ∈ on, s.elPsn r s.w (i / n) = false) →
        exec (.vtom d r m) s = .next (Claims.mWrote s d (on.map (fun i => (i, (s.el r s.w (i / n)).testBit (i % n)))) 0))
    ∧ (∀ k, on.find? (fun i => s.elPsn r s.w (i / n)) = some k → exec (.vtom d r m) s = .next (s.trap 0x09 (BitVec.ofNat 64 (k / n)) 0)))

/-- R98, R99 and R184 to R190: permutations, reductions and scans, integer and floating point, and empty ones. What FP addition gives is ScalarFpResults' and FpRounding's. -/
def Obligations.PermutationsAndReductions : Prop := Claims.permutations ∧ Claims.integerReductions ∧ Claims.fpReductions ∧ Claims.emptyReductions

/-- R39 and R223 to R228: token instructions, AWAIT and YIELD. -/
def Obligations.TokensAndWaits : Prop := Claims.tokenInstructions ∧ Claims.awaitAndYield

/-- R264, R265, R266 and R290. TLBINV_ALL, TLBINV_ASID and TLBINV_PAGE in K mode, with no access on the device unfinished, take every named translation out of every TLB and both hub caches, and complete; others stay. MDEAD of a page of flat HBM that the TLB maps and that may be written completes: every byte of it reads as zero and every other byte as before; of no bytes it only completes; a base or length that is no multiple of 64 KiB traps with 0x05. SFLUSH with an empty store buffer completes: every line of the scalar L1 is dropped (s0), or the line of s[a] alone. -/
def Obligations.SystemMaintenance : Prop :=
  (∀ (s : State) (d a : BitVec 5), s.core.st.kstatus.getLsbD 0 = true → Claims.Clean s [d, a] → Claims.Quiet s → (∀ k ∈ s.others, k.sb = [] ∧ k.st.queue = [] ∧ k.st.out = []) → (∀ k ∈ s.core :: s.others, ∀ t ∈ k.st :: k.rest, t.prog = none) →
    let asid := ((s.reg d).extractLsb' 0 16).toNat
    let va := (s.reg a).toNat
    (∃ t, exec .tlbinvAll s = .next t ∧ Claims.keeps (fun _ => true) s t)
    ∧ (∃ t, exec (.tlbinvAsid d) s = .next t ∧ Claims.keeps (fun x => x.asid == asid) s t)
    ∧ (∃ t, exec (.tlbinvPage d a) s = .next t ∧ Claims.keeps (fun x => x.asid == asid && x.page == (if x.big then va / 2 ^ 29 else va / 2 ^ 16)) s t))
  ∧ (∀ (s : State) (d a : BitVec 5), Claims.Clean s [a, d] → Claims.Quiet s →
    ((s.reg a).toNat % 65536 = 0 → s.reg d = 0 → exec (.mdead d a) s = .next (Claims.withSt s (Claims.stepped s.core.st)))
    ∧ ((s.reg a).toNat % 65536 ≠ 0 ∨ (s.reg d).toNat % 65536 ≠ 0 → exec (.mdead d a) s = .next (s.trap 0x05 (s.reg a) 0))
    ∧ (∀ pa key x, s.xlate (s.reg a) 65536 = .at (.slice pa key) x → x ∈ s.core.tlb → x.capacity = false → x.w = true →
        (s.core.st.kstatus.getLsbD 0 = true ∨ x.u = true) → (s.reg a).toNat % 65536 = 0 → (s.reg d).toNat = 65536 →
        ∃ t, exec (.mdead d a) s = .next t ∧ t.core.st = Claims.stepped s.core.st
          ∧ (∀ k, pa ≤ k → k < pa + 65536 → readByte t.mem k = 0)
          ∧ (∀ k, k < pa ∨ pa + 65536 ≤ k → readByte t.mem k = readByte s.mem k)
          ∧ (∀ j, j < 16 → pa / 4096 + j ∈ t.dead) ∧ (∀ j ∈ s.dead, j ∈ t.dead))
    ∧ (∃ t, exec (.sflush 0) s = .next t ∧ t.core.l1 = [] ∧ t.core.st = Claims.stepped s.core.st ∧ t.mem = s.mem ∧ t.core.icache = s.core.icache)
    ∧ (∀ pa key x, s.xlate (s.reg a) 1 = .at (.slice pa key) x → x ∈ s.core.tlb → a ≠ 0 →
        ∃ t, exec (.sflush a) s = .next t ∧ t.core.l1 = s.core.l1.filter (fun l => l.line != pa / 64 + 2 ^ 48 * key)
          ∧ t.core.st = Claims.stepped s.core.st ∧ t.mem = s.mem ∧ t.core.icache = s.core.icache))

/-- R39, R41, R46, R48, R340, R390, R391, R415 and R429, for the core in turn, in two parts. Where it is idle, none of its strands is being saved and some are Runnable, CONTEXT_SAVE_END begins to restore one of them, than which none comes earlier in the selector's order; it holds the slot from now. CONTEXT_SAVE_END ends a save, and a strand whose wait was satisfied meanwhile is Runnable from then; CONTEXT_RESTORE_END puts the restored strand to work, with what its suspension did not keep at zero, or asks for containment where its header is lost; AGEING raises a boost after 4,096 cycles; ISSUE_ROTATION takes the strand out whole, at its oldest queued instruction where it has one; GROUP_ROLLBACK first drops what a group has waited for too long; DEFERRED_TRAP takes the oldest deferred cause of a strand in user mode, where the next instruction has passed the checks before it (R400). -/
def Obligations.SlotAndSelector : Prop :=
  (∀ (s : State), s.pick = 0 → s.core.phase = .idle → s.core.st.status = .none → (∀ v ∈ s.core.rest, v.saving = false) → (∃ v, Claims.runnable s v) →
    ∃ t u im, exec .contextSaveEnd s = .next t ∧ Claims.runnable s u ∧ t.core.st = { u with image := im } ∧ (∃ till, s.now < till ∧ t.core.phase = .restoring till) ∧ t.core.slotFrom = s.now
      ∧ (∀ v, Claims.runnable s v → Claims.before s u v) ∧ t.mem = s.mem ∧ t.core.pad = s.core.pad ∧ t.gangs = s.gangs)
  ∧ (∀ (s : State), s.pick = 0 →
    let t := s.core.st
    (∀ till, s.core.phase = .saving till → till ≤ s.now →
      ((∀ v ∈ s.core.rest, v.status ≠ .runnable ∧ v.saving = false) → exec .contextSaveEnd s = .next { s with core := { s.core with phase := .idle } })
      ∧ (∀ v, s.core.rest = [v] → v.saving = true → v.status = .waiting → v.wait = .none → (∀ g, s.gang? v.gang = some g → g.state ≠ .parking) →
        ∃ u, exec .contextSaveEnd s = .next u ∧ u.core.st.status = .runnable ∧ u.core.st.readyAt = s.now ∧ u.core.st.saving = false ∧ Claims.sameRegs u.core.st v
          ∧ u.core.rest = [] ∧ u.core.slotFrom = s.now ∧ ∃ r, s.now < r ∧ u.core.phase = .restoring r))
    ∧ (∀ till, s.core.phase = .restoring till → till ≤ s.now →
        (t.image.bad = none → ∃ u, exec .contextRestoreEnd s = .next u ∧ u.core.phase = .run ∧ u.core.slotFrom = s.core.slotFrom ∧ u.mem = s.mem
          ∧ (t.zeroing = false → u.core.st = { t with status := .running, boost := 0, image := Image.none })
          ∧ (t.zeroing = true → t.inPlace = false → u.core.st.status = .running ∧ u.core.st.regs = t.regs ∧ u.core.st.pc = t.pc ∧ u.core.st.vl = t.vl ∧ u.core.st.kvtype = t.kvtype ∧ u.core.st.kfctl = t.kfctl
              ∧ u.core.st.kstatus = 0 ∧ u.core.st.kscratch = 0 ∧ u.core.st.user = TrapRegs.zero ∧ u.core.st.super = TrapRegs.zero ∧ u.core.st.wait = .none
              ∧ (∀ i : Fin 32, t.live.getLsbD i = false → u.core.st.v[i] = 0 ∧ u.core.st.vpsn[i] = 0)
              ∧ (∀ i : Fin 8, t.live.getLsbD (32 + i) = false → u.core.st.masks[i] = 0)
              ∧ (∀ i : Fin 8, u.core.st.acc[i] = if t.live.getLsbD (40 + i) then t.acc[i] else 0)
              ∧ (∀ i : Fin 8, t.live.getLsbD (32 + i) = true → ∀ k, (u.core.st.masks[i]).getLsbD k = (decide (k < t.vl) && (t.masks[i]).getLsbD k))
              ∧ (∀ i : Fin 32, t.live.getLsbD i = true → ∀ k, k < 4096 → vGet u.core.st.v[i] k 1 = if k < t.vl * s.w then vGet t.v[i] k 1 else 0)))
        ∧ (∀ off, t.image.bad = some off → ∃ u a, exec .contextRestoreEnd s = .next u ∧ u.core.st = Strand.empty ∧ u.core.phase = .idle ∧ u.core.rest = s.core.rest ++ [{ t with status := .stopped }]
            ∧ u.contains = s.contains ++ [⟨t.gang, t.rank, 0x09, 0, 0, 0, some a⟩] ∧ ∀ b, s.imageAddr s.core.id t off = some b → a = b))
    ∧ (∀ v, s.core.phase = .run → t.status = .running → s.core.rest = [v] → v.status = .runnable → ¬ (v.gang = t.gang ∧ v.rank = t.rank) → 4096 ≤ s.now - v.agedAt →
        exec .ageing s = .next { s with core := { s.core with rest := [{ v with boost := v.boost + 1, agedAt := v.agedAt + 4096 }] } })
    ∧ (Claims.rotationWanted s → t.out = [] → t.inGroup = false → ∃ u x, exec .issueRotation s = .next u ∧ u.core.st = Strand.empty ∧ (∃ till, s.now < till ∧ u.core.phase = .saving till)
        ∧ u.core.rest = s.core.rest ++ [x] ∧ x.status = .runnable ∧ x.zeroing = false ∧ x.readyAt = s.now ∧ x.boost = 0 ∧ x.queue = []
        ∧ (t.queue = [] → x.pc = t.pc ∧ Claims.sameRegs x t)
        ∧ (∀ e r, t.queue = e :: r → x.pc = e.ctx.pc ∧ x.regs = e.ctx.regs ∧ x.marks = e.ctx.marks ∧ x.vl = e.ctx.vl ∧ x.kvtype = e.ctx.kvtype ∧ x.kstatus = t.kstatus)
        ∧ (∀ im, s.findRoom s.core t t.fullBytes = some im → im.saveKiB = 0 → u.mem = s.mem))
    ∧ (∀ r i n, Claims.rotationWanted s → t.queue = [] → t.asked = true → r ∈ s.reqs → r.gang = t.gang → r.rank = t.rank → r.kind = .vec i n → 4096 ≤ s.now - t.askedAt → (∀ a ∈ t.answers, a.status ≠ 9) →
        ∃ u, exec .groupRollback s = .next u ∧ u.core = { s.core with st := { t with prog := t.prog.map (fun p => { p with els := [], trim := none }), answers := [], asked := false } }
          ∧ u.mem = s.mem ∧ u.reqs.length = s.reqs.length
          ∧ ∀ q ∈ u.reqs, q.gang = t.gang → q.rank = t.rank → ∀ j m, q.kind ≠ .vec j m)
    ∧ (∀ d r, t.status = .running → Claims.boundary t → t.wait = .none → t.deferred = d :: r → t.kstatus.getLsbD 0 = false → t.kstatus.getLsbD 2 = false → t.resFirst = none → t.resN = 0 → t.checked = true →
        exec .deferredTrap s = .next ((Claims.withSt s { t with deferred := r, checked := false }).trapAt d.cause d.eval 0 0 none)))

/-- R285, R471 to R474 and R476 to R478, in two parts. POWER_GOOD clears the measurement, and only firmware that the vendor's key signed with its record, and no older than the fuses, reaches seedling mode (the digest's message is log 5's choice); CONFIGURATION takes HBM mode, cellar size and ports from the record (R283, R286, R293); MEMORY_TRAINING leaves no frame valid and no granule dead, or fails; FULL_MODE releases the cores under KDEV 0; each stage extends the measurement and its log. QUOTE signs the measurement with a nonce and KDEV (its low byte first, log 9's choice). OPERATING_POINT_MOVE moves one core one point, an up move only while none is withheld; POWER_WINDOW takes a new average power, above PLIM every core goes down where no gang balances and up moves are withheld until the average is 50 W below PLIM, a core's return to 0.50 V among them (log 100's choice); THERMAL_THROTTLE takes a new temperature, and every core goes down from 95 until 90 degrees, and again each 100 microseconds; THERMAL_TRIP at 110 degrees removes the core rail and fails with FAIL 4; POWER_LOSS loses memory and keeps the capacity devices and the fuses. What the environment brings (power, temperature) is log 8's. -/
def Obligations.BringUpAndPower : Prop :=
  (∀ (s : State),
    let r := s.record
    let ext := fun (m d : BitVec 256) => sm3 64 (m.toNat * 2 ^ 256 + d.toNat)
    let next := fun (u : State) (k : Nat) => { u with measure := ext s.measure (Config.stageDigest k), mlog := s.mlog ++ [Config.stageDigest k] }
    let failed := fun (u : State) (why : Nat) => { u with boot := .failed, stage := 3, fail := why }
    let le := fun (n v : Nat) => (List.range n).foldl (fun x i => x * 256 + v / 256 ^ i % 256) 0
    let whole := ((((r.image % 256 ^ r.imageLen) * 256 ^ 8 + le 8 r.version) * 256 + le 1 r.q) * 256 ^ 2 + le 2 r.cs) * 256 + le 1 r.w
    let signed := r.sigKey = s.vendorKey ∧ r.sigDigest = sm3 (r.imageLen + 12) whole
    let image := sm3 r.imageLen (r.image % 256 ^ r.imageLen)
    (s.boot = .powerGood ∨ s.boot = .off →
      (¬ signed → exec .powerGood s = .next (failed { s with measure := 0, mlog := [] } 1))
      ∧ (signed → r.version < s.fuseVersion → exec .powerGood s = .next (failed { s with measure := 0, mlog := [] } 2))
      ∧ (signed → s.fuseVersion ≤ r.version → exec .powerGood s = .next { s with
          fuseVersion := r.version, boot := .seedling, stage := 1, fail := 0
          measure := ext (ext 0 image) (Config.stageDigest 0), mlog := [image, Config.stageDigest 0] }))
    ∧ (s.boot = .seedling → r.q ≤ 4 → r.cs ∈ [64, 128, 192, 256] → r.w ∈ [1, 2, 4, 8] →
      exec .configuration s = .next (next { s with boot := .configured, hbmQ := r.q, cellarKiB := r.cs, portsW := r.w } 1))
    ∧ (s.boot = .configured → exec .memoryTraining s = .next (if r.trains then next { s with boot := .trained, frames := [], dead := [] } 2 else failed s 3))
    ∧ (s.boot = .trained → exec .fullMode s = .next (next { s with boot := .full, stage := 2, kdev := 0, coresFrom := s.now } 3))
    ∧ (∀ n l, s.boot = .full → s.nonces = n :: l → exec .quote s = .next { s with
        nonces := l, quotes := s.quotes ++ [Config.sm2Sign (sm3 66 ((s.measure.toNat * 2 ^ 256 + n.toNat) * 2 ^ 16 + le 2 s.kdev))] }))
  ∧ (∀ (s : State), s.core.id < 288 →
    (∀ up, s.opMoves = [(s.core.id, up)] →
      let held := up = true ∧ (s.upBlocked = true ∨ s.hot = true ∨ s.plim < s.pwr)
      (held → exec .operatingPointMove s = .next { s with opMoves := [] })
      ∧ (¬ held → exec .operatingPointMove s = .next { s with opMoves := [], core := if up then Claims.pointUp s.core else Claims.pointDown s.core }))
    ∧ (s.boot = .full → ∃ t, exec .powerWindow s = .next t ∧ t.pwr < 4096 ∧ t.mem = s.mem ∧ t.core.st = s.core.st ∧ t.plim = s.plim
        ∧ (s.plim < t.pwr → t.upBlocked = true ∧ ((∀ g ∈ s.gangs, g.task.c < 2) → t.core = Claims.pointDown s.core))
        ∧ (t.pwr ≤ s.plim → t.upBlocked = (s.upBlocked && decide (s.plim ≤ t.pwr + 50))
            ∧ ((∀ k ∈ s.core :: s.others, k.homing = false) → t.core = s.core)
            ∧ (s.core.homing = true → t.upBlocked = false → s.hot = false → t.core = { s.core with mv := 500, mhz := 3000, homing := false })))
    ∧ (s.boot = .full → ∃ t, exec .thermalThrottle s = .next t ∧ t.tmax < 256 ∧ t.mem = s.mem ∧ t.hot = (decide (95 ≤ t.tmax) || (s.hot && decide (90 < t.tmax)))
        ∧ (t.hot = true → s.hot = false ∨ s.throttledAt + 300000 ≤ s.now → t.core = Claims.pointDown s.core ∧ t.throttledAt = s.now)
        ∧ (t.hot = true → s.hot = true → s.now < s.throttledAt + 300000 → t.core = s.core ∧ t.throttledAt = s.throttledAt)
        ∧ (t.hot = false → (∀ k ∈ s.core :: s.others, k.homing = false) → t.core = s.core))
    ∧ (s.boot = .full → s.fail ≠ 4 → 110 ≤ s.tmax → ∃ t, exec .thermalTrip s = .next t ∧ t.boot = .failed ∧ t.stage = 3 ∧ t.fail = 4 ∧ t.mem = [] ∧ t.gangs = [] ∧ t.core = Core.fresh 0 ∧ t.others = []
        ∧ t.port = s.port ∧ t.stale = s.stale ∧ t.fuseVersion = s.fuseVersion ∧ t.tmax = s.tmax)
    ∧ (∃ t, exec .powerLoss s = .next t ∧ t.boot = .off ∧ t.mem = [] ∧ t.frames = [] ∧ t.keys = [] ∧ t.gangs = [] ∧ t.core = Core.fresh 0 ∧ t.others = []
        ∧ t.port = s.port ∧ t.portPsn = s.portPsn ∧ t.stale = s.stale ∧ t.fuseVersion = s.fuseVersion ∧ t.vendorKey = s.vendorKey))
end

