-- ==== Sys2Proof/Laws/Decode.lean ====
section
/-!
SUPPORT. The fields of a word that one of the formats of R104 builds, each read back as the part it was built from, the parts of a field that several share (part_s_l_of_widths: the l bits from bit s of parts of those widths), and the decoder each major opcode selects.
-/
set_option Elab.async false
namespace Sys2Proof

theorem extract_hi {m n : Nat} (x : BitVec m) (y : BitVec n) (s l : Nat) : (x ++ y).extractLsb' (s + n) l = x.extractLsb' s l := by
  ext i hi
  simp only [BitVec.getElem_extractLsb', BitVec.getLsbD_append]
  rw [if_neg (by omega)]; congr 1; omega

theorem extract_lo {m n : Nat} (x : BitVec m) (y : BitVec n) (s l : Nat) (h : s + l ≤ n) : (x ++ y).extractLsb' s l = y.extractLsb' s l := by
  ext i hi
  simp only [BitVec.getElem_extractLsb', BitVec.getLsbD_append]
  rw [if_pos (by omega)]

theorem extract_all {n : Nat} (x : BitVec n) : x.extractLsb' 0 n = x := by simp

theorem extract_span {m n : Nat} (x : BitVec m) (y : BitVec n) (k : Nat) : (x ++ y).extractLsb' 0 (k + n) = x.extractLsb' 0 k ++ y := by
  ext i hi
  simp only [BitVec.getElem_extractLsb', BitVec.getLsbD_append, BitVec.getElem_append]
  split <;> simp_all

section
variable (mo : BitVec 7) (d a b : BitVec 5) (mk : BitVec 3) (fn : BitVec 7) (imm : BitVec 15) (im20 : BitVec 20) (off25 : BitVec 25) (sz : BitVec 3) (off : BitVec 12) (fn10 : BitVec 10) (acc mr mc : BitVec 3) (op2 : BitVec 2) (fn4 : BitVec 4)

@[simp] theorem fMo_wordA : fMo (wordA mo d a b mk fn) = mo :=
  (extract_hi _ fn 18 7).trans ((extract_hi _ mk 15 7).trans ((extract_hi _ b 10 7).trans ((extract_hi _ a 5 7).trans ((extract_hi _ d 0 7).trans (extract_all mo)))))

@[simp] theorem fD_wordA : fD (wordA mo d a b mk fn) = d :=
  (extract_hi _ fn 13 5).trans ((extract_hi _ mk 10 5).trans ((extract_hi _ b 5 5).trans ((extract_hi _ a 0 5).trans ((extract_lo _ d 0 5 (by decide)).trans (extract_all d)))))

@[simp] theorem fA_wordA : fA (wordA mo d a b mk fn) = a :=
  (extract_hi _ fn 8 5).trans ((extract_hi _ mk 5 5).trans ((extract_hi _ b 0 5).trans ((extract_lo _ a 0 5 (by decide)).trans (extract_all a))))

@[simp] theorem fB_wordA : fB (wordA mo d a b mk fn) = b :=
  (extract_hi _ fn 3 5).trans ((extract_hi _ mk 0 5).trans ((extract_lo _ b 0 5 (by decide)).trans (extract_all b)))

@[simp] theorem fMk_wordA : fMk (wordA mo d a b mk fn) = mk :=
  (extract_hi _ fn 0 3).trans ((extract_lo _ mk 0 3 (by decide)).trans (extract_all mk))

@[simp] theorem fFn_wordA : fFn (wordA mo d a b mk fn) = fn :=
  (extract_lo _ fn 0 7 (by decide)).trans (extract_all fn)

@[simp] theorem fImm_wordA : fImm (wordA mo d a b mk fn) = b ++ mk ++ fn :=
  ((extract_span _ fn 8).trans (congrArg (· ++ fn) (((extract_span _ mk 5).trans (congrArg (· ++ mk) ((extract_lo _ b 0 5 (by decide)).trans (extract_all b)))))))

@[simp] theorem fFn10_wordA : fFn10 (wordA mo d a b mk fn) = mk ++ fn :=
  ((extract_span _ fn 3).trans (congrArg (· ++ fn) ((extract_lo _ mk 0 3 (by decide)).trans (extract_all mk))))

@[simp] theorem fMo_wordI : fMo (wordI mo d a imm) = mo :=
  (extract_hi _ imm 10 7).trans ((extract_hi _ a 5 7).trans ((extract_hi _ d 0 7).trans (extract_all mo)))

@[simp] theorem fD_wordI : fD (wordI mo d a imm) = d :=
  (extract_hi _ imm 5 5).trans ((extract_hi _ a 0 5).trans ((extract_lo _ d 0 5 (by decide)).trans (extract_all d)))

@[simp] theorem fA_wordI : fA (wordI mo d a imm) = a :=
  (extract_hi _ imm 0 5).trans ((extract_lo _ a 0 5 (by decide)).trans (extract_all a))

@[simp] theorem fImm_wordI : fImm (wordI mo d a imm) = imm :=
  (extract_lo _ imm 0 15 (by decide)).trans (extract_all imm)

@[simp] theorem fB_wordI : fB (wordI mo d a imm) = imm.extractLsb' 10 5 :=
  (extract_lo _ imm 10 5 (by decide))

@[simp] theorem fMk_wordI : fMk (wordI mo d a imm) = imm.extractLsb' 7 3 :=
  (extract_lo _ imm 7 3 (by decide))

@[simp] theorem fFn_wordI : fFn (wordI mo d a imm) = imm.extractLsb' 0 7 :=
  (extract_lo _ imm 0 7 (by decide))

@[simp] theorem fSz_wordI : fSz (wordI mo d a imm) = imm.extractLsb' 12 3 :=
  (extract_lo _ imm 12 3 (by decide))

@[simp] theorem fOff_wordI : fOff (wordI mo d a imm) = imm.extractLsb' 0 12 :=
  (extract_lo _ imm 0 12 (by decide))

@[simp] theorem fFn10_wordI : fFn10 (wordI mo d a imm) = imm.extractLsb' 0 10 :=
  (extract_lo _ imm 0 10 (by decide))

@[simp] theorem fMo_wordW : fMo (wordW mo d im20) = mo :=
  (extract_hi _ im20 5 7).trans ((extract_hi _ d 0 7).trans (extract_all mo))

@[simp] theorem fD_wordW : fD (wordW mo d im20) = d :=
  (extract_hi _ im20 0 5).trans ((extract_lo _ d 0 5 (by decide)).trans (extract_all d))

@[simp] theorem fImm20_wordW : fImm20 (wordW mo d im20) = im20 :=
  (extract_lo _ im20 0 20 (by decide)).trans (extract_all im20)

@[simp] theorem fMo_wordJ : fMo (wordJ mo off25) = mo :=
  (extract_hi _ off25 0 7).trans (extract_all mo)

@[simp] theorem fOff25_wordJ : fOff25 (wordJ mo off25) = off25 :=
  (extract_lo _ off25 0 25 (by decide)).trans (extract_all off25)

@[simp] theorem fMo_wordM : fMo (wordM mo d a sz off) = mo :=
  (extract_hi _ off 13 7).trans ((extract_hi _ sz 10 7).trans ((extract_hi _ a 5 7).trans ((extract_hi _ d 0 7).trans (extract_all mo))))

@[simp] theorem fD_wordM : fD (wordM mo d a sz off) = d :=
  (extract_hi _ off 8 5).trans ((extract_hi _ sz 5 5).trans ((extract_hi _ a 0 5).trans ((extract_lo _ d 0 5 (by decide)).trans (extract_all d))))

@[simp] theorem fA_wordM : fA (wordM mo d a sz off) = a :=
  (extract_hi _ off 3 5).trans ((extract_hi _ sz 0 5).trans ((extract_lo _ a 0 5 (by decide)).trans (extract_all a)))

@[simp] theorem fSz_wordM : fSz (wordM mo d a sz off) = sz :=
  (extract_hi _ off 0 3).trans ((extract_lo _ sz 0 3 (by decide)).trans (extract_all sz))

@[simp] theorem fOff_wordM : fOff (wordM mo d a sz off) = off :=
  (extract_lo _ off 0 12 (by decide)).trans (extract_all off)

@[simp] theorem fMo_wordX : fMo (wordX acc op2 a b mr mc fn4) = 0x40#7 :=
  (extract_hi _ fn4 21 7).trans ((extract_hi _ mc 18 7).trans ((extract_hi _ mr 15 7).trans ((extract_hi _ b 10 7).trans ((extract_hi _ a 5 7).trans ((extract_hi _ op2 3 7).trans ((extract_hi _ acc 0 7).trans ((extract_all 0x40#7))))))))

@[simp] theorem fAcc_wordX : fAcc (wordX acc op2 a b mr mc fn4) = acc :=
  (extract_hi _ fn4 18 3).trans ((extract_hi _ mc 15 3).trans ((extract_hi _ mr 12 3).trans ((extract_hi _ b 7 3).trans ((extract_hi _ a 2 3).trans ((extract_hi _ op2 0 3).trans ((extract_lo _ acc 0 3 (by decide)).trans (extract_all acc)))))))

@[simp] theorem fOp2_wordX : fOp2 (wordX acc op2 a b mr mc fn4) = op2 :=
  (extract_hi _ fn4 16 2).trans ((extract_hi _ mc 13 2).trans ((extract_hi _ mr 10 2).trans ((extract_hi _ b 5 2).trans ((extract_hi _ a 0 2).trans ((extract_lo _ op2 0 2 (by decide)).trans (extract_all op2))))))

@[simp] theorem fA_wordX : fA (wordX acc op2 a b mr mc fn4) = a :=
  (extract_hi _ fn4 11 5).trans ((extract_hi _ mc 8 5).trans ((extract_hi _ mr 5 5).trans ((extract_hi _ b 0 5).trans ((extract_lo _ a 0 5 (by decide)).trans (extract_all a)))))

@[simp] theorem fB_wordX : fB (wordX acc op2 a b mr mc fn4) = b :=
  (extract_hi _ fn4 6 5).trans ((extract_hi _ mc 3 5).trans ((extract_hi _ mr 0 5).trans ((extract_lo _ b 0 5 (by decide)).trans (extract_all b))))

@[simp] theorem fMk_wordX : fMk (wordX acc op2 a b mr mc fn4) = mr :=
  (extract_hi _ fn4 3 3).trans ((extract_hi _ mc 0 3).trans ((extract_lo _ mr 0 3 (by decide)).trans (extract_all mr)))

@[simp] theorem fMc_wordX : fMc (wordX acc op2 a b mr mc fn4) = mc :=
  (extract_hi _ fn4 0 3).trans ((extract_lo _ mc 0 3 (by decide)).trans (extract_all mc))

@[simp] theorem fFn_wordX : fFn (wordX acc op2 a b mr mc fn4) = mc ++ fn4 :=
  ((extract_span _ fn4 3).trans (congrArg (· ++ fn4) ((extract_lo _ mc 0 3 (by decide)).trans (extract_all mc))))

@[simp] theorem fMo_wordY : fMo (wordY mo d a b fn10) = mo :=
  (extract_hi _ fn10 15 7).trans ((extract_hi _ b 10 7).trans ((extract_hi _ a 5 7).trans ((extract_hi _ d 0 7).trans (extract_all mo))))

@[simp] theorem fD_wordY : fD (wordY mo d a b fn10) = d :=
  (extract_hi _ fn10 10 5).trans ((extract_hi _ b 5 5).trans ((extract_hi _ a 0 5).trans ((extract_lo _ d 0 5 (by decide)).trans (extract_all d))))

@[simp] theorem fA_wordY : fA (wordY mo d a b fn10) = a :=
  (extract_hi _ fn10 5 5).trans ((extract_hi _ b 0 5).trans ((extract_lo _ a 0 5 (by decide)).trans (extract_all a)))

@[simp] theorem fB_wordY : fB (wordY mo d a b fn10) = b :=
  (extract_hi _ fn10 0 5).trans ((extract_lo _ b 0 5 (by decide)).trans (extract_all b))

@[simp] theorem fFn10_wordY : fFn10 (wordY mo d a b fn10) = fn10 :=
  (extract_lo _ fn10 0 10 (by decide)).trans (extract_all fn10)

@[simp] theorem fMk_wordY : fMk (wordY mo d a b fn10) = fn10.extractLsb' 7 3 :=
  (extract_lo _ fn10 7 3 (by decide))

@[simp] theorem fFn_wordY : fFn (wordY mo d a b fn10) = fn10.extractLsb' 0 7 :=
  (extract_lo _ fn10 0 7 (by decide))

end

/-- Bit 0, by which SETVLI is told from SETVL and LIVE (R116). -/
theorem low_wordI (mo : BitVec 7) (d a : BitVec 5) (imm : BitVec 15) : (wordI mo d a imm).extractLsb' 0 1 = imm.extractLsb' 0 1 := extract_lo _ imm 0 1 (by decide)

theorem low_wordY (mo : BitVec 7) (d a b : BitVec 5) (fn10 : BitVec 10) : (wordY mo d a b fn10).extractLsb' 0 1 = fn10.extractLsb' 0 1 := extract_lo _ fn10 0 1 (by decide)

theorem part_0_1_of_1_1 (x0 : BitVec 1) (x1 : BitVec 1) : (x0 ++ x1 : BitVec 2).extractLsb' 0 1 = x1 := (extract_lo _ x1 0 1 (by decide)).trans (extract_all x1)

theorem part_1_1_of_1_1 (x0 : BitVec 1) (x1 : BitVec 1) : (x0 ++ x1 : BitVec 2).extractLsb' 1 1 = x0 := (extract_hi _ x1 0 1).trans (extract_all x0)

theorem part_0_1_of_1_1_1_2_3_4_2_1 (x0 : BitVec 1) (x1 : BitVec 1) (x2 : BitVec 1) (x3 : BitVec 2) (x4 : BitVec 3) (x5 : BitVec 4) (x6 : BitVec 2) (x7 : BitVec 1) : (x0 ++ x1 ++ x2 ++ x3 ++ x4 ++ x5 ++ x6 ++ x7 : BitVec 15).extractLsb' 0 1 = x7 := (extract_lo _ x7 0 1 (by decide)).trans (extract_all x7)

theorem part_1_2_of_1_1_1_2_3_4_2_1 (x0 : BitVec 1) (x1 : BitVec 1) (x2 : BitVec 1) (x3 : BitVec 2) (x4 : BitVec 3) (x5 : BitVec 4) (x6 : BitVec 2) (x7 : BitVec 1) : (x0 ++ x1 ++ x2 ++ x3 ++ x4 ++ x5 ++ x6 ++ x7 : BitVec 15).extractLsb' 1 2 = x6 := (extract_hi _ x7 0 2).trans ((extract_lo _ x6 0 2 (by decide)).trans (extract_all x6))

theorem part_1_9_of_1_1_1_2_3_4_2_1 (x0 : BitVec 1) (x1 : BitVec 1) (x2 : BitVec 1) (x3 : BitVec 2) (x4 : BitVec 3) (x5 : BitVec 4) (x6 : BitVec 2) (x7 : BitVec 1) : (x0 ++ x1 ++ x2 ++ x3 ++ x4 ++ x5 ++ x6 ++ x7 : BitVec 15).extractLsb' 1 9 = x4 ++ x5 ++ x6 := (extract_hi _ x7 0 9).trans (((extract_span _ x6 7).trans (congrArg (· ++ x6) (((extract_span _ x5 3).trans (congrArg (· ++ x5) ((extract_lo _ x4 0 3 (by decide)).trans (extract_all x4))))))))

theorem part_3_4_of_1_1_1_2_3_4_2_1 (x0 : BitVec 1) (x1 : BitVec 1) (x2 : BitVec 1) (x3 : BitVec 2) (x4 : BitVec 3) (x5 : BitVec 4) (x6 : BitVec 2) (x7 : BitVec 1) : (x0 ++ x1 ++ x2 ++ x3 ++ x4 ++ x5 ++ x6 ++ x7 : BitVec 15).extractLsb' 3 4 = x5 := (extract_hi _ x7 2 4).trans ((extract_hi _ x6 0 4).trans ((extract_lo _ x5 0 4 (by decide)).trans (extract_all x5)))

theorem part_7_3_of_1_1_1_2_3_4_2_1 (x0 : BitVec 1) (x1 : BitVec 1) (x2 : BitVec 1) (x3 : BitVec 2) (x4 : BitVec 3) (x5 : BitVec 4) (x6 : BitVec 2) (x7 : BitVec 1) : (x0 ++ x1 ++ x2 ++ x3 ++ x4 ++ x5 ++ x6 ++ x7 : BitVec 15).extractLsb' 7 3 = x4 := (extract_hi _ x7 6 3).trans ((extract_hi _ x6 4 3).trans ((extract_hi _ x5 0 3).trans ((extract_lo _ x4 0 3 (by decide)).trans (extract_all x4))))

theorem part_10_2_of_1_1_1_2_3_4_2_1 (x0 : BitVec 1) (x1 : BitVec 1) (x2 : BitVec 1) (x3 : BitVec 2) (x4 : BitVec 3) (x5 : BitVec 4) (x6 : BitVec 2) (x7 : BitVec 1) : (x0 ++ x1 ++ x2 ++ x3 ++ x4 ++ x5 ++ x6 ++ x7 : BitVec 15).extractLsb' 10 2 = x3 := (extract_hi _ x7 9 2).trans ((extract_hi _ x6 7 2).trans ((extract_hi _ x5 3 2).trans ((extract_hi _ x4 0 2).trans ((extract_lo _ x3 0 2 (by decide)).trans (extract_all x3)))))

theorem part_12_1_of_1_1_1_2_3_4_2_1 (x0 : BitVec 1) (x1 : BitVec 1) (x2 : BitVec 1) (x3 : BitVec 2) (x4 : BitVec 3) (x5 : BitVec 4) (x6 : BitVec 2) (x7 : BitVec 1) : (x0 ++ x1 ++ x2 ++ x3 ++ x4 ++ x5 ++ x6 ++ x7 : BitVec 15).extractLsb' 12 1 = x2 := (extract_hi _ x7 11 1).trans ((extract_hi _ x6 9 1).trans ((extract_hi _ x5 5 1).trans ((extract_hi _ x4 2 1).trans ((extract_hi _ x3 0 1).trans ((extract_lo _ x2 0 1 (by decide)).trans (extract_all x2))))))

theorem part_13_1_of_1_1_1_2_3_4_2_1 (x0 : BitVec 1) (x1 : BitVec 1) (x2 : BitVec 1) (x3 : BitVec 2) (x4 : BitVec 3) (x5 : BitVec 4) (x6 : BitVec 2) (x7 : BitVec 1) : (x0 ++ x1 ++ x2 ++ x3 ++ x4 ++ x5 ++ x6 ++ x7 : BitVec 15).extractLsb' 13 1 = x1 := (extract_hi _ x7 12 1).trans ((extract_hi _ x6 10 1).trans ((extract_hi _ x5 6 1).trans ((extract_hi _ x4 3 1).trans ((extract_hi _ x3 1 1).trans ((extract_hi _ x2 0 1).trans ((extract_lo _ x1 0 1 (by decide)).trans (extract_all x1)))))))

theorem part_14_1_of_1_1_1_2_3_4_2_1 (x0 : BitVec 1) (x1 : BitVec 1) (x2 : BitVec 1) (x3 : BitVec 2) (x4 : BitVec 3) (x5 : BitVec 4) (x6 : BitVec 2) (x7 : BitVec 1) : (x0 ++ x1 ++ x2 ++ x3 ++ x4 ++ x5 ++ x6 ++ x7 : BitVec 15).extractLsb' 14 1 = x0 := (extract_hi _ x7 13 1).trans ((extract_hi _ x6 11 1).trans ((extract_hi _ x5 7 1).trans ((extract_hi _ x4 4 1).trans ((extract_hi _ x3 2 1).trans ((extract_hi _ x2 1 1).trans ((extract_hi _ x1 0 1).trans (extract_all x0)))))))

theorem part_0_4_of_1_1_1_3_4 (x0 : BitVec 1) (x1 : BitVec 1) (x2 : BitVec 1) (x3 : BitVec 3) (x4 : BitVec 4) : (x0 ++ x1 ++ x2 ++ x3 ++ x4 : BitVec 10).extractLsb' 0 4 = x4 := (extract_lo _ x4 0 4 (by decide)).trans (extract_all x4)

theorem part_4_3_of_1_1_1_3_4 (x0 : BitVec 1) (x1 : BitVec 1) (x2 : BitVec 1) (x3 : BitVec 3) (x4 : BitVec 4) : (x0 ++ x1 ++ x2 ++ x3 ++ x4 : BitVec 10).extractLsb' 4 3 = x3 := (extract_hi _ x4 0 3).trans ((extract_lo _ x3 0 3 (by decide)).trans (extract_all x3))

theorem part_7_1_of_1_1_1_3_4 (x0 : BitVec 1) (x1 : BitVec 1) (x2 : BitVec 1) (x3 : BitVec 3) (x4 : BitVec 4) : (x0 ++ x1 ++ x2 ++ x3 ++ x4 : BitVec 10).extractLsb' 7 1 = x2 := (extract_hi _ x4 3 1).trans ((extract_hi _ x3 0 1).trans ((extract_lo _ x2 0 1 (by decide)).trans (extract_all x2)))

theorem part_8_1_of_1_1_1_3_4 (x0 : BitVec 1) (x1 : BitVec 1) (x2 : BitVec 1) (x3 : BitVec 3) (x4 : BitVec 4) : (x0 ++ x1 ++ x2 ++ x3 ++ x4 : BitVec 10).extractLsb' 8 1 = x1 := (extract_hi _ x4 4 1).trans ((extract_hi _ x3 1 1).trans ((extract_hi _ x2 0 1).trans ((extract_lo _ x1 0 1 (by decide)).trans (extract_all x1))))

theorem part_9_1_of_1_1_1_3_4 (x0 : BitVec 1) (x1 : BitVec 1) (x2 : BitVec 1) (x3 : BitVec 3) (x4 : BitVec 4) : (x0 ++ x1 ++ x2 ++ x3 ++ x4 : BitVec 10).extractLsb' 9 1 = x0 := (extract_hi _ x4 5 1).trans ((extract_hi _ x3 2 1).trans ((extract_hi _ x2 1 1).trans ((extract_hi _ x1 0 1).trans (extract_all x0))))

theorem part_0_4_of_1_2_4 (x0 : BitVec 1) (x1 : BitVec 2) (x2 : BitVec 4) : (x0 ++ x1 ++ x2 : BitVec 7).extractLsb' 0 4 = x2 := (extract_lo _ x2 0 4 (by decide)).trans (extract_all x2)

theorem part_4_2_of_1_2_4 (x0 : BitVec 1) (x1 : BitVec 2) (x2 : BitVec 4) : (x0 ++ x1 ++ x2 : BitVec 7).extractLsb' 4 2 = x1 := (extract_hi _ x2 0 2).trans ((extract_lo _ x1 0 2 (by decide)).trans (extract_all x1))

theorem part_6_1_of_1_2_4 (x0 : BitVec 1) (x1 : BitVec 2) (x2 : BitVec 4) : (x0 ++ x1 ++ x2 : BitVec 7).extractLsb' 6 1 = x0 := (extract_hi _ x2 2 1).trans ((extract_hi _ x1 0 1).trans (extract_all x0))

theorem part_0_4_of_1_4 (x0 : BitVec 1) (x1 : BitVec 4) : (x0 ++ x1 : BitVec 5).extractLsb' 0 4 = x1 := (extract_lo _ x1 0 4 (by decide)).trans (extract_all x1)

theorem part_4_1_of_1_4 (x0 : BitVec 1) (x1 : BitVec 4) : (x0 ++ x1 : BitVec 5).extractLsb' 4 1 = x0 := (extract_hi _ x1 0 1).trans (extract_all x0)

theorem part_0_1_of_1_5_1 (x0 : BitVec 1) (x1 : BitVec 5) (x2 : BitVec 1) : (x0 ++ x1 ++ x2 : BitVec 7).extractLsb' 0 1 = x2 := (extract_lo _ x2 0 1 (by decide)).trans (extract_all x2)

theorem part_1_5_of_1_5_1 (x0 : BitVec 1) (x1 : BitVec 5) (x2 : BitVec 1) : (x0 ++ x1 ++ x2 : BitVec 7).extractLsb' 1 5 = x1 := (extract_hi _ x2 0 5).trans ((extract_lo _ x1 0 5 (by decide)).trans (extract_all x1))

theorem part_6_1_of_1_5_1 (x0 : BitVec 1) (x1 : BitVec 5) (x2 : BitVec 1) : (x0 ++ x1 ++ x2 : BitVec 7).extractLsb' 6 1 = x0 := (extract_hi _ x2 5 1).trans ((extract_hi _ x1 0 1).trans (extract_all x0))

theorem part_0_6_of_1_6 (x0 : BitVec 1) (x1 : BitVec 6) : (x0 ++ x1 : BitVec 7).extractLsb' 0 6 = x1 := (extract_lo _ x1 0 6 (by decide)).trans (extract_all x1)

theorem part_6_1_of_1_6 (x0 : BitVec 1) (x1 : BitVec 6) : (x0 ++ x1 : BitVec 7).extractLsb' 6 1 = x0 := (extract_hi _ x1 0 1).trans (extract_all x0)

theorem part_0_2_of_2_2_1_2 (x0 : BitVec 2) (x1 : BitVec 2) (x2 : BitVec 1) (x3 : BitVec 2) : (x0 ++ x1 ++ x2 ++ x3 : BitVec 7).extractLsb' 0 2 = x3 := (extract_lo _ x3 0 2 (by decide)).trans (extract_all x3)

theorem part_2_1_of_2_2_1_2 (x0 : BitVec 2) (x1 : BitVec 2) (x2 : BitVec 1) (x3 : BitVec 2) : (x0 ++ x1 ++ x2 ++ x3 : BitVec 7).extractLsb' 2 1 = x2 := (extract_hi _ x3 0 1).trans ((extract_lo _ x2 0 1 (by decide)).trans (extract_all x2))

theorem part_3_2_of_2_2_1_2 (x0 : BitVec 2) (x1 : BitVec 2) (x2 : BitVec 1) (x3 : BitVec 2) : (x0 ++ x1 ++ x2 ++ x3 : BitVec 7).extractLsb' 3 2 = x1 := (extract_hi _ x3 1 2).trans ((extract_hi _ x2 0 2).trans ((extract_lo _ x1 0 2 (by decide)).trans (extract_all x1)))

theorem part_5_2_of_2_2_1_2 (x0 : BitVec 2) (x1 : BitVec 2) (x2 : BitVec 1) (x3 : BitVec 2) : (x0 ++ x1 ++ x2 ++ x3 : BitVec 7).extractLsb' 5 2 = x0 := (extract_hi _ x3 3 2).trans ((extract_hi _ x2 2 2).trans ((extract_hi _ x1 0 2).trans (extract_all x0)))

theorem part_0_16_of_2_2_16 (x0 : BitVec 2) (x1 : BitVec 2) (x2 : BitVec 16) : (x0 ++ x1 ++ x2 : BitVec 20).extractLsb' 0 16 = x2 := (extract_lo _ x2 0 16 (by decide)).trans (extract_all x2)

theorem part_16_2_of_2_2_16 (x0 : BitVec 2) (x1 : BitVec 2) (x2 : BitVec 16) : (x0 ++ x1 ++ x2 : BitVec 20).extractLsb' 16 2 = x1 := (extract_hi _ x2 0 2).trans ((extract_lo _ x1 0 2 (by decide)).trans (extract_all x1))

theorem part_18_2_of_2_2_16 (x0 : BitVec 2) (x1 : BitVec 2) (x2 : BitVec 16) : (x0 ++ x1 ++ x2 : BitVec 20).extractLsb' 18 2 = x0 := (extract_hi _ x2 2 2).trans ((extract_hi _ x1 0 2).trans (extract_all x0))

theorem part_0_3_of_2_2_3 (x0 : BitVec 2) (x1 : BitVec 2) (x2 : BitVec 3) : (x0 ++ x1 ++ x2 : BitVec 7).extractLsb' 0 3 = x2 := (extract_lo _ x2 0 3 (by decide)).trans (extract_all x2)

theorem part_3_2_of_2_2_3 (x0 : BitVec 2) (x1 : BitVec 2) (x2 : BitVec 3) : (x0 ++ x1 ++ x2 : BitVec 7).extractLsb' 3 2 = x1 := (extract_hi _ x2 0 2).trans ((extract_lo _ x1 0 2 (by decide)).trans (extract_all x1))

theorem part_5_2_of_2_2_3 (x0 : BitVec 2) (x1 : BitVec 2) (x2 : BitVec 3) : (x0 ++ x1 ++ x2 : BitVec 7).extractLsb' 5 2 = x0 := (extract_hi _ x2 2 2).trans ((extract_hi _ x1 0 2).trans (extract_all x0))

theorem part_0_3_of_2_3 (x0 : BitVec 2) (x1 : BitVec 3) : (x0 ++ x1 : BitVec 5).extractLsb' 0 3 = x1 := (extract_lo _ x1 0 3 (by decide)).trans (extract_all x1)

theorem part_3_2_of_2_3 (x0 : BitVec 2) (x1 : BitVec 3) : (x0 ++ x1 : BitVec 5).extractLsb' 3 2 = x0 := (extract_hi _ x1 0 2).trans (extract_all x0)

theorem part_0_5_of_2_3_5 (x0 : BitVec 2) (x1 : BitVec 3) (x2 : BitVec 5) : (x0 ++ x1 ++ x2 : BitVec 10).extractLsb' 0 5 = x2 := (extract_lo _ x2 0 5 (by decide)).trans (extract_all x2)

theorem part_5_3_of_2_3_5 (x0 : BitVec 2) (x1 : BitVec 3) (x2 : BitVec 5) : (x0 ++ x1 ++ x2 : BitVec 10).extractLsb' 5 3 = x1 := (extract_hi _ x2 0 3).trans ((extract_lo _ x1 0 3 (by decide)).trans (extract_all x1))

theorem part_8_2_of_2_3_5 (x0 : BitVec 2) (x1 : BitVec 3) (x2 : BitVec 5) : (x0 ++ x1 ++ x2 : BitVec 10).extractLsb' 8 2 = x0 := (extract_hi _ x2 3 2).trans ((extract_hi _ x1 0 2).trans (extract_all x0))

theorem part_0_3_of_2_5_5_3 (x0 : BitVec 2) (x1 : BitVec 5) (x2 : BitVec 5) (x3 : BitVec 3) : (x0 ++ x1 ++ x2 ++ x3 : BitVec 15).extractLsb' 0 3 = x3 := (extract_lo _ x3 0 3 (by decide)).trans (extract_all x3)

theorem part_3_5_of_2_5_5_3 (x0 : BitVec 2) (x1 : BitVec 5) (x2 : BitVec 5) (x3 : BitVec 3) : (x0 ++ x1 ++ x2 ++ x3 : BitVec 15).extractLsb' 3 5 = x2 := (extract_hi _ x3 0 5).trans ((extract_lo _ x2 0 5 (by decide)).trans (extract_all x2))

theorem part_8_5_of_2_5_5_3 (x0 : BitVec 2) (x1 : BitVec 5) (x2 : BitVec 5) (x3 : BitVec 3) : (x0 ++ x1 ++ x2 ++ x3 : BitVec 15).extractLsb' 8 5 = x1 := (extract_hi _ x3 5 5).trans ((extract_hi _ x2 0 5).trans ((extract_lo _ x1 0 5 (by decide)).trans (extract_all x1)))

theorem part_13_2_of_2_5_5_3 (x0 : BitVec 2) (x1 : BitVec 5) (x2 : BitVec 5) (x3 : BitVec 3) : (x0 ++ x1 ++ x2 ++ x3 : BitVec 15).extractLsb' 13 2 = x0 := (extract_hi _ x3 10 2).trans ((extract_hi _ x2 5 2).trans ((extract_hi _ x1 0 2).trans (extract_all x0)))

theorem part_0_3_of_3_1_3 (x0 : BitVec 3) (x1 : BitVec 1) (x2 : BitVec 3) : (x0 ++ x1 ++ x2 : BitVec 7).extractLsb' 0 3 = x2 := (extract_lo _ x2 0 3 (by decide)).trans (extract_all x2)

theorem part_3_1_of_3_1_3 (x0 : BitVec 3) (x1 : BitVec 1) (x2 : BitVec 3) : (x0 ++ x1 ++ x2 : BitVec 7).extractLsb' 3 1 = x1 := (extract_hi _ x2 0 1).trans ((extract_lo _ x1 0 1 (by decide)).trans (extract_all x1))

theorem part_4_3_of_3_1_3 (x0 : BitVec 3) (x1 : BitVec 1) (x2 : BitVec 3) : (x0 ++ x1 ++ x2 : BitVec 7).extractLsb' 4 3 = x0 := (extract_hi _ x2 1 3).trans ((extract_hi _ x1 0 3).trans (extract_all x0))

theorem part_0_3_of_3_4 (x0 : BitVec 3) (x1 : BitVec 4) : (x0 ++ x1 : BitVec 7).extractLsb' 0 3 = x1.extractLsb' 0 3 := (extract_lo _ x1 0 3 (by decide))

theorem part_0_4_of_3_4 (x0 : BitVec 3) (x1 : BitVec 4) : (x0 ++ x1 : BitVec 7).extractLsb' 0 4 = x1 := (extract_lo _ x1 0 4 (by decide)).trans (extract_all x1)

theorem part_3_1_of_3_4 (x0 : BitVec 3) (x1 : BitVec 4) : (x0 ++ x1 : BitVec 7).extractLsb' 3 1 = x1.extractLsb' 3 1 := (extract_lo _ x1 3 1 (by decide))

theorem part_4_3_of_3_4 (x0 : BitVec 3) (x1 : BitVec 4) : (x0 ++ x1 : BitVec 7).extractLsb' 4 3 = x0 := (extract_hi _ x1 0 3).trans (extract_all x0)

theorem part_0_2_of_5_2 (x0 : BitVec 5) (x1 : BitVec 2) : (x0 ++ x1 : BitVec 7).extractLsb' 0 2 = x1 := (extract_lo _ x1 0 2 (by decide)).trans (extract_all x1)

theorem part_2_5_of_5_2 (x0 : BitVec 5) (x1 : BitVec 2) : (x0 ++ x1 : BitVec 7).extractLsb' 2 5 = x0 := (extract_hi _ x1 0 5).trans (extract_all x0)

theorem part_0_6_of_7_2_6 (x0 : BitVec 7) (x1 : BitVec 2) (x2 : BitVec 6) : (x0 ++ x1 ++ x2 : BitVec 15).extractLsb' 0 6 = x2 := (extract_lo _ x2 0 6 (by decide)).trans (extract_all x2)

theorem part_6_2_of_7_2_6 (x0 : BitVec 7) (x1 : BitVec 2) (x2 : BitVec 6) : (x0 ++ x1 ++ x2 : BitVec 15).extractLsb' 6 2 = x1 := (extract_hi _ x2 0 2).trans ((extract_lo _ x1 0 2 (by decide)).trans (extract_all x1))

theorem part_8_7_of_7_2_6 (x0 : BitVec 7) (x1 : BitVec 2) (x2 : BitVec 6) : (x0 ++ x1 ++ x2 : BitVec 15).extractLsb' 8 7 = x0 := (extract_hi _ x2 2 7).trans ((extract_hi _ x1 0 7).trans (extract_all x0))

theorem part_0_4_of_8_4 (x0 : BitVec 8) (x1 : BitVec 4) : (x0 ++ x1 : BitVec 12).extractLsb' 0 4 = x1 := (extract_lo _ x1 0 4 (by decide)).trans (extract_all x1)

theorem part_4_8_of_8_4 (x0 : BitVec 8) (x1 : BitVec 4) : (x0 ++ x1 : BitVec 12).extractLsb' 4 8 = x0 := (extract_hi _ x1 0 8).trans (extract_all x0)

theorem decodeWord_decAlu (w : IWord) (h : fMo w = 1#7) : decodeWord w = decAlu w := by rw [decodeWord, h]; rfl

theorem decodeWord_decShift (w : IWord) (h : fMo w = 6#7) : decodeWord w = decShift w := by rw [decodeWord, h]; rfl

theorem decodeWord_decFp (w : IWord) (h : fMo w = 12#7) : decodeWord w = decFp w := by rw [decodeWord, h]; rfl

theorem decodeWord_decBranch (w : IWord) (h : fMo w = 16#7) : decodeWord w = decBranch w := by rw [decodeWord, h]; rfl

theorem decodeWord_decLoad (w : IWord) (h : fMo w = 24#7) : decodeWord w = decLoad w := by rw [decodeWord, h]; rfl

theorem decodeWord_decStore (w : IWord) (h : fMo w = 25#7) : decodeWord w = decStore w := by rw [decodeWord, h]; rfl

theorem decodeWord_decLdx (w : IWord) (h : fMo w = 26#7) : decodeWord w = decLdx w := by rw [decodeWord, h]; rfl

theorem decodeWord_decStx (w : IWord) (h : fMo w = 27#7) : decodeWord w = decStx w := by rw [decodeWord, h]; rfl

theorem decodeWord_decAmo (w : IWord) (h : fMo w = 28#7) : decodeWord w = decAmo w := by rw [decodeWord, h]; rfl

theorem decodeWord_decFence (w : IWord) (h : fMo w = 29#7) : decodeWord w = decFence w := by rw [decodeWord, h]; rfl

theorem decodeWord_decConfig (w : IWord) (h : fMo w = 32#7) : decodeWord w = decConfig w := by rw [decodeWord, h]; rfl

theorem decodeWord_decVecIntVV (w : IWord) (h : fMo w = 33#7) : decodeWord w = decVecIntVV w := by rw [decodeWord, h]; rfl

theorem decodeWord_decVecIntVS (w : IWord) (h : fMo w = 34#7) : decodeWord w = decVecIntVS w := by rw [decodeWord, h]; rfl

theorem decodeWord_decVecFpVV (w : IWord) (h : fMo w = 35#7) : decodeWord w = decVecFpVV w := by rw [decodeWord, h]; rfl

theorem decodeWord_decVecFpVS (w : IWord) (h : fMo w = 36#7) : decodeWord w = decVecFpVS w := by rw [decodeWord, h]; rfl

theorem decodeWord_decCmp (w : IWord) (h : fMo w = 37#7) : decodeWord w = decCmp w := by rw [decodeWord, h]; rfl

theorem decodeWord_decMask (w : IWord) (h : fMo w = 38#7) : decodeWord w = decMask w := by rw [decodeWord, h]; rfl

theorem decodeWord_decPerm (w : IWord) (h : fMo w = 39#7) : decodeWord w = decPerm w := by rw [decodeWord, h]; rfl

theorem decodeWord_decReduce (w : IWord) (h : fMo w = 40#7) : decodeWord w = decReduce w := by rw [decodeWord, h]; rfl

theorem decodeWord_decClmul (w : IWord) (h : fMo w = 41#7) : decodeWord w = decClmul w := by rw [decodeWord, h]; rfl

theorem decodeWord_decVLoad (w : IWord) (h : fMo w = 48#7) : decodeWord w = decVLoad w := by rw [decodeWord, h]; rfl

theorem decodeWord_decVStore (w : IWord) (h : fMo w = 49#7) : decodeWord w = decVStore w := by rw [decodeWord, h]; rfl

theorem decodeWord_decVsca (w : IWord) (h : fMo w = 50#7) : decodeWord w = decVsca w := by rw [decodeWord, h]; rfl

theorem decodeWord_decTileF (w : IWord) (h : fMo w = 51#7) : decodeWord w = decTileF w := by rw [decodeWord, h]; rfl

theorem decodeWord_decTokenF (w : IWord) (h : fMo w = 56#7) : decodeWord w = decTokenF w := by rw [decodeWord, h]; rfl

theorem decodeWord_decWait (w : IWord) (h : fMo w = 57#7) : decodeWord w = decWait w := by rw [decodeWord, h]; rfl

theorem decodeWord_decCopy (w : IWord) (h : fMo w = 59#7) : decodeWord w = decCopy w := by rw [decodeWord, h]; rfl

theorem decodeWord_decGroupF (w : IWord) (h : fMo w = 60#7) : decodeWord w = decGroupF w := by rw [decodeWord, h]; rfl

theorem decodeWord_decBarF (w : IWord) (h : fMo w = 61#7) : decodeWord w = decBarF w := by rw [decodeWord, h]; rfl

theorem decodeWord_decStrandF (w : IWord) (h : fMo w = 62#7) : decodeWord w = decStrandF w := by rw [decodeWord, h]; rfl

theorem decodeWord_decMatrix (w : IWord) (h : fMo w = 64#7) : decodeWord w = decMatrix w := by rw [decodeWord, h]; rfl

theorem decodeWord_decDebug (w : IWord) (h : fMo w = 72#7) : decodeWord w = decDebug w := by rw [decodeWord, h]; rfl

theorem decodeWord_decSystem (w : IWord) (h : fMo w = 80#7) : decodeWord w = decSystem w := by rw [decodeWord, h]; rfl

end Sys2Proof
end

