-- ==== Sys2Proof/Laws/Memory.lean ====
section
/-!
SUPPORT. Memories: every operation keeps the canonical form, a read after a write gives the written bytes, a write leaves every other byte, and memories in canonical form that read alike are equal.
-/
namespace Sys2Proof.Machine

/-- The canonical form, said of the list as a whole. -/
theorem Memory.wf_iff (m : Memory) : Memory.wf m = true ↔ (∀ c ∈ m, c.2 ≠ 0) ∧ m.Pairwise (fun a b => a.1 < b.1) := by
  induction m with
  | nil => simp [Memory.wf]
  | cons c r ih =>
    cases r with
    | nil => simp [Memory.wf]
    | cons d r =>
      have key : Memory.wf (c :: d :: r) = true ↔ c.2 ≠ 0 ∧ c.1 < d.1 ∧ Memory.wf (d :: r) = true := by
        rw [Memory.wf]
        simp [and_assoc]
      rw [key, ih, List.pairwise_cons]
      simp only [List.pairwise_cons, List.mem_cons, forall_eq_or_imp]
      constructor
      · rintro ⟨h1, h2, ⟨h3, h4⟩, h5, h6⟩
        exact ⟨⟨h1, h3, h4⟩, ⟨h2, fun x hx => Nat.lt_trans h2 (h5 x hx)⟩, h5, h6⟩
      · rintro ⟨⟨h1, h3, h4⟩, ⟨h2, -⟩, h5, h6⟩
        exact ⟨h1, h2, ⟨h3, h4⟩, h5, h6⟩

theorem Memory.wf_nil : Memory.wf [] = true := rfl

/-- Leaving cells out keeps the form. -/
theorem Memory.wf_filter (p : Host.Cell → Bool) (m : Memory) (h : Memory.wf m = true) : Memory.wf (m.filter p) = true := by
  rw [Memory.wf_iff] at *
  exact ⟨fun c hc => h.1 c (List.mem_of_mem_filter hc), h.2.filter p⟩

/-- Where the cells of a value lie, and that none is 0. -/
theorem mem_cellsOf (n a v : Nat) (c : Host.Cell) (hc : c ∈ cellsOf a v n) : a ≤ c.1 ∧ c.1 < a + n ∧ c.2 ≠ 0 := by
  induction n generalizing a v with
  | zero => simp [cellsOf] at hc
  | succ n ih =>
    unfold cellsOf at hc
    split at hc
    · have := ih _ _ hc
      exact ⟨by omega, by omega, this.2.2⟩
    · rcases List.mem_cons.1 hc with rfl | hc
      · refine ⟨Nat.le_refl _, by omega, fun h0 => ?_⟩
        have := congrArg BitVec.toNat h0
        simp [BitVec.toNat_ofNat] at this
        omega
      · have := ih _ _ hc
        exact ⟨by omega, by omega, this.2.2⟩

theorem pairwise_cellsOf (n a v : Nat) : (cellsOf a v n).Pairwise (fun x y => x.1 < y.1) := by
  induction n generalizing a v with
  | zero => simp [cellsOf]
  | succ n ih =>
    unfold cellsOf
    split
    · exact ih _ _
    · refine List.pairwise_cons.2 ⟨fun c hc => ?_, ih _ _⟩
      have := mem_cellsOf _ _ _ _ hc
      show a < c.1
      omega

/-- A write keeps the canonical form. -/
theorem Memory.wf_writeNat (m : Memory) (a n v : Nat) (h : Memory.wf m = true) : Memory.wf (writeNat m a n v) = true := by
  rw [Memory.wf_iff] at *
  obtain ⟨h0, hp⟩ := h
  refine ⟨fun c hc => ?_, ?_⟩
  · simp only [writeNat, List.mem_append, List.mem_filter] at hc
    rcases hc with ⟨hc, -⟩ | hc | ⟨hc, -⟩
    · exact h0 c hc
    · exact (mem_cellsOf _ _ _ _ hc).2.2
    · exact h0 c hc
  · rw [writeNat, List.pairwise_append, List.pairwise_append]
    refine ⟨hp.filter _, ⟨pairwise_cellsOf _ _ _, hp.filter _, ?_⟩, ?_⟩
    · intro x hx y hy
      have := mem_cellsOf _ _ _ _ hx
      have := of_decide_eq_true (List.mem_filter.1 hy).2
      omega
    · intro x hx y hy
      have hx := of_decide_eq_true (List.mem_filter.1 hx).2
      rcases List.mem_append.1 hy with hy | hy
      · have := mem_cellsOf _ _ _ _ hy
        omega
      · have := of_decide_eq_true (List.mem_filter.1 hy).2
        omega

/-- A masked write keeps the canonical form. -/
theorem Memory.wf_writeMasked (m : Memory) (a n mask v : Nat) (h : Memory.wf m = true) : Memory.wf (writeMasked m a n mask v) = true := by
  unfold writeMasked
  generalize List.range n = l
  induction l generalizing m with
  | nil => exact h
  | cons i l ih =>
    simp only [List.foldl_cons]
    apply ih
    split
    · exact Memory.wf_writeNat _ _ _ _ h
    · exact h

/-- A byte that no cell lists reads 0. -/
theorem readByte_absent (m : Memory) (a : Nat) (h : ∀ c ∈ m, c.1 ≠ a) : readByte m a = 0 := by
  induction m with
  | nil => rfl
  | cons c r ih =>
    rw [readByte, if_neg (h c (List.mem_cons_self ..))]
    exact ih (fun d hd => h d (List.mem_cons_of_mem _ hd))

theorem readByte_append (m r : Memory) (a : Nat) :
    readByte (m ++ r) a = if m.any (fun c => c.1 == a) then readByte m a else readByte r a := by
  induction m with
  | nil => rfl
  | cons c m ih =>
    simp only [List.cons_append, readByte, List.any_cons, Bool.or_eq_true, beq_iff_eq]
    by_cases h : c.1 = a
    · simp [h]
    · simp [h, ih]

theorem readByte_filter (p : Host.Cell → Bool) (m : Memory) (a : Nat) (hp : ∀ c ∈ m, c.1 = a → p c = true) :
    readByte (m.filter p) a = readByte m a := by
  induction m with
  | nil => rfl
  | cons c r ih =>
    have ih := ih (fun d hd => hp d (List.mem_cons_of_mem _ hd))
    by_cases h : c.1 = a
    · have := hp c (List.mem_cons_self ..) h
      simp [this, readByte, h]
    · rw [List.filter_cons]
      split <;> simp [readByte, h, ih]

theorem readByte_cellsOf (n a v i : Nat) (h : i < n) : readByte (cellsOf a v n) (a + i) = BitVec.ofNat 8 (v / 256 ^ i) := by
  induction n generalizing a v i with
  | zero => omega
  | succ n ih =>
    unfold cellsOf
    cases i with
    | zero =>
      split
      · rename_i h0
        rw [readByte_absent]
        · apply BitVec.eq_of_toNat_eq
          simp [h0]
        · intro c hc
          have := mem_cellsOf _ _ _ _ hc
          omega
      · simp [readByte]
    | succ i =>
      have e : a + (i + 1) = a + 1 + i := by omega
      have d : v / 256 ^ (i + 1) = v / 256 / 256 ^ i := by rw [Nat.pow_succ, Nat.mul_comm, Nat.div_div_eq_div_mul]
      split
      · rw [e, ih _ _ _ (by omega), d]
      · rw [readByte, if_neg (by simp), e, ih _ _ _ (by omega), d]

/-- A read of a written byte gives it. -/
theorem readByte_writeNat_in (m : Memory) (a n v i : Nat) (h : i < n) : readByte (writeNat m a n v) (a + i) = BitVec.ofNat 8 (v / 256 ^ i) := by
  rw [writeNat, readByte_append, readByte_append]
  have h1 : (m.filter (fun c => decide (c.1 < a))).any (fun c => c.1 == a + i) = false := by
    simp only [List.any_eq_false, List.mem_filter, decide_eq_true_eq, beq_iff_eq]
    rintro c ⟨-, hc⟩ e
    omega
  have h2 : readByte (m.filter (fun c => decide (a + n ≤ c.1))) (a + i) = 0 := by
    apply readByte_absent
    intro c hc
    have := of_decide_eq_true (List.mem_filter.1 hc).2
    omega
  rw [if_neg (by simp [h1]), h2]
  split
  · exact readByte_cellsOf _ _ _ _ h
  · rename_i hn
    rw [← readByte_cellsOf n a v i h, readByte_absent]
    intro c hc hx
    apply hn
    simp only [List.any_eq_true, beq_iff_eq]
    exact ⟨c, hc, hx⟩

/-- A write leaves every byte outside. -/
theorem readByte_writeNat_out (m : Memory) (a n v b : Nat) (h : b < a ∨ a + n ≤ b) : readByte (writeNat m a n v) b = readByte m b := by
  rw [writeNat, readByte_append, readByte_append]
  have hc : (cellsOf a v n).any (fun c => c.1 == b) = false := by
    simp only [List.any_eq_false, beq_iff_eq]
    intro c hc e
    have := mem_cellsOf _ _ _ _ hc
    omega
  rw [if_neg (c := (cellsOf a v n).any (fun c => c.1 == b) = true) (by simp [hc])]
  rcases h with h | h
  · split
    · apply readByte_filter
      rintro c - e
      simp [e, h]
    · rename_i hn
      rw [readByte_absent, readByte_absent]
      · intro c hm e
        apply hn
        simp only [List.any_eq_true, List.mem_filter, beq_iff_eq]
        exact ⟨c, ⟨hm, by simp; omega⟩, e⟩
      · intro c hm e
        have := of_decide_eq_true (List.mem_filter.1 hm).2
        omega
  · rw [if_neg]
    · apply readByte_filter
      rintro c - e
      simp [e, h]
    · simp only [List.any_eq_true, List.mem_filter, beq_iff_eq, not_exists, not_and, and_imp]
      rintro c - hc e
      have := of_decide_eq_true hc
      omega

/-- A read of all the written bytes gives the value, cut to their number. -/
theorem readNat_writeNat (m : Memory) (a n v : Nat) : readNat (writeNat m a n v) a n = v % 256 ^ n := by
  suffices h : ∀ k i, i + k = n → readNat (writeNat m a n v) (a + i) k = v / 256 ^ i % 256 ^ k by
    have := h n 0 (by omega)
    simpa using this
  intro k
  induction k with
  | zero => intro i _; simp [readNat, Nat.mod_one]
  | succ k ih =>
    intro i hi
    have e : a + i + 1 = a + (i + 1) := by omega
    rw [readNat, readByte_writeNat_in _ _ _ _ _ (by omega), e, ih (i + 1) (by omega), BitVec.toNat_ofNat]
    rw [Nat.pow_succ 256 i, ← Nat.div_div_eq_div_mul, Nat.pow_succ 256 k, Nat.mul_comm (256 ^ k) 256, Nat.mod_mul]

/-- A multi-byte read does not see a write beside it. -/
theorem readNat_writeNat_out (m : Memory) (a n v b k : Nat) (h : b + k ≤ a ∨ a + n ≤ b) : readNat (writeNat m a n v) b k = readNat m b k := by
  induction k generalizing b with
  | zero => rfl
  | succ k ih =>
    rw [readNat, readNat, readByte_writeNat_out _ _ _ _ _ (by omega), ih (b + 1) (by omega)]

/-- A listed byte of a memory in canonical form is what the list says. -/
theorem readByte_of_mem (m : Memory) (h : Memory.wf m = true) (c : Host.Cell) (hc : c ∈ m) : readByte m c.1 = c.2 := by
  induction m with
  | nil => simp at hc
  | cons d r ih =>
    have hw := (Memory.wf_iff _).1 h
    have hp := List.pairwise_cons.1 hw.2
    rcases List.mem_cons.1 hc with rfl | hc
    · simp [readByte]
    · have := hp.1 c hc
      rw [readByte, if_neg (by omega)]
      exact ih ((Memory.wf_iff _).2 ⟨fun x hx => hw.1 x (List.mem_cons_of_mem _ hx), hp.2⟩) hc

/-- Memories in canonical form that read alike are equal. -/
theorem Memory.ext_of_wf (m r : Memory) (hm : Memory.wf m = true) (hr : Memory.wf r = true) (h : ∀ a, readByte m a = readByte r a) : m = r := by
  have mem_iff : ∀ (x y : Memory), Memory.wf x = true → Memory.wf y = true → (∀ a, readByte x a = readByte y a) → ∀ c ∈ x, c ∈ y := by
    intro x y hx hy hxy c hc
    have h1 := readByte_of_mem x hx c hc
    have h2 : readByte y c.1 ≠ 0 := by
      rw [← hxy, h1]
      exact ((Memory.wf_iff _).1 hx).1 c hc
    by_contra hn
    apply h2
    apply readByte_absent
    intro d hd e
    have := readByte_of_mem y hy d hd
    apply hn
    have : d = c := Prod.ext e (by rw [← this, e, ← hxy, h1])
    exact this ▸ hd
  have pm := ((Memory.wf_iff _).1 hm).2
  have pr := ((Memory.wf_iff _).1 hr).2
  have perm : m.Perm r := by
    apply (List.perm_ext_iff_of_nodup _ _).2
    · intro c
      exact ⟨mem_iff m r hm hr h c, mem_iff r m hr hm (fun a => (h a).symm) c⟩
    · exact pm.imp (fun {a b} hab e => absurd hab (by rw [e]; exact Nat.lt_irrefl _))
    · exact pr.imp (fun {a b} hab e => absurd hab (by rw [e]; exact Nat.lt_irrefl _))
  apply perm.eq_of_pairwise (le := fun a b => a.1 < b.1) _ pm pr
  intro a b _ _ hab hba
  omega

end Sys2Proof.Machine
end

