-- ==== Sys2Proof/Laws/Keep.lean ====
section
/-!
SUPPORT. What it means that a function keeps the memories' form, and that a meaning goes on and keeps it, with the rules by which the later files build such facts from the functions' parts.
-/
namespace Sys2Proof.Machine

/-- Under P, a state's memories have their form. P is the form of the state before, or nothing that holds. -/
def Keep (P : Prop) (t : State) : Prop := P → t.Inv
def KeepO (P : Prop) (o : Option State) : Prop := ∀ t, o = some t → Keep P t
/-- Under P, a core's scratchpad has its form. -/
def KeepC (P : Prop) (k : Core) : Prop := P → Memory.wf k.pad = true
def KeepCO (P : Prop) (o : Option Core) : Prop := ∀ k, o = some k → KeepC P k
abbrev KeepP {α : Type} (P : Prop) (p : α × State) : Prop := Keep P p.2
/-- A meaning answers a next state, which keeps the form. -/
def Good (P : Prop) (o : Out) : Prop := ∃ t, o = .next t ∧ Keep P t

variable {P : Prop}

theorem Keep.mk {t : State} (h : P → Memory.wf t.mem = true ∧ Memory.wf t.port = true ∧ Memory.wf t.core.pad = true ∧ ∀ k ∈ t.others, Memory.wf k.pad = true) : Keep P t :=
  fun p => ⟨(h p).1, (h p).2.1, (h p).2.2.1, (h p).2.2.2⟩
theorem Keep.out {t : State} (h : Keep P t) : P → Memory.wf t.mem = true ∧ Memory.wf t.port = true ∧ Memory.wf t.core.pad = true ∧ ∀ k ∈ t.others, Memory.wf k.pad = true :=
  fun p => ⟨(h p).mem, (h p).port, (h p).pad, (h p).pads⟩
theorem Keep.ofParts {t u : State} (h : Keep P t) (hm : u.mem = t.mem) (hp : u.port = t.port) (hc : u.core = t.core) (ho : u.others = t.others) : Keep P u :=
  Keep.mk (hm ▸ hp ▸ hc ▸ ho ▸ Keep.out h)
theorem Keep.memWrite {m p c : Memory} {o : List Core} {a n v : Nat} (h : P → Memory.wf m = true ∧ Memory.wf p = true ∧ Memory.wf c = true ∧ ∀ k ∈ o, Memory.wf k.pad = true) :
    P → Memory.wf (writeNat m a n v) = true ∧ Memory.wf p = true ∧ Memory.wf c = true ∧ ∀ k ∈ o, Memory.wf k.pad = true :=
  fun q => ⟨Memory.wf_writeNat _ _ _ _ (h q).1, (h q).2⟩
theorem Keep.portWrite {m p c : Memory} {o : List Core} {a n v : Nat} (h : P → Memory.wf m = true ∧ Memory.wf p = true ∧ Memory.wf c = true ∧ ∀ k ∈ o, Memory.wf k.pad = true) :
    P → Memory.wf m = true ∧ Memory.wf (writeNat p a n v) = true ∧ Memory.wf c = true ∧ ∀ k ∈ o, Memory.wf k.pad = true :=
  fun q => ⟨(h q).1, Memory.wf_writeNat _ _ _ _ (h q).2.1, (h q).2.2⟩
theorem Keep.memMasked {m p c : Memory} {o : List Core} {a n k v : Nat} (h : P → Memory.wf m = true ∧ Memory.wf p = true ∧ Memory.wf c = true ∧ ∀ k ∈ o, Memory.wf k.pad = true) :
    P → Memory.wf (writeMasked m a n k v) = true ∧ Memory.wf p = true ∧ Memory.wf c = true ∧ ∀ k ∈ o, Memory.wf k.pad = true :=
  fun q => ⟨Memory.wf_writeMasked _ _ _ _ _ (h q).1, (h q).2⟩
theorem Keep.memFilter {m p c : Memory} {o : List Core} {f : Host.Cell → Bool} (h : P → Memory.wf m = true ∧ Memory.wf p = true ∧ Memory.wf c = true ∧ ∀ k ∈ o, Memory.wf k.pad = true) :
    P → Memory.wf (m.filter f) = true ∧ Memory.wf p = true ∧ Memory.wf c = true ∧ ∀ k ∈ o, Memory.wf k.pad = true :=
  fun q => ⟨Memory.wf_filter _ _ (h q).1, (h q).2⟩

theorem KeepC.mk {k : Core} (h : P → Memory.wf k.pad = true) : KeepC P k := h
theorem KeepC.out {k : Core} (h : KeepC P k) : P → Memory.wf k.pad = true := h
theorem KeepC.write {m : Memory} {a n v : Nat} (h : P → Memory.wf m = true) : P → Memory.wf (writeNat m a n v) = true := fun q => Memory.wf_writeNat _ _ _ _ (h q)
theorem KeepC.masked {m : Memory} {a n k v : Nat} (h : P → Memory.wf m = true) : P → Memory.wf (writeMasked m a n k v) = true := fun q => Memory.wf_writeMasked _ _ _ _ _ (h q)
theorem KeepC.fold {α : Type} {l : List α} {f : Core → α → Core} (hf : ∀ k a, KeepC P k → KeepC P (f k a)) {k : Core} (h : KeepC P k) : KeepC P (l.foldl f k) := by
  induction l generalizing k with
  | nil => exact h
  | cons a l ih => exact ih (hf k a h)
theorem KeepC.bytes {α : Type} {l : List α} {f : Memory → α → Memory} (hf : ∀ m a, (P → Memory.wf m = true) → P → Memory.wf (f m a) = true) {m : Memory} (h : P → Memory.wf m = true) : P → Memory.wf (l.foldl f m) = true := by
  induction l generalizing m with
  | nil => exact h
  | cons a l ih => exact ih (hf m a h)
theorem KeepC.ofSome {o : Option Core} {k : Core} (e : o = some k) (h : KeepCO P o) : KeepC P k := h k e
theorem KeepCO.ofNone : KeepCO P none := fun _ e => by cases e
theorem KeepCO.ofSome {k : Core} (h : KeepC P k) : KeepCO P (some k) := fun _ e => by cases e; exact h
theorem KeepCO.bind {o : Option Core} {f : Core → Option Core} (h : KeepCO P o) (hf : ∀ k, KeepC P k → KeepCO P (f k)) : KeepCO P (o.bind f) := by
  cases o with
  | none => exact KeepCO.ofNone
  | some x => exact hf x (h x rfl)
theorem KeepCO.fold {α : Type} {l : List α} {f : Option Core → α → Option Core} (hf : ∀ o a, KeepCO P o → KeepCO P (f o a)) {o : Option Core} (h : KeepCO P o) : KeepCO P (l.foldl f o) := by
  induction l generalizing o with
  | nil => exact h
  | cons a l ih => exact ih (hf o a h)
theorem KeepCO.findSome {l : List Core} {f : Core → Option Core} (hf : ∀ k, KeepC P k → KeepCO P (f k)) (h : ∀ k ∈ l, KeepC P k) : KeepCO P (l.findSome? f) := by
  induction l with
  | nil => exact KeepCO.ofNone
  | cons a l ih =>
    rw [List.findSome?_cons]
    split
    · rename_i t e
      exact KeepCO.ofSome (hf a (h a List.mem_cons_self) t e)
    · exact ih fun k hk => h k (List.mem_cons_of_mem _ hk)
theorem Keep.core {s : State} (h : Keep P s) : KeepC P s.core := fun q => (h q).pad
theorem Keep.allCores {s : State} (h : Keep P s) : ∀ k ∈ s.allCores, KeepC P k := fun k hk q => by
  rcases List.mem_cons.1 hk with rfl | hk
  · exact (h q).pad
  · exact (h q).pads k hk
theorem Keep.ofSome {o : Option State} {t : State} (e : o = some t) (h : KeepO P o) : Keep P t := h t e
theorem Keep.ofPair {α : Type} {p : α × State} {a : α} {t : State} (e : p = (a, t)) (h : KeepP P p) : Keep P t := by
  rw [e] at h; exact h
theorem Keep.ite {c : Prop} [Decidable c] {a b : State} (ha : Keep P a) (hb : Keep P b) : Keep P (if c then a else b) := by
  split
  · exact ha
  · exact hb

theorem KeepO.ofNone : KeepO P none := fun _ e => by cases e
theorem KeepO.ofSome {t : State} (h : Keep P t) : KeepO P (some t) := fun _ e => by cases e; exact h
theorem KeepO.ite {c : Prop} [Decidable c] {a b : Option State} (ha : KeepO P a) (hb : KeepO P b) : KeepO P (if c then a else b) := by
  split
  · exact ha
  · exact hb
theorem KeepO.getD {o : Option State} {t : State} (h : KeepO P o) (ht : Keep P t) : Keep P (o.getD t) := by
  cases o with
  | none => exact ht
  | some x => exact h x rfl
theorem KeepO.map {o : Option State} {f : State → State} (hf : ∀ t, Keep P t → Keep P (f t)) (h : KeepO P o) : KeepO P (o.map f) := by
  cases o with
  | none => exact KeepO.ofNone
  | some x => exact KeepO.ofSome (hf x (h x rfl))
theorem KeepO.mapAny {α : Type} {o : Option α} {f : α → State} (hf : ∀ a, o = some a → Keep P (f a)) : KeepO P (o.map f) := by
  cases o with
  | none => exact KeepO.ofNone
  | some x => exact KeepO.ofSome (hf x rfl)
theorem KeepO.bindAny {α : Type} {o : Option α} {f : α → Option State} (hf : ∀ a, o = some a → KeepO P (f a)) : KeepO P (o.bind f) := by
  cases o with
  | none => exact KeepO.ofNone
  | some x => exact hf x rfl
theorem KeepO.foldl {α : Type} {l : List α} {f : Option State → α → Option State} (hf : ∀ o a, KeepO P o → KeepO P (f o a)) {o : Option State} (h : KeepO P o) : KeepO P (l.foldl f o) := by
  induction l generalizing o with
  | nil => exact h
  | cons a l ih => exact ih (hf o a h)
theorem KeepO.bind {o : Option State} {f : State → Option State} (h : KeepO P o) (hf : ∀ t, Keep P t → KeepO P (f t)) : KeepO P (o.bind f) := by
  cases o with
  | none => exact KeepO.ofNone
  | some x => exact hf x (h x rfl)
theorem Keep.foldl {α : Type} {l : List α} {f : State → α → State} (hf : ∀ s a, Keep P s → Keep P (f s a)) {s : State} (h : Keep P s) : Keep P (l.foldl f s) := by
  induction l generalizing s with
  | nil => exact h
  | cons a l ih => exact ih (hf s a h)
theorem Good.next {t : State} (h : Keep P t) : Good P (.next t) := ⟨t, rfl, h⟩

end Sys2Proof.Machine
end

