-- ==== Sys2Proof/Laws/KeepOps.lean ====
section
/-!
SUPPORT. That each function keeps the memories' form, and each meaning goes on and keeps it: the shared operations: registers, traps, slices, translation, tiles, transfers, control space.
-/
set_option Elab.async false
namespace Sys2Proof.Machine

variable {P : Prop}

theorem State.modCore_keep (s : State) (f : Core → Core) (h : Keep P s) (hf : ∀ k, KeepC P k → KeepC P (f k)) : Keep P (s.modCore f) :=
  fun q => ⟨(h q).mem, (h q).port, hf _ (Keep.core h) q, (h q).pads⟩

theorem State.modSt_keep (s : State) (f : Strand → Strand) (hK : Keep P s) : Keep P (State.modSt s f) := by
  unfold State.modSt
  with_reducible repeat' first | assumption | refine Keep.out ?_ | (refine Keep.mk ?_; dsimp only)

theorem State.coreAt_keepC (s : State) (c : Nat) (h : Keep P s) : KeepC P (s.coreAt c) := by
  unfold State.coreAt
  split
  · exact Keep.core h
  · cases e : s.others.find? (fun k => k.id == c) with
    | none => exact fun _ => rfl
    | some k => exact fun q => (h q).pads k (List.mem_of_find?_eq_some e)

theorem mem_upsert {α : Type} {p : α → Bool} {x y : α} {l : List α} (h : y ∈ upsert p x l) : y = x ∨ y ∈ l := by
  unfold upsert at h
  split at h
  · obtain ⟨z, hz, rfl⟩ := List.mem_map.1 h
    split
    · exact .inl rfl
    · exact .inr hz
  · rcases List.mem_append.1 h with h | h
    · exact .inr h
    · exact .inl (List.mem_singleton.1 h)
theorem State.putCore_keep (s : State) (k : Core) (h : Keep P s) (hk : KeepC P k) : Keep P (s.putCore k) := by
  unfold State.putCore
  split
  · exact fun q => ⟨(h q).mem, (h q).port, hk q, (h q).pads⟩
  · refine fun q => ⟨(h q).mem, (h q).port, (h q).pad, fun x hx => ?_⟩
    rcases mem_upsert hx with rfl | hx
    · exact hk q
    · exact (h q).pads x hx

theorem State.modCoreAt_keep (s : State) (c : Nat) (f : Core → Core) (h : Keep P s) (hf : ∀ k, KeepC P k → KeepC P (f k)) : Keep P (s.modCoreAt c f) :=
  State.putCore_keep _ _ h (hf _ (State.coreAt_keepC _ _ h))

theorem State.turnTo_keep (s : State) (c : Nat) (h : Keep P s) : Keep P (s.turnTo c) := by
  unfold State.turnTo
  split
  · exact h
  · refine fun q => ⟨(h q).mem, (h q).port, State.coreAt_keepC _ _ h q, fun x hx => ?_⟩
    rcases mem_upsert hx with rfl | hx
    · exact (h q).pad
    · exact (h q).pads x (List.mem_filter.1 hx).1

theorem State.choose_keepP (s : State) (n : Nat) (hK : Keep P s) : KeepP P (State.choose s n) := by
  unfold State.choose
  with_reducible repeat' first | assumption | refine Keep.out ?_ | (refine Keep.mk ?_; dsimp only) | split

theorem State.fresh_keepP (s : State) (hK : Keep P s) : KeepP P (State.fresh s) := by
  unfold State.fresh
  with_reducible repeat' first | assumption | refine Keep.out ?_ | (refine Keep.mk ?_; dsimp only)

theorem State.modGang_keep (s : State) (id : Nat) (f : Gang → Gang) (hK : Keep P s) : Keep P (State.modGang s id f) := by
  unfold State.modGang
  with_reducible repeat' first | assumption | refine Keep.out ?_ | (refine Keep.mk ?_; dsimp only)

theorem State.rebind_keep (s : State) (asid : Nat) (hK : Keep P s) : Keep P (State.rebind s asid) := by
  unfold State.rebind
  with_reducible repeat' first | assumption | apply State.modGang_keep | refine Keep.out ?_ | (refine Keep.mk ?_; dsimp only) | split

theorem Core.modStrand_keepC (k : Core) (gang rank : Nat) (f : Strand → Strand) (hC : KeepC P k) : KeepC P (Core.modStrand k gang rank f) := by
  unfold Core.modStrand
  with_reducible repeat' first | assumption | refine KeepC.out ?_ | (refine KeepC.mk ?_; dsimp only)

theorem State.modStrand_keep (s : State) (gang rank : Nat) (f : Strand → Strand) (hK : Keep P s) : Keep P (State.modStrand s gang rank f) := by
  unfold State.modStrand
  with_reducible repeat' first | assumption | apply Core.modStrand_keepC | apply State.modCoreAt_keep | split | intro _

theorem State.setReg_keep (s : State) (r : BitVec 5) (v : Word) (hK : Keep P s) : Keep P (State.setReg s r v) := by
  unfold State.setReg
  with_reducible repeat' first | assumption | apply State.modSt_keep | split

theorem State.setMark_keep (s : State) (r : BitVec 5) (m : RegMark) (hK : Keep P s) : Keep P (State.setMark s r m) := by
  unfold State.setMark
  with_reducible repeat' first | assumption | apply State.modSt_keep

theorem State.vacate_keep (s : State) (f : Strand → Strand) (hK : Keep P s) : Keep P (State.vacate s f) := by
  unfold State.vacate
  with_reducible repeat' first | assumption | apply State.modCore_keep | refine KeepC.out ?_ | (refine KeepC.mk ?_; dsimp only) | intro _

theorem State.vector_keepP (s : State) (cur : Word) (old : Option (Word × Nat × Nat)) (hK : Keep P s) : KeepP P (State.vector s cur old) := by
  unfold State.vector
  with_reducible repeat' first | assumption | apply State.choose_keepP | refine Keep.out ?_ | (refine Keep.mk ?_; dsimp only) | split

theorem State.trapAt_keep (s : State) (cause : BitVec 8) (eval : Word) (grp depth : Nat) (psna : Option Nat) (hK : Keep P s) : Keep P (State.trapAt s cause eval grp depth psna) := by
  unfold State.trapAt
  with_reducible repeat' first | assumption | apply State.modSt_keep | apply State.vacate_keep | apply State.vector_keepP | refine Keep.out ?_ | (refine Keep.mk ?_; dsimp only) | split

theorem State.trap_keep (s : State) (cause : BitVec 8) (eval : Word) (grp : Nat) (hK : Keep P s) : Keep P (State.trap s cause eval grp) := by
  unfold State.trap
  with_reducible repeat' first | assumption | apply State.trapAt_keep

theorem State.given_good {s : State} {c : Chk} {k : Out} (h : Keep P s) (hk : Good P k) : Good P (s.given c k) := by
  unfold State.given
  split
  · exact hk
  · exact Good.next h
  · exact Good.next (State.trapAt_keep _ _ _ _ _ _ h)

theorem State.finish_keep (s : State) (hK : Keep P s) : Keep P (State.finish s) := by
  unfold State.finish
  with_reducible repeat' first | assumption | apply State.modSt_keep

theorem State.finishQ_keep (s : State) (hK : Keep P s) : Keep P (State.finishQ s) := by
  unfold State.finishQ
  with_reducible repeat' first | assumption | apply State.modSt_keep

theorem State.jump_keep (s : State) (target : Pc) (hK : Keep P s) : Keep P (State.jump s target) := by
  unfold State.jump
  with_reducible repeat' first | assumption | apply State.modSt_keep

theorem State.eret_keep (s : State) (hK : Keep P s) : Keep P (State.eret s) := by
  unfold State.eret
  with_reducible repeat' first | assumption | apply State.modSt_keep

theorem State.addFlags_keep (s : State) (f : Flags) (hK : Keep P s) : Keep P (State.addFlags s f) := by
  unfold State.addFlags
  with_reducible repeat' first | assumption | apply State.modSt_keep

theorem State.putV_keep (s : State) (v : BitVec 5) (ws : List VWrite) (hK : Keep P s) : Keep P (State.putV s v ws) := by
  unfold State.putV
  with_reducible repeat' first | assumption | apply State.modSt_keep

theorem State.putM_keep (s : State) (m : BitVec 3) (bs : List (Nat × Bool)) (hK : Keep P s) : Keep P (State.putM s m bs) := by
  unfold State.putM
  with_reducible repeat' first | assumption | apply State.modSt_keep

theorem State.vrun_good {s : State} {scalars : List (BitVec 5)} {range : Bool} {gov : List (BitVec 3)} {k : Out} (h : Keep P s) (hk : Good P k) : Good P (s.vrun scalars range gov k) := by
  unfold State.vrun
  refine State.given_good h (State.given_good h ?_)
  split
  · exact Good.next (State.finishQ_keep _ h)
  · exact hk

theorem State.vtrap_good (s : State) (cause : BitVec 8) (eval : Word) (grp : Nat) (psna : Option Nat) (hK : Keep P s) : Good P (State.vtrap s cause eval grp psna) := by
  unfold State.vtrap
  with_reducible repeat' first | assumption | refine Good.next ?_ | apply State.trapAt_keep

theorem State.elementwise_keep (s : State) (mk : BitVec 3) (d : BitVec 5) (f : Nat → ElRes) (hK : Keep P s) : Keep P (State.elementwise s mk d f) := by
  unfold State.elementwise
  with_reducible repeat' first | assumption | apply State.addFlags_keep | apply State.finishQ_keep | apply State.putV_keep

theorem State.putFrame_keep (s : State) (f : Frame) (hK : Keep P s) : Keep P (State.putFrame s f) := by
  unfold State.putFrame
  with_reducible repeat' first | assumption | refine Keep.out ?_ | (refine Keep.mk ?_; dsimp only)

theorem State.invalidate_keep (s : State) (line : Nat) (own : Option Nat) (gang rank cls : Nat) (hK : Keep P s) : Keep P (State.invalidate s line own gang rank cls) := by
  unfold State.invalidate
  with_reducible repeat' first | assumption | refine Keep.out ?_ | (refine Keep.mk ?_; dsimp only)

theorem State.writeFlat_keep (s : State) (a n v : Nat) (hK : Keep P s) : Keep P (State.writeFlat s a n v) := by
  unfold State.writeFlat
  with_reducible repeat' first | assumption | apply State.invalidate_keep | refine Keep.out ?_ | refine Keep.memWrite ?_ | (refine Keep.mk ?_; dsimp only) | split

theorem State.logEntry_keep (s : State) (at_ d0 rest : Nat) (h : Keep P s) : Keep P (s.logEntry at_ d0 rest) := by
  have all : ∀ t : State, Keep P t → Keep P { t with meWr := s.meWr + 1 } := fun t ht => Keep.ofParts ht rfl rfl rfl rfl
  exact all _ (State.writeFlat_keep _ _ _ _ (State.writeFlat_keep _ _ _ _ h))

theorem State.logErr_keep (s : State) (asid key holder kind d1 : Nat) (hK : Keep P s) : Keep P (State.logErr s asid key holder kind d1) := by
  unfold State.logErr
  repeat' first | with_reducible assumption | with_reducible apply State.logEntry_keep | with_reducible refine Keep.out ?_ | (refine Keep.mk ?_; dsimp only) | split

theorem State.countErr_keep (s : State) (field : Nat) (hK : Keep P s) : Keep P (State.countErr s field) := by
  unfold State.countErr
  with_reducible repeat' first | assumption | refine Keep.out ?_ | (refine Keep.mk ?_; dsimp only) | split

theorem State.putLine_keep (s : State) (line v : Nat) (hK : Keep P s) : Keep P (State.putLine s line v) := by
  unfold State.putLine
  with_reducible repeat' first | assumption | refine Keep.out ?_ | refine Keep.memWrite ?_ | (refine Keep.mk ?_; dsimp only)

theorem State.portWrite_keep (s : State) (line key v : Nat) (psn : Bool) (writer : Nat) (hK : Keep P s) : Keep P (State.portWrite s line key v psn writer) := by
  unfold State.portWrite
  with_reducible repeat' first | assumption | apply State.logErr_keep | refine Keep.out ?_ | refine Keep.portWrite ?_ | (refine Keep.mk ?_; dsimp only) | split

theorem State.portReadNote_keep (s : State) (line key asid : Nat) (hK : Keep P s) : Keep P (State.portReadNote s line key asid) := by
  unfold State.portReadNote
  with_reducible repeat' first | assumption | apply State.logErr_keep | refine Keep.out ?_ | (refine Keep.mk ?_; dsimp only) | split

theorem State.frameWriteBack_keep (s : State) (f : Frame) (hK : Keep P s) : Keep P (State.frameWriteBack s f) := by
  unfold State.frameWriteBack
  with_reducible repeat' first | assumption | apply State.portWrite_keep

theorem State.frameDrop_keep (s : State) (f : Frame) (wb : Bool) (hK : Keep P s) : Keep P (State.frameDrop s f wb) := by
  unfold State.frameDrop
  with_reducible repeat' first | assumption | apply State.frameWriteBack_keep | apply State.putLine_keep | refine Keep.out ?_ | (refine Keep.mk ?_; dsimp only) | split

theorem State.frameTake_keep (s : State) (line key : Nat) (psn : Bool) (writer : Nat) (hK : Keep P s) : Keep P (State.frameTake s line key psn writer) := by
  unfold State.frameTake
  with_reducible repeat' first | assumption | apply State.frameDrop_keep | apply State.putFrame_keep | refine Keep.out ?_ | (refine Keep.mk ?_; dsimp only) | split

theorem State.putCap_keep (s : State) (line key v : Nat) (psn : Bool) (writer : Nat) (hK : Keep P s) : Keep P (State.putCap s line key v psn writer) := by
  unfold State.putCap
  with_reducible repeat' first | assumption | apply State.frameTake_keep | apply State.portWrite_keep | apply State.putLine_keep | split

theorem State.dropL2_keep (s : State) (l : L2Line) (wb : Bool) (hK : Keep P s) : Keep P (State.dropL2 s l wb) := by
  unfold State.dropL2
  with_reducible repeat' first | assumption | apply State.invalidate_keep | apply State.putCap_keep | apply State.putLine_keep | refine Keep.out ?_ | (refine Keep.mk ?_; dsimp only) | split

theorem State.clearWay_keep (s : State) (line key : Nat) (hK : Keep P s) : Keep P (State.clearWay s line key) := by
  unfold State.clearWay
  with_reducible repeat' first | assumption | apply State.dropL2_keep | apply State.frameDrop_keep | refine Keep.out ?_ | (refine Keep.mk ?_; dsimp only) | split

theorem State.makeRoom_keep (s : State) (line : Nat) (hK : Keep P s) : Keep P (State.makeRoom s line) := by
  unfold State.makeRoom
  with_reducible repeat' first | assumption | apply State.dropL2_keep | refine Keep.out ?_ | (refine Keep.mk ?_; dsimp only) | split

theorem State.fillCap_keep (s : State) (line key asid : Nat) (alloc : Bool) (hK : Keep P s) : Keep P (State.fillCap s line key asid alloc) := by
  unfold State.fillCap
  with_reducible repeat' first | assumption | apply State.portReadNote_keep | apply State.putFrame_keep | apply State.putLine_keep | refine Keep.out ?_ | (refine Keep.mk ?_; dsimp only) | split

theorem State.touchL2_keep (s : State) (l : L2Line) (hK : Keep P s) : Keep P (State.touchL2 s l) := by
  unfold State.touchL2
  with_reducible repeat' first | assumption | refine Keep.out ?_ | (refine Keep.mk ?_; dsimp only)

theorem State.readCap_keep (s : State) (line key : Nat) (alloc : Bool) (asid : Nat) (hK : Keep P s) : Keep P (State.readCap s line key alloc asid) := by
  unfold State.readCap
  with_reducible repeat' first | assumption | apply State.clearWay_keep | apply State.fillCap_keep | apply State.logErr_keep | apply State.makeRoom_keep | apply State.touchL2_keep | refine Keep.out ?_ | (refine Keep.mk ?_; dsimp only) | split

theorem State.readLine_keep (s : State) (line key : Nat) (alloc : Bool) (asid : Nat) (hK : Keep P s) : Keep P (State.readLine s line key alloc asid) := by
  unfold State.readLine
  with_reducible repeat' first | assumption | apply State.makeRoom_keep | apply State.readCap_keep | apply State.touchL2_keep | refine Keep.out ?_ | (refine Keep.mk ?_; dsimp only) | split

theorem State.allocLine_keep (s : State) (line key asid : Nat) (hK : Keep P s) : Keep P (State.allocLine s line key asid) := by
  unfold State.allocLine
  with_reducible repeat' first | assumption | apply State.dropL2_keep | apply State.makeRoom_keep | apply State.putLine_keep | apply State.readLine_keep | refine Keep.out ?_ | (refine Keep.mk ?_; dsimp only) | split

theorem State.readLines_keep (s : State) (pa key n : Nat) (alloc : Bool) (asid : Nat) (hK : Keep P s) : Keep P (State.readLines s pa key n alloc asid) := by
  unfold State.readLines
  with_reducible repeat' first | assumption | apply State.readLine_keep | refine Keep.foldl (fun _ _ _ => ?_) ?_

theorem State.writeLine_keep (s : State) (line key mask v : Nat) (psn direct : Bool) (asid : Nat) (own : Option Nat) (gang rank cls : Nat) (hK : Keep P s) : Keep P (State.writeLine s line key mask v psn direct asid own gang rank cls) := by
  unfold State.writeLine
  with_reducible repeat' first | assumption | apply State.allocLine_keep | apply State.dropL2_keep | apply State.invalidate_keep | apply State.logErr_keep | apply State.putCap_keep | apply State.putLine_keep | refine Keep.out ?_ | refine Keep.memWrite ?_ | refine Keep.memMasked ?_ | (refine Keep.mk ?_; dsimp only) | split

theorem State.writePa_keep (s : State) (pa key n v bad : Nat) (direct : Bool) (asid : Nat) (own : Option Nat) (gang rank cls : Nat) (hK : Keep P s) : Keep P (State.writePa s pa key n v bad direct asid own gang rank cls) := by
  unfold State.writePa
  with_reducible repeat' first | assumption | apply State.writeLine_keep | refine Keep.foldl (fun _ _ _ => ?_) ?_

theorem State.walkNote_keep (s : State) (asid ptbase va : Nat) (hK : Keep P s) : Keep P (State.walkNote s asid ptbase va) := by
  unfold State.walkNote
  with_reducible repeat' first | assumption | apply State.readLine_keep | refine Keep.foldl (fun _ _ _ => ?_) ?_ | split

theorem State.useShared_keep (s : State) (asid ptbase va : Nat) (hK : Keep P s) : Keep P (State.useShared s asid ptbase va) := by
  unfold State.useShared
  with_reducible repeat' first | assumption | apply State.walkNote_keep | refine Keep.out ?_ | (refine Keep.mk ?_; dsimp only) | split

theorem State.useXlat_keep (s : State) (x : Xlat) (hK : Keep P s) : Keep P (State.useXlat s x) := by
  unfold State.useXlat
  with_reducible repeat' first | assumption | apply State.modCore_keep | apply State.walkNote_keep | refine Keep.out ?_ | refine KeepC.out ?_ | (refine KeepC.mk ?_; dsimp only) | (refine Keep.mk ?_; dsimp only) | split | intro _

theorem State.walkFault_keep (s : State) (va : Word) (hK : Keep P s) : Keep P (State.walkFault s va) := by
  unfold State.walkFault
  with_reducible repeat' first | assumption | apply State.useXlat_keep | apply State.walkNote_keep | split

theorem Core.padGran_keepC (k : Core) (gran mask v : Nat) (psn : Bool) (hC : KeepC P k) : KeepC P (Core.padGran k gran mask v psn) := by
  unfold Core.padGran
  with_reducible repeat' first | assumption | refine KeepC.write ?_ | refine KeepC.masked ?_ | refine KeepC.out ?_ | (refine KeepC.mk ?_; dsimp only) | split

theorem Core.padPut_keepC (k : Core) (off n v bad : Nat) (hC : KeepC P k) : KeepC P (Core.padPut k off n v bad) := by
  unfold Core.padPut
  with_reducible repeat' first | assumption | apply Core.padGran_keepC | refine KeepC.fold (fun _ _ _ => ?_) ?_

theorem State.sendReq_keep (s : State) (p : Packet) (gang rank : Nat) (kind : ReqKind) (hK : Keep P s) : Keep P (State.sendReq s p gang rank kind) := by
  unfold State.sendReq
  with_reducible repeat' first | assumption | refine Keep.out ?_ | (refine Keep.mk ?_; dsimp only) | split

theorem State.sendRead_keep (s : State) (p : Place) (n : Nat) (alloc : Bool) (gang rank : Nat) (kind : ReqKind) (hK : Keep P s) : Keep P (State.sendRead s p n alloc gang rank kind) := by
  unfold State.sendRead
  with_reducible repeat' first | assumption | apply State.sendReq_keep

theorem State.sendWrite_keep (s : State) (p : Place) (n v psn asid gang rank : Nat) (kind : ReqKind) (hK : Keep P s) : Keep P (State.sendWrite s p n v psn asid gang rank kind) := by
  unfold State.sendWrite
  with_reducible repeat' first | assumption | apply State.sendReq_keep

theorem State.sendAtomic_keep (s : State) (p : Place) (len v fn10 gang rank : Nat) (kind : ReqKind) (hK : Keep P s) : Keep P (State.sendAtomic s p len v fn10 gang rank kind) := by
  unfold State.sendAtomic
  with_reducible repeat' first | assumption | apply State.sendReq_keep

theorem State.putChunk_keep (s : State) (asid gang rank cls : Nat) (c : Chunk) (hK : Keep P s) : Keep P (State.putChunk s asid gang rank cls c) := by
  unfold State.putChunk
  with_reducible repeat' first | assumption | apply Core.padGran_keepC | apply State.modCoreAt_keep | apply State.modStrand_keep | apply State.sendWrite_keep | apply State.writeLine_keep | refine Keep.foldl (fun _ _ _ => ?_) ?_ | split | intro _

theorem State.clearWhole_keep (s : State) (cs : List Chunk) (hK : Keep P s) : Keep P (State.clearWhole s cs) := by
  unfold State.clearWhole
  with_reducible repeat' first | assumption | apply State.modCoreAt_keep | refine Keep.foldl (fun _ _ _ => ?_) ?_ | refine Keep.out ?_ | refine KeepC.out ?_ | (refine KeepC.mk ?_; dsimp only) | (refine Keep.mk ?_; dsimp only) | split | intro _

theorem State.putPlace_keep (s : State) (p : Place) (n v : Nat) (psn : Bool) (asid gang rank cls : Nat) (hK : Keep P s) : Keep P (State.putPlace s p n v psn asid gang rank cls) := by
  unfold State.putPlace
  with_reducible repeat' first | assumption | apply Core.padPut_keepC | apply State.modCore_keep | apply State.modCoreAt_keep | apply State.writePa_keep | split | intro _

theorem State.markLine_keep (s : State) (pa key asid gang rank cls : Nat) (hK : Keep P s) : Keep P (State.markLine s pa key asid gang rank cls) := by
  unfold State.markLine
  with_reducible repeat' first | assumption | apply State.writeLine_keep | split

theorem State.atomicAt_keepP (s : State) (p : Place) (n : Nat) (f : Nat → Option Nat) (psn : Bool) (asid gang rank cls : Nat) (hK : Keep P s) : KeepP P (State.atomicAt s p n f psn asid gang rank cls) := by
  unfold State.atomicAt
  with_reducible repeat' first | assumption | apply State.markLine_keep | apply State.putPlace_keep | apply State.readLines_keep | refine Keep.out ?_ | (refine Keep.mk ?_; dsimp only) | split

theorem State.logPad_keep (s : State) (asid : Nat) (hK : Keep P s) : Keep P (State.logPad s asid) := by
  unfold State.logPad
  with_reducible repeat' first | assumption | apply State.choose_keepP | apply State.logErr_keep

theorem State.spoil_keep (s : State) (p : Place) (asid gang rank cls : Nat) (hK : Keep P s) : Keep P (State.spoil s p asid gang rank cls) := by
  unfold State.spoil
  with_reducible repeat' first | assumption | apply State.logErr_keep | apply State.logPad_keep | apply State.modCore_keep | apply State.modCoreAt_keep | apply State.writeLine_keep | refine KeepC.out ?_ | (refine KeepC.mk ?_; dsimp only) | split | intro _

theorem State.amoApply_keepP (s : State) (p : Place) (n : Nat) (f : Nat → Option Nat) (asid gang rank cls : Nat) (hK : Keep P s) : KeepP P (State.amoApply s p n f asid gang rank cls) := by
  unfold State.amoApply
  with_reducible repeat' first | assumption | apply State.atomicAt_keepP | apply State.spoil_keep | refine Keep.out ?_ | (refine Keep.mk ?_; dsimp only) | split

theorem State.cpNote_keep (s : State) (asid pt va n : Nat) (hK : Keep P s) : Keep P (State.cpNote s asid pt va n) := by
  unfold State.cpNote
  with_reducible repeat' first | assumption | apply State.useShared_keep | refine Keep.foldl (fun _ _ _ => ?_) ?_

theorem State.spill_keep (s : State) (t : Strand) (kib : Nat) (hK : Keep P s) : Keep P (State.spill s t kib) := by
  unfold State.spill
  with_reducible repeat' first | assumption | apply State.writePa_keep | refine Keep.foldl (fun _ _ _ => ?_) ?_ | refine Keep.out ?_ | (refine Keep.mk ?_; dsimp only) | split

theorem State.leaveSlot_keep (s : State) (im : Image) (vecs : Nat) (f : Strand → Strand) (hK : Keep P s) : Keep P (State.leaveSlot s im vecs f) := by
  unfold State.leaveSlot
  with_reducible repeat' first | assumption | apply State.modCore_keep | apply State.spill_keep | refine KeepC.out ?_ | (refine KeepC.mk ?_; dsimp only) | dsimp only | intro _

theorem State.suspend_keep (s : State) (w : Wait) (live : Word) (pc wpc : Pc) (hK : Keep P s) : Keep P (State.suspend s w live pc wpc) := by
  unfold State.suspend
  with_reducible repeat' first | assumption | apply State.leaveSlot_keep | apply State.modSt_keep | refine Keep.out ?_ | (refine Keep.mk ?_; dsimp only) | split

theorem Core.wakeIf_keepC (k : Core) (now : Nat) (p : Strand → Bool) (hC : KeepC P k) : KeepC P (Core.wakeIf k now p) := by
  unfold Core.wakeIf
  with_reducible repeat' first | assumption | refine KeepC.out ?_ | (refine KeepC.mk ?_; dsimp only)

theorem State.wakeIf_keep (s : State) (c : Nat) (p : Strand → Bool) (hK : Keep P s) : Keep P (State.wakeIf s c p) := by
  unfold State.wakeIf
  with_reducible repeat' first | assumption | apply Core.wakeIf_keepC | apply State.modCoreAt_keep | intro _

theorem Core.modToken_keepC (k : Core) (slot : Nat) (f : Token → Token) (hC : KeepC P k) : KeepC P (Core.modToken k slot f) := by
  unfold Core.modToken
  with_reducible repeat' first | assumption | refine KeepC.out ?_ | (refine KeepC.mk ?_; dsimp only)

theorem State.toToken_keep (s : State) (m : TokMsg) (asid : Nat) (hK : Keep P s) : Keep P (State.toToken s m asid) := by
  unfold State.toToken
  with_reducible repeat' first | assumption | apply Core.modToken_keepC | apply State.modCoreAt_keep | refine Keep.out ?_ | (refine Keep.mk ?_; dsimp only) | split | intro _

theorem State.reply_keep (s : State) (p : Packet) (hK : Keep P s) : Keep P (State.reply s p) := by
  unfold State.reply
  with_reducible repeat' first | assumption | refine Keep.out ?_ | (refine Keep.mk ?_; dsimp only) | split

theorem State.modXfer_keep (s : State) (id : Nat) (f : Xfer → Xfer) (hK : Keep P s) : Keep P (State.modXfer s id f) := by
  unfold State.modXfer
  with_reducible repeat' first | assumption | refine Keep.out ?_ | (refine Keep.mk ?_; dsimp only)

theorem State.endAt_keep (s : State) (a : Arrival) (hK : Keep P s) : Keep P (State.endAt s a) := by
  unfold State.endAt
  with_reducible repeat' first | assumption | refine Keep.out ?_ | (refine Keep.mk ?_; dsimp only)

theorem State.endOwned_keep (s : State) (x : Xfer) (hK : Keep P s) : Keep P (State.endOwned s x) := by
  unfold State.endOwned
  with_reducible repeat' first | assumption | apply State.endAt_keep | refine Keep.out ?_ | (refine Keep.mk ?_; dsimp only) | split

theorem State.cutXfer_keep (s : State) (id : Nat) (hK : Keep P s) : Keep P (State.cutXfer s id) := by
  unfold State.cutXfer
  with_reducible repeat' first | assumption | apply State.endAt_keep | apply State.endOwned_keep | apply State.modCoreAt_keep | apply State.modXfer_keep | refine Keep.foldl (fun _ _ _ => ?_) ?_ | refine Keep.out ?_ | refine KeepC.out ?_ | (refine KeepC.mk ?_; dsimp only) | (refine Keep.mk ?_; dsimp only) | split | intro _

theorem State.xferFail_keep (s : State) (id status part : Nat) (eval : Word) (hK : Keep P s) : Keep P (State.xferFail s id status part eval) := by
  unfold State.xferFail
  with_reducible repeat' first | assumption | apply State.cutXfer_keep | apply State.endOwned_keep | apply State.modStrand_keep | apply State.modXfer_keep | refine Keep.out ?_ | (refine Keep.mk ?_; dsimp only) | split

theorem State.xferAnswer_keep (s : State) (id status part len : Nat) (eval : Word) (hK : Keep P s) : Keep P (State.xferAnswer s id status part len eval) := by
  unfold State.xferAnswer
  with_reducible repeat' first | assumption | apply State.modXfer_keep | apply State.xferFail_keep | refine Keep.out ?_ | (refine Keep.mk ?_; dsimp only) | split

theorem State.tileLanded_keep (s : State) (id tile len : Nat) (last answered : Bool) (hK : Keep P s) : Keep P (State.tileLanded s id tile len last answered) := by
  unfold State.tileLanded
  with_reducible repeat' first | assumption | apply State.modXfer_keep

theorem State.unlock_keep (s : State) (x : Xfer) (all : Bool) (hK : Keep P s) : Keep P (State.unlock s x all) := by
  unfold State.unlock
  with_reducible repeat' first | assumption | apply State.modCoreAt_keep | refine KeepC.out ?_ | (refine KeepC.mk ?_; dsimp only) | split | intro _

theorem State.xferFinish_keep (s : State) (x : Xfer) (hK : Keep P s) : Keep P (State.xferFinish s x) := by
  unfold State.xferFinish
  with_reducible repeat' first | assumption | apply State.modStrand_keep | apply State.toToken_keep | apply State.unlock_keep | refine Keep.out ?_ | (refine Keep.mk ?_; dsimp only) | split

theorem State.sendArrival_keep (s : State) (a : Arrival) (asid gang rank : Nat) (hK : Keep P s) : Keep P (State.sendArrival s a asid gang rank) := by
  unfold State.sendArrival
  with_reducible repeat' first | assumption | apply State.sendReq_keep | refine Keep.out ?_ | (refine Keep.mk ?_; dsimp only) | split

theorem State.sendCast_keepO (s : State) (g : Nat) (a : Arrival) (asid gang rank : Nat) (hK : Keep P s) : KeepO P (State.sendCast s g a asid gang rank) := by
  unfold State.sendCast
  with_reducible repeat' first | assumption | exact KeepO.ofNone | apply State.modXfer_keep | apply State.xferFail_keep | refine KeepO.ofSome ?_ | refine Keep.out ?_ | (refine Keep.mk ?_; dsimp only) | dsimp only | split

theorem State.lockRange_keep (s : State) (id lo hi : Nat) (dest : Bool) (hK : Keep P s) : Keep P (State.lockRange s id lo hi dest) := by
  unfold State.lockRange
  with_reducible repeat' first | assumption | apply State.modCore_keep | refine KeepC.out ?_ | (refine KeepC.mk ?_; dsimp only) | split | intro _

theorem Core.putTile_keepC (k : Core) (t : Tile) (hC : KeepC P k) : KeepC P (Core.putTile k t) := by
  unfold Core.putTile
  with_reducible repeat' first | assumption | refine KeepC.out ?_ | (refine KeepC.mk ?_; dsimp only) | split

theorem Core.modTile_keepC (k : Core) (idx : Nat) (f : Tile → Tile) (hC : KeepC P k) : KeepC P (Core.modTile k idx f) := by
  unfold Core.modTile
  with_reducible repeat' first | assumption | apply Core.putTile_keepC

theorem Core.tileWrite_keepC (k : Core) (idx mask data psn : Nat) (hC : KeepC P k) : KeepC P (Core.tileWrite k idx mask data psn) := by
  unfold Core.tileWrite
  with_reducible repeat' first | assumption | apply Core.padGran_keepC | refine KeepC.fold (fun _ _ _ => ?_) ?_ | refine KeepC.out ?_ | (refine KeepC.mk ?_; dsimp only) | split

theorem State.tileArrival_keep (s : State) (c : Nat) (t : Tile) (hK : Keep P s) : Keep P (State.tileArrival s c t) := by
  unfold State.tileArrival
  with_reducible repeat' first | assumption | apply State.toToken_keep | refine Keep.out ?_ | (refine Keep.mk ?_; dsimp only) | split

theorem State.wakeTile_keep (s : State) (c idx : Nat) (hK : Keep P s) : Keep P (State.wakeTile s c idx) := by
  unfold State.wakeTile
  with_reducible repeat' first | assumption | apply State.wakeIf_keep

theorem State.becameFull_keep (s : State) (c idx : Nat) (hK : Keep P s) : Keep P (State.becameFull s c idx) := by
  unfold State.becameFull
  with_reducible repeat' first | assumption | apply State.tileArrival_keep | apply State.wakeTile_keep

theorem State.fillAnswer_keep (s : State) (a : Arrival) (status x : Nat) (hK : Keep P s) : Keep P (State.fillAnswer s a status x) := by
  unfold State.fillAnswer
  with_reducible repeat' first | assumption | apply State.modXfer_keep | apply State.tileLanded_keep | apply State.xferAnswer_keep | refine Keep.out ?_ | (refine Keep.mk ?_; dsimp only) | split

theorem State.nextRun_keep (s : State) (a : Arrival) (hK : Keep P s) : Keep P (State.nextRun s a) := by
  unfold State.nextRun
  with_reducible repeat' first | assumption | apply State.modXfer_keep | apply State.sendArrival_keep | apply State.sendCast_keepO | refine Keep.ofSome (by assumption) ?_ | refine Keep.out ?_ | (refine Keep.mk ?_; dsimp only) | split

theorem State.endRun_keep (s : State) (a : Arrival) (hK : Keep P s) : Keep P (State.endRun s a) := by
  unfold State.endRun
  with_reducible repeat' first | assumption | apply State.endAt_keep | refine Keep.out ?_ | (refine Keep.mk ?_; dsimp only) | split

theorem State.arrivalDone_keep (s : State) (a : Arrival) (status : Nat) (hK : Keep P s) : Keep P (State.arrivalDone s a status) := by
  unfold State.arrivalDone
  with_reducible repeat' first | assumption | apply State.endRun_keep | apply State.fillAnswer_keep | apply State.nextRun_keep | apply State.reply_keep | refine Keep.foldl (fun _ _ _ => ?_) ?_ | refine Keep.out ?_ | (refine Keep.mk ?_; dsimp only) | split

theorem State.landFill_keep (s : State) (c idx : Nat) (a : Arrival) (hK : Keep P s) : Keep P (State.landFill s c idx a) := by
  unfold State.landFill
  with_reducible repeat' first | assumption | apply Core.modTile_keepC | apply Core.tileWrite_keepC | apply State.arrivalDone_keep | apply State.becameFull_keep | apply State.modCoreAt_keep | split | intro _

theorem State.letIn_keep (s : State) (c idx n : Nat) (h : Keep P s) : Keep P (s.letIn c idx n) := by
  induction n generalizing s with
  | zero => exact h
  | succ n ih =>
    unfold State.letIn
    dsimp only
    split
    · exact h
    · exact ih _ (State.landFill_keep _ _ _ _ (State.modCoreAt_keep _ _ _ h (fun _ h => KeepC.mk h)))

theorem State.tileCombineNow_keep (s : State) (c idx : Nat) (hK : Keep P s) : Keep P (State.tileCombineNow s c idx) := by
  unfold State.tileCombineNow
  with_reducible repeat' first | assumption | apply Core.modTile_keepC | apply Core.tileWrite_keepC | apply State.becameFull_keep | apply State.modCoreAt_keep | refine Keep.out ?_ | (refine Keep.mk ?_; dsimp only) | split | intro _

theorem State.contribute_keepO (s : State) (c idx : Nat) (a : Arrival) (hK : Keep P s) : KeepO P (State.contribute s c idx a) := by
  unfold State.contribute
  with_reducible repeat' first | assumption | exact KeepO.ofNone | apply Core.modTile_keepC | apply State.arrivalDone_keep | apply State.modCoreAt_keep | apply State.tileCombineNow_keep | refine KeepO.ofSome ?_ | dsimp only | split | intro _

theorem State.present_keep (s : State) (c idx n : Nat) (h : Keep P s) : Keep P (s.present c idx n) := by
  induction n generalizing s with
  | zero => exact h
  | succ n ih =>
    unfold State.present
    dsimp only
    split
    · exact h
    · split
      · exact h
      · rename_i rest _
        have hm : Keep P (s.modCoreAt c (fun k => { k with overrun := rest })) := State.modCoreAt_keep _ _ _ h (fun _ h => KeepC.mk h)
        split
        · rename_i e
          exact ih _ (State.contribute_keepO _ _ _ _ hm _ e)
        · exact h

theorem State.putQueue_keep (s : State) (x : Queue) (hK : Keep P s) : Keep P (State.putQueue s x) := by
  unfold State.putQueue
  with_reducible repeat' first | assumption | refine Keep.out ?_ | (refine Keep.mk ?_; dsimp only)

end Sys2Proof.Machine
end

