-- ==== Sys2Proof/Laws/KeepInstr.lean ====
section
/-!
SUPPORT. That each function keeps the memories' form, and each meaning goes on and keeps it: scalar, vector, memory, matrix, tile, copy, token, group and strand instructions.
-/
set_option Elab.async false
namespace Sys2Proof.Machine

variable {P : Prop}

theorem State.scalarAccess_good {s : State} {ea : Word} {n : Nat} {mis : BitVec 8} {acc : Acc} {k : WKind} {f : Place → Xlat → Out} (h : Keep P s) (hf : ∀ p x, Good P (f p x)) :
    Good P (s.scalarAccess ea n mis acc k f) := by
  unfold State.scalarAccess
  refine State.given_good h ?_
  split
  · exact hf _ _
  · exact Good.next h
  · exact Good.next (State.trapAt_keep _ _ _ _ _ _ (State.modSt_keep _ _ (State.walkFault_keep _ _ h)))

theorem State.l1Miss_keep (s : State) (pa key : Nat) (hK : Keep P s) : Keep P (State.l1Miss s pa key) := by
  unfold State.l1Miss
  with_reducible repeat' first | assumption | apply State.readLine_keep | refine Keep.out ?_ | (refine Keep.mk ?_; dsimp only)

theorem State.answer_keep (s : State) (r : Reply) (hK : Keep P s) : Keep P (State.answer s r) := by
  unfold State.answer
  with_reducible repeat' first | assumption | refine Keep.out ?_ | (refine Keep.mk ?_; dsimp only)

theorem State.loadAt_good (s : State) (d : BitVec 5) (ea : Word) (n : Nat) (sgn : Bool) (p : Place) (x : Xlat) (hK : Keep P s) : Good P (State.loadAt s d ea n sgn p x) := by
  unfold State.loadAt
  with_reducible repeat' first | assumption | refine Good.next ?_ | apply State.answer_keep | apply State.finish_keep | apply State.l1Miss_keep | apply State.modCore_keep | apply State.modSt_keep | apply State.readLine_keep | apply State.sendRead_keep | apply State.setMark_keep | apply State.setReg_keep | apply State.trapAt_keep | apply State.useXlat_keep | refine KeepC.out ?_ | (refine KeepC.mk ?_; dsimp only) | dsimp only | split | intro _

theorem State.load_good (s : State) (regs : List (BitVec 5)) (d : BitVec 5) (ea : Word) (n : Nat) (sgn : Bool) (hK : Keep P s) : Good P (State.load s regs d ea n sgn) := by
  unfold State.load
  with_reducible repeat' first | assumption | apply State.given_good | apply State.loadAt_good | apply State.scalarAccess_good | intro _

theorem State.storeAt_good (s : State) (ea : Word) (n : Nat) (v : Word) (p : Place) (x : Xlat) (hK : Keep P s) : Good P (State.storeAt s ea n v p x) := by
  unfold State.storeAt
  with_reducible repeat' first | assumption | refine Good.next ?_ | apply State.finish_keep | apply State.modCore_keep | apply State.modSt_keep | apply State.useXlat_keep | refine KeepC.out ?_ | (refine KeepC.mk ?_; dsimp only) | dsimp only | split | intro _

theorem State.store_good (s : State) (regs : List (BitVec 5)) (src : BitVec 5) (ea : Word) (n : Nat) (hK : Keep P s) : Good P (State.store s regs src ea n) := by
  unfold State.store
  with_reducible repeat' first | assumption | apply State.given_good | apply State.scalarAccess_good | apply State.storeAt_good | intro _

theorem execLdb_good (d b : BitVec 5) (o : BitVec 12) (s : State) (hK : Keep P s) : Good P (execLdb d b o s) := by
  unfold execLdb
  with_reducible repeat' first | assumption | apply State.load_good

theorem execLdh_good (d b : BitVec 5) (o : BitVec 12) (s : State) (hK : Keep P s) : Good P (execLdh d b o s) := by
  unfold execLdh
  with_reducible repeat' first | assumption | apply State.load_good

theorem execLdw_good (d b : BitVec 5) (o : BitVec 12) (s : State) (hK : Keep P s) : Good P (execLdw d b o s) := by
  unfold execLdw
  with_reducible repeat' first | assumption | apply State.load_good

theorem execLdd_good (d b : BitVec 5) (o : BitVec 12) (s : State) (hK : Keep P s) : Good P (execLdd d b o s) := by
  unfold execLdd
  with_reducible repeat' first | assumption | apply State.load_good

theorem execLdbn_good (d b : BitVec 5) (o : BitVec 12) (s : State) (hK : Keep P s) : Good P (execLdbn d b o s) := by
  unfold execLdbn
  with_reducible repeat' first | assumption | apply State.load_good

theorem execLdhn_good (d b : BitVec 5) (o : BitVec 12) (s : State) (hK : Keep P s) : Good P (execLdhn d b o s) := by
  unfold execLdhn
  with_reducible repeat' first | assumption | apply State.load_good

theorem execLdwn_good (d b : BitVec 5) (o : BitVec 12) (s : State) (hK : Keep P s) : Good P (execLdwn d b o s) := by
  unfold execLdwn
  with_reducible repeat' first | assumption | apply State.load_good

theorem execStb_good (r b : BitVec 5) (o : BitVec 12) (s : State) (hK : Keep P s) : Good P (execStb r b o s) := by
  unfold execStb
  with_reducible repeat' first | assumption | apply State.store_good

theorem execSth_good (r b : BitVec 5) (o : BitVec 12) (s : State) (hK : Keep P s) : Good P (execSth r b o s) := by
  unfold execSth
  with_reducible repeat' first | assumption | apply State.store_good

theorem execStw_good (r b : BitVec 5) (o : BitVec 12) (s : State) (hK : Keep P s) : Good P (execStw r b o s) := by
  unfold execStw
  with_reducible repeat' first | assumption | apply State.store_good

theorem execStd_good (r b : BitVec 5) (o : BitVec 12) (s : State) (hK : Keep P s) : Good P (execStd r b o s) := by
  unfold execStd
  with_reducible repeat' first | assumption | apply State.store_good

theorem execLdx_good (d a b : BitVec 5) (sc : BitVec 2) (z : BitVec 3) (s : State) (hK : Keep P s) : Good P (execLdx d a b sc z s) := by
  unfold execLdx
  with_reducible repeat' first | assumption | apply State.load_good

theorem execStx_good (r a b : BitVec 5) (sc z : BitVec 2) (s : State) (hK : Keep P s) : Good P (execStx r a b sc z s) := by
  unfold execStx
  with_reducible repeat' first | assumption | apply State.store_good

theorem State.cover_keep (s : State) (hK : Keep P s) : Keep P (State.cover s) := by
  unfold State.cover
  with_reducible repeat' first | assumption | refine Keep.out ?_ | (refine Keep.mk ?_; dsimp only)

theorem State.amoAt_good (s : State) (d b : BitVec 5) (ea : Word) (n op : Nat) (aq rl : Bool) (fn : Nat) (p : Place) (x : Xlat) (hK : Keep P s) : Good P (State.amoAt s d b ea n op aq rl fn p x) := by
  unfold State.amoAt
  with_reducible repeat' first | assumption | refine Good.next ?_ | apply State.amoApply_keepP | apply State.answer_keep | apply State.finish_keep | apply State.modSt_keep | apply State.sendAtomic_keep | apply State.setMark_keep | apply State.setReg_keep | apply State.useXlat_keep | dsimp only | split

theorem State.amo_good (s : State) (d a b : BitVec 5) (w q r : BitVec 1) (sc : BitVec 3) (op : Nat) (hK : Keep P s) : Good P (State.amo s d a b w q r sc op) := by
  unfold State.amo
  with_reducible repeat' first | assumption | apply State.amoAt_good | apply State.given_good | apply State.scalarAccess_good | split | intro _

theorem execAmoadd_good (d a b : BitVec 5) (w q r : BitVec 1) (sc : BitVec 3) (s : State) (hK : Keep P s) : Good P (execAmoadd d a b w q r sc s) := by
  unfold execAmoadd
  with_reducible repeat' first | assumption | apply State.amo_good

theorem execAmoand_good (d a b : BitVec 5) (w q r : BitVec 1) (sc : BitVec 3) (s : State) (hK : Keep P s) : Good P (execAmoand d a b w q r sc s) := by
  unfold execAmoand
  with_reducible repeat' first | assumption | apply State.amo_good

theorem execAmoor_good (d a b : BitVec 5) (w q r : BitVec 1) (sc : BitVec 3) (s : State) (hK : Keep P s) : Good P (execAmoor d a b w q r sc s) := by
  unfold execAmoor
  with_reducible repeat' first | assumption | apply State.amo_good

theorem execAmoxor_good (d a b : BitVec 5) (w q r : BitVec 1) (sc : BitVec 3) (s : State) (hK : Keep P s) : Good P (execAmoxor d a b w q r sc s) := by
  unfold execAmoxor
  with_reducible repeat' first | assumption | apply State.amo_good

theorem execAmomin_good (d a b : BitVec 5) (w q r : BitVec 1) (sc : BitVec 3) (s : State) (hK : Keep P s) : Good P (execAmomin d a b w q r sc s) := by
  unfold execAmomin
  with_reducible repeat' first | assumption | apply State.amo_good

theorem execAmomax_good (d a b : BitVec 5) (w q r : BitVec 1) (sc : BitVec 3) (s : State) (hK : Keep P s) : Good P (execAmomax d a b w q r sc s) := by
  unfold execAmomax
  with_reducible repeat' first | assumption | apply State.amo_good

theorem execAmominn_good (d a b : BitVec 5) (w q r : BitVec 1) (sc : BitVec 3) (s : State) (hK : Keep P s) : Good P (execAmominn d a b w q r sc s) := by
  unfold execAmominn
  with_reducible repeat' first | assumption | apply State.amo_good

theorem execAmomaxn_good (d a b : BitVec 5) (w q r : BitVec 1) (sc : BitVec 3) (s : State) (hK : Keep P s) : Good P (execAmomaxn d a b w q r sc s) := by
  unfold execAmomaxn
  with_reducible repeat' first | assumption | apply State.amo_good

theorem execAmoswp_good (d a b : BitVec 5) (w q r : BitVec 1) (sc : BitVec 3) (s : State) (hK : Keep P s) : Good P (execAmoswp d a b w q r sc s) := by
  unfold execAmoswp
  with_reducible repeat' first | assumption | apply State.amo_good

theorem execAmocas_good (d a b : BitVec 5) (w q r : BitVec 1) (sc : BitVec 3) (s : State) (hK : Keep P s) : Good P (execAmocas d a b w q r sc s) := by
  unfold execAmocas
  with_reducible repeat' first | assumption | apply State.amo_good

theorem execFence_good (p u : BitVec 5) (c : BitVec 3) (s : State) (hK : Keep P s) : Good P (execFence p u c s) := by
  unfold execFence
  with_reducible repeat' first | assumption | refine Good.next ?_ | apply State.cover_keep | apply State.finish_keep | apply State.trapAt_keep | split

theorem State.alu3_good (s : State) (d a b : BitVec 5) (v : Word → Word → Word) (hK : Keep P s) : Good P (State.alu3 s d a b v) := by
  unfold State.alu3
  with_reducible repeat' first | assumption | refine Good.next ?_ | apply State.finish_keep | apply State.given_good | apply State.setReg_keep

theorem State.alu2_good (s : State) (d a : BitVec 5) (v : Word → Word) (hK : Keep P s) : Good P (State.alu2 s d a v) := by
  unfold State.alu2
  with_reducible repeat' first | assumption | refine Good.next ?_ | apply State.finish_keep | apply State.given_good | apply State.setReg_keep

theorem execAdd_good (d a b : BitVec 5) (s : State) (hK : Keep P s) : Good P (execAdd d a b s) := by
  unfold execAdd
  with_reducible repeat' first | assumption | apply State.alu3_good

theorem execSub_good (d a b : BitVec 5) (s : State) (hK : Keep P s) : Good P (execSub d a b s) := by
  unfold execSub
  with_reducible repeat' first | assumption | apply State.alu3_good

theorem execAnd_good (d a b : BitVec 5) (s : State) (hK : Keep P s) : Good P (execAnd d a b s) := by
  unfold execAnd
  with_reducible repeat' first | assumption | apply State.alu3_good

theorem execOr_good (d a b : BitVec 5) (s : State) (hK : Keep P s) : Good P (execOr d a b s) := by
  unfold execOr
  with_reducible repeat' first | assumption | apply State.alu3_good

theorem execXor_good (d a b : BitVec 5) (s : State) (hK : Keep P s) : Good P (execXor d a b s) := by
  unfold execXor
  with_reducible repeat' first | assumption | apply State.alu3_good

theorem execSll_good (d a b : BitVec 5) (s : State) (hK : Keep P s) : Good P (execSll d a b s) := by
  unfold execSll
  with_reducible repeat' first | assumption | apply State.alu3_good

theorem execSrl_good (d a b : BitVec 5) (s : State) (hK : Keep P s) : Good P (execSrl d a b s) := by
  unfold execSrl
  with_reducible repeat' first | assumption | apply State.alu3_good

theorem execSra_good (d a b : BitVec 5) (s : State) (hK : Keep P s) : Good P (execSra d a b s) := by
  unfold execSra
  with_reducible repeat' first | assumption | apply State.alu3_good

theorem execMul_good (d a b : BitVec 5) (s : State) (hK : Keep P s) : Good P (execMul d a b s) := by
  unfold execMul
  with_reducible repeat' first | assumption | apply State.alu3_good

theorem execMulh_good (d a b : BitVec 5) (s : State) (hK : Keep P s) : Good P (execMulh d a b s) := by
  unfold execMulh
  with_reducible repeat' first | assumption | apply State.alu3_good

theorem execMulhn_good (d a b : BitVec 5) (s : State) (hK : Keep P s) : Good P (execMulhn d a b s) := by
  unfold execMulhn
  with_reducible repeat' first | assumption | apply State.alu3_good

theorem execDiv_good (d a b : BitVec 5) (s : State) (hK : Keep P s) : Good P (execDiv d a b s) := by
  unfold execDiv
  with_reducible repeat' first | assumption | apply State.alu3_good

theorem execDivn_good (d a b : BitVec 5) (s : State) (hK : Keep P s) : Good P (execDivn d a b s) := by
  unfold execDivn
  with_reducible repeat' first | assumption | apply State.alu3_good

theorem execRem_good (d a b : BitVec 5) (s : State) (hK : Keep P s) : Good P (execRem d a b s) := by
  unfold execRem
  with_reducible repeat' first | assumption | apply State.alu3_good

theorem execRemn_good (d a b : BitVec 5) (s : State) (hK : Keep P s) : Good P (execRemn d a b s) := by
  unfold execRemn
  with_reducible repeat' first | assumption | apply State.alu3_good

theorem execSlt_good (d a b : BitVec 5) (s : State) (hK : Keep P s) : Good P (execSlt d a b s) := by
  unfold execSlt
  with_reducible repeat' first | assumption | apply State.alu3_good

theorem execSltn_good (d a b : BitVec 5) (s : State) (hK : Keep P s) : Good P (execSltn d a b s) := by
  unfold execSltn
  with_reducible repeat' first | assumption | apply State.alu3_good

theorem execMin_good (d a b : BitVec 5) (s : State) (hK : Keep P s) : Good P (execMin d a b s) := by
  unfold execMin
  with_reducible repeat' first | assumption | apply State.alu3_good

theorem execMax_good (d a b : BitVec 5) (s : State) (hK : Keep P s) : Good P (execMax d a b s) := by
  unfold execMax
  with_reducible repeat' first | assumption | apply State.alu3_good

theorem execMinn_good (d a b : BitVec 5) (s : State) (hK : Keep P s) : Good P (execMinn d a b s) := by
  unfold execMinn
  with_reducible repeat' first | assumption | apply State.alu3_good

theorem execMaxn_good (d a b : BitVec 5) (s : State) (hK : Keep P s) : Good P (execMaxn d a b s) := by
  unfold execMaxn
  with_reducible repeat' first | assumption | apply State.alu3_good

theorem execClmul_good (d a b : BitVec 5) (s : State) (hK : Keep P s) : Good P (execClmul d a b s) := by
  unfold execClmul
  with_reducible repeat' first | assumption | apply State.alu3_good

theorem execClmulh_good (d a b : BitVec 5) (s : State) (hK : Keep P s) : Good P (execClmulh d a b s) := by
  unfold execClmulh
  with_reducible repeat' first | assumption | apply State.alu3_good

theorem execClz_good (d a : BitVec 5) (s : State) (hK : Keep P s) : Good P (execClz d a s) := by
  unfold execClz
  with_reducible repeat' first | assumption | apply State.alu2_good

theorem execCtz_good (d a : BitVec 5) (s : State) (hK : Keep P s) : Good P (execCtz d a s) := by
  unfold execCtz
  with_reducible repeat' first | assumption | apply State.alu2_good

theorem execPopc_good (d a : BitVec 5) (s : State) (hK : Keep P s) : Good P (execPopc d a s) := by
  unfold execPopc
  with_reducible repeat' first | assumption | apply State.alu2_good

theorem execAddi_good (d a : BitVec 5) (i : BitVec 15) (s : State) (hK : Keep P s) : Good P (execAddi d a i s) := by
  unfold execAddi
  with_reducible repeat' first | assumption | apply State.alu2_good

theorem execAndi_good (d a : BitVec 5) (i : BitVec 15) (s : State) (hK : Keep P s) : Good P (execAndi d a i s) := by
  unfold execAndi
  with_reducible repeat' first | assumption | apply State.alu2_good

theorem execOri_good (d a : BitVec 5) (i : BitVec 15) (s : State) (hK : Keep P s) : Good P (execOri d a i s) := by
  unfold execOri
  with_reducible repeat' first | assumption | apply State.alu2_good

theorem execXori_good (d a : BitVec 5) (i : BitVec 15) (s : State) (hK : Keep P s) : Good P (execXori d a i s) := by
  unfold execXori
  with_reducible repeat' first | assumption | apply State.alu2_good

theorem execSlti_good (d a : BitVec 5) (i : BitVec 15) (s : State) (hK : Keep P s) : Good P (execSlti d a i s) := by
  unfold execSlti
  with_reducible repeat' first | assumption | apply State.alu2_good

theorem execSltni_good (d a : BitVec 5) (i : BitVec 15) (s : State) (hK : Keep P s) : Good P (execSltni d a i s) := by
  unfold execSltni
  with_reducible repeat' first | assumption | apply State.alu2_good

theorem execSlli_good (d a : BitVec 5) (n : BitVec 6) (s : State) (hK : Keep P s) : Good P (execSlli d a n s) := by
  unfold execSlli
  with_reducible repeat' first | assumption | apply State.alu2_good

theorem execSrli_good (d a : BitVec 5) (n : BitVec 6) (s : State) (hK : Keep P s) : Good P (execSrli d a n s) := by
  unfold execSrli
  with_reducible repeat' first | assumption | apply State.alu2_good

theorem execSrai_good (d a : BitVec 5) (n : BitVec 6) (s : State) (hK : Keep P s) : Good P (execSrai d a n s) := by
  unfold execSrai
  with_reducible repeat' first | assumption | apply State.alu2_good

theorem execMovw_good (d : BitVec 5) (i : BitVec 20) (s : State) (hK : Keep P s) : Good P (execMovw d i s) := by
  unfold execMovw
  with_reducible repeat' first | assumption | refine Good.next ?_ | apply State.finish_keep | apply State.setReg_keep

theorem execAdrp_good (d : BitVec 5) (i : BitVec 20) (s : State) (hK : Keep P s) : Good P (execAdrp d i s) := by
  unfold execAdrp
  with_reducible repeat' first | assumption | refine Good.next ?_ | apply State.finish_keep | apply State.setReg_keep

theorem execMovk_good (d : BitVec 5) (p : BitVec 2) (v : BitVec 16) (s : State) (hK : Keep P s) : Good P (execMovk d p v s) := by
  unfold execMovk
  with_reducible repeat' first | assumption | apply State.alu2_good

theorem State.vop_good (s : State) (acc : Accepts) (d a : BitVec 5) (b : Src) (m : BitVec 3) (useOld : Bool) (f : Nat → Nat → Nat → Nat → Nat × Flags) (hK : Keep P s) : Good P (State.vop s acc d a b m useOld f) := by
  unfold State.vop
  with_reducible repeat' first | assumption | refine Good.next ?_ | apply State.elementwise_keep | apply State.vrun_good

theorem State.viop_good (s : State) (acc : Accepts) (d a : BitVec 5) (b : Src) (m : BitVec 3) (f : Nat → Nat → Nat → Nat) (hK : Keep P s) : Good P (State.viop s acc d a b m f) := by
  unfold State.viop
  with_reducible repeat' first | assumption | apply State.vop_good

theorem execVaddVV_good (d a b : BitVec 5) (m : BitVec 3) (s : State) (hK : Keep P s) : Good P (execVaddVV d a b m s) := by
  unfold execVaddVV
  with_reducible repeat' first | assumption | apply State.viop_good

theorem execVaddVS_good (d a b : BitVec 5) (m : BitVec 3) (s : State) (hK : Keep P s) : Good P (execVaddVS d a b m s) := by
  unfold execVaddVS
  with_reducible repeat' first | assumption | apply State.viop_good

theorem execVsubVV_good (d a b : BitVec 5) (m : BitVec 3) (s : State) (hK : Keep P s) : Good P (execVsubVV d a b m s) := by
  unfold execVsubVV
  with_reducible repeat' first | assumption | apply State.viop_good

theorem execVsubVS_good (d a b : BitVec 5) (m : BitVec 3) (s : State) (hK : Keep P s) : Good P (execVsubVS d a b m s) := by
  unfold execVsubVS
  with_reducible repeat' first | assumption | apply State.viop_good

theorem execVmulVV_good (d a b : BitVec 5) (m : BitVec 3) (s : State) (hK : Keep P s) : Good P (execVmulVV d a b m s) := by
  unfold execVmulVV
  with_reducible repeat' first | assumption | apply State.viop_good

theorem execVmulVS_good (d a b : BitVec 5) (m : BitVec 3) (s : State) (hK : Keep P s) : Good P (execVmulVS d a b m s) := by
  unfold execVmulVS
  with_reducible repeat' first | assumption | apply State.viop_good

theorem execVmulhVV_good (d a b : BitVec 5) (m : BitVec 3) (s : State) (hK : Keep P s) : Good P (execVmulhVV d a b m s) := by
  unfold execVmulhVV
  with_reducible repeat' first | assumption | apply State.viop_good

theorem execVmulhVS_good (d a b : BitVec 5) (m : BitVec 3) (s : State) (hK : Keep P s) : Good P (execVmulhVS d a b m s) := by
  unfold execVmulhVS
  with_reducible repeat' first | assumption | apply State.viop_good

theorem execVmulhnVV_good (d a b : BitVec 5) (m : BitVec 3) (s : State) (hK : Keep P s) : Good P (execVmulhnVV d a b m s) := by
  unfold execVmulhnVV
  with_reducible repeat' first | assumption | apply State.viop_good

theorem execVmulhnVS_good (d a b : BitVec 5) (m : BitVec 3) (s : State) (hK : Keep P s) : Good P (execVmulhnVS d a b m s) := by
  unfold execVmulhnVS
  with_reducible repeat' first | assumption | apply State.viop_good

theorem execVandVV_good (d a b : BitVec 5) (m : BitVec 3) (s : State) (hK : Keep P s) : Good P (execVandVV d a b m s) := by
  unfold execVandVV
  with_reducible repeat' first | assumption | apply State.viop_good

theorem execVandVS_good (d a b : BitVec 5) (m : BitVec 3) (s : State) (hK : Keep P s) : Good P (execVandVS d a b m s) := by
  unfold execVandVS
  with_reducible repeat' first | assumption | apply State.viop_good

theorem execVorVV_good (d a b : BitVec 5) (m : BitVec 3) (s : State) (hK : Keep P s) : Good P (execVorVV d a b m s) := by
  unfold execVorVV
  with_reducible repeat' first | assumption | apply State.viop_good

theorem execVorVS_good (d a b : BitVec 5) (m : BitVec 3) (s : State) (hK : Keep P s) : Good P (execVorVS d a b m s) := by
  unfold execVorVS
  with_reducible repeat' first | assumption | apply State.viop_good

theorem execVxorVV_good (d a b : BitVec 5) (m : BitVec 3) (s : State) (hK : Keep P s) : Good P (execVxorVV d a b m s) := by
  unfold execVxorVV
  with_reducible repeat' first | assumption | apply State.viop_good

theorem execVxorVS_good (d a b : BitVec 5) (m : BitVec 3) (s : State) (hK : Keep P s) : Good P (execVxorVS d a b m s) := by
  unfold execVxorVS
  with_reducible repeat' first | assumption | apply State.viop_good

theorem execVsllVV_good (d a b : BitVec 5) (m : BitVec 3) (s : State) (hK : Keep P s) : Good P (execVsllVV d a b m s) := by
  unfold execVsllVV
  with_reducible repeat' first | assumption | apply State.viop_good

theorem execVsllVS_good (d a b : BitVec 5) (m : BitVec 3) (s : State) (hK : Keep P s) : Good P (execVsllVS d a b m s) := by
  unfold execVsllVS
  with_reducible repeat' first | assumption | apply State.viop_good

theorem execVsrlVV_good (d a b : BitVec 5) (m : BitVec 3) (s : State) (hK : Keep P s) : Good P (execVsrlVV d a b m s) := by
  unfold execVsrlVV
  with_reducible repeat' first | assumption | apply State.viop_good

theorem execVsrlVS_good (d a b : BitVec 5) (m : BitVec 3) (s : State) (hK : Keep P s) : Good P (execVsrlVS d a b m s) := by
  unfold execVsrlVS
  with_reducible repeat' first | assumption | apply State.viop_good

theorem execVsraVV_good (d a b : BitVec 5) (m : BitVec 3) (s : State) (hK : Keep P s) : Good P (execVsraVV d a b m s) := by
  unfold execVsraVV
  with_reducible repeat' first | assumption | apply State.viop_good

theorem execVsraVS_good (d a b : BitVec 5) (m : BitVec 3) (s : State) (hK : Keep P s) : Good P (execVsraVS d a b m s) := by
  unfold execVsraVS
  with_reducible repeat' first | assumption | apply State.viop_good

theorem execVminVV_good (d a b : BitVec 5) (m : BitVec 3) (s : State) (hK : Keep P s) : Good P (execVminVV d a b m s) := by
  unfold execVminVV
  with_reducible repeat' first | assumption | apply State.viop_good

theorem execVminVS_good (d a b : BitVec 5) (m : BitVec 3) (s : State) (hK : Keep P s) : Good P (execVminVS d a b m s) := by
  unfold execVminVS
  with_reducible repeat' first | assumption | apply State.viop_good

theorem execVmaxVV_good (d a b : BitVec 5) (m : BitVec 3) (s : State) (hK : Keep P s) : Good P (execVmaxVV d a b m s) := by
  unfold execVmaxVV
  with_reducible repeat' first | assumption | apply State.viop_good

theorem execVmaxVS_good (d a b : BitVec 5) (m : BitVec 3) (s : State) (hK : Keep P s) : Good P (execVmaxVS d a b m s) := by
  unfold execVmaxVS
  with_reducible repeat' first | assumption | apply State.viop_good

theorem execVminnVV_good (d a b : BitVec 5) (m : BitVec 3) (s : State) (hK : Keep P s) : Good P (execVminnVV d a b m s) := by
  unfold execVminnVV
  with_reducible repeat' first | assumption | apply State.viop_good

theorem execVminnVS_good (d a b : BitVec 5) (m : BitVec 3) (s : State) (hK : Keep P s) : Good P (execVminnVS d a b m s) := by
  unfold execVminnVS
  with_reducible repeat' first | assumption | apply State.viop_good

theorem execVmaxnVV_good (d a b : BitVec 5) (m : BitVec 3) (s : State) (hK : Keep P s) : Good P (execVmaxnVV d a b m s) := by
  unfold execVmaxnVV
  with_reducible repeat' first | assumption | apply State.viop_good

theorem execVmaxnVS_good (d a b : BitVec 5) (m : BitVec 3) (s : State) (hK : Keep P s) : Good P (execVmaxnVS d a b m s) := by
  unfold execVmaxnVS
  with_reducible repeat' first | assumption | apply State.viop_good

theorem execVsaddVV_good (d a b : BitVec 5) (m : BitVec 3) (s : State) (hK : Keep P s) : Good P (execVsaddVV d a b m s) := by
  unfold execVsaddVV
  with_reducible repeat' first | assumption | apply State.viop_good

theorem execVsaddVS_good (d a b : BitVec 5) (m : BitVec 3) (s : State) (hK : Keep P s) : Good P (execVsaddVS d a b m s) := by
  unfold execVsaddVS
  with_reducible repeat' first | assumption | apply State.viop_good

theorem execVssubVV_good (d a b : BitVec 5) (m : BitVec 3) (s : State) (hK : Keep P s) : Good P (execVssubVV d a b m s) := by
  unfold execVssubVV
  with_reducible repeat' first | assumption | apply State.viop_good

theorem execVssubVS_good (d a b : BitVec 5) (m : BitVec 3) (s : State) (hK : Keep P s) : Good P (execVssubVS d a b m s) := by
  unfold execVssubVS
  with_reducible repeat' first | assumption | apply State.viop_good

theorem execVmergeVV_good (d a b : BitVec 5) (m : BitVec 3) (s : State) (hK : Keep P s) : Good P (execVmergeVV d a b m s) := by
  unfold execVmergeVV
  with_reducible repeat' first | assumption | apply State.vop_good

theorem execVmergeVS_good (d a b : BitVec 5) (m : BitVec 3) (s : State) (hK : Keep P s) : Good P (execVmergeVS d a b m s) := by
  unfold execVmergeVS
  with_reducible repeat' first | assumption | apply State.vop_good

theorem execVclmulVV_good (d a b : BitVec 5) (m : BitVec 3) (s : State) (hK : Keep P s) : Good P (execVclmulVV d a b m s) := by
  unfold execVclmulVV
  with_reducible repeat' first | assumption | apply State.viop_good

theorem execVclmulVS_good (d a b : BitVec 5) (m : BitVec 3) (s : State) (hK : Keep P s) : Good P (execVclmulVS d a b m s) := by
  unfold execVclmulVS
  with_reducible repeat' first | assumption | apply State.viop_good

theorem execVclmulhVV_good (d a b : BitVec 5) (m : BitVec 3) (s : State) (hK : Keep P s) : Good P (execVclmulhVV d a b m s) := by
  unfold execVclmulhVV
  with_reducible repeat' first | assumption | apply State.viop_good

theorem execVclmulhVS_good (d a b : BitVec 5) (m : BitVec 3) (s : State) (hK : Keep P s) : Good P (execVclmulhVS d a b m s) := by
  unfold execVclmulhVS
  with_reducible repeat' first | assumption | apply State.viop_good

theorem State.putCells_keep (s : State) (c : BitVec 3) (ws : List CellWrite) (hK : Keep P s) : Keep P (State.putCells s c ws) := by
  unfold State.putCells
  with_reducible repeat' first | assumption | apply State.modSt_keep

theorem State.mop_good (s : State) (c : BitVec 3) (a b : BitVec 5) (r k : BitVec 3) (minus : Bool) (hK : Keep P s) : Good P (State.mop s c a b r k minus) := by
  unfold State.mop
  with_reducible repeat' first | assumption | refine Good.next ?_ | apply State.addFlags_keep | apply State.finishQ_keep | apply State.putCells_keep | apply State.vrun_good

theorem execMopa_good (c : BitVec 3) (a b : BitVec 5) (r k : BitVec 3) (s : State) (hK : Keep P s) : Good P (execMopa c a b r k s) := by
  unfold execMopa
  with_reducible repeat' first | assumption | apply State.mop_good

theorem execMops_good (c : BitVec 3) (a b : BitVec 5) (r k : BitVec 3) (s : State) (hK : Keep P s) : Good P (execMops c a b r k s) := by
  unfold execMops
  with_reducible repeat' first | assumption | apply State.mop_good

theorem execMzero_good (c r k : BitVec 3) (s : State) (hK : Keep P s) : Good P (execMzero c r k s) := by
  unfold execMzero
  with_reducible repeat' first | assumption | refine Good.next ?_ | apply State.finishQ_keep | apply State.putCells_keep | apply State.vrun_good

theorem execMrd_good (c : BitVec 3) (o : BitVec 1) (a b : BitVec 5) (r k : BitVec 3) (s : State) (hK : Keep P s) : Good P (execMrd c o a b r k s) := by
  unfold execMrd
  with_reducible repeat' first | assumption | refine Good.next ?_ | apply State.finishQ_keep | apply State.putV_keep | apply State.vrun_good

theorem execMwr_good (c : BitVec 3) (o : BitVec 1) (a b : BitVec 5) (r k : BitVec 3) (s : State) (hK : Keep P s) : Good P (execMwr c o a b r k s) := by
  unfold execMwr
  with_reducible repeat' first | assumption | refine Good.next ?_ | apply State.finishQ_keep | apply State.putCells_keep | apply State.vrun_good

theorem execMpatch_good (c : BitVec 3) (o : BitVec 1) (a b : BitVec 5) (r k : BitVec 3) (s : State) (hK : Keep P s) : Good P (execMpatch c o a b r k s) := by
  unfold execMpatch
  with_reducible repeat' first | assumption | refine Good.next ?_ | apply State.addFlags_keep | apply State.finishQ_keep | apply State.putCells_keep | apply State.vrun_good

theorem execVred_good (d a : BitVec 5) (m : BitVec 3) (o : BitVec 4) (s : State) (hK : Keep P s) : Good P (execVred d a m o s) := by
  unfold execVred
  with_reducible repeat' first | assumption | refine Good.next ?_ | apply State.addFlags_keep | apply State.finishQ_keep | apply State.putV_keep | apply State.vrun_good | dsimp only | split

theorem execVscan_good (d a : BitVec 5) (m : BitVec 3) (o : BitVec 4) (s : State) (hK : Keep P s) : Good P (execVscan d a m o s) := by
  unfold execVscan
  with_reducible repeat' first | assumption | refine Good.next ?_ | apply State.addFlags_keep | apply State.finishQ_keep | apply State.putV_keep | apply State.vrun_good

theorem State.useAll_keep (s : State) (es : List VEl) (hK : Keep P s) : Keep P (State.useAll s es) := by
  unfold State.useAll
  with_reducible repeat' first | assumption | apply State.useXlat_keep | refine Keep.foldl (fun _ _ _ => ?_) ?_

theorem State.readAll_keep (s : State) (es : List VEl) (alloc : Bool) (hK : Keep P s) : Keep P (State.readAll s es alloc) := by
  unfold State.readAll
  with_reducible repeat' first | assumption | apply State.readLine_keep | refine Keep.foldl (fun _ _ _ => ?_) ?_

theorem State.ask_keep {s : State} {es : List VEl} {send : State → VEl → State} (h : Keep P s) (hs : ∀ s e, Keep P s → Keep P (send s e)) : Keep P (s.ask es send) := by
  unfold State.ask
  refine Keep.foldl (fun s e h => ?_) (State.modSt_keep _ _ h)
  split
  · exact State.modSt_keep _ _ h
  · split
    · exact h
    · exact hs s e h

theorem State.askReads_keep (s : State) (es : List VEl) (n : Nat) (alloc : Bool) (hK : Keep P s) : Keep P (State.askReads s es n alloc) := by
  unfold State.askReads
  with_reducible repeat' first | assumption | apply State.ask_keep | apply State.sendRead_keep | intro _

theorem State.endGroups_good (s : State) (stop : Option VStop) (hK : Keep P s) : Good P (State.endGroups s stop) := by
  unfold State.endGroups
  with_reducible repeat' first | assumption | refine Good.next ?_ | apply State.finishQ_keep | apply State.modSt_keep | apply State.vtrap_good | apply State.walkFault_keep | dsimp only | split

theorem State.begin_keep (s : State) (es : List VEl) (trim : Option Nat) (hK : Keep P s) : Keep P (State.begin s es trim) := by
  unfold State.begin
  with_reducible repeat' first | assumption | apply State.modSt_keep

theorem State.toGroup_keep (s : State) (g : Nat) (hK : Keep P s) : Keep P (State.toGroup s g) := by
  unfold State.toGroup
  with_reducible repeat' first | assumption | apply State.modSt_keep

theorem State.goOn_good (s : State) (stop : Option VStop) (next : Option Nat) (hK : Keep P s) : Good P (State.goOn s stop next) := by
  unfold State.goOn
  with_reducible repeat' first | assumption | refine Good.next ?_ | apply State.endGroups_good | apply State.toGroup_keep | split

theorem State.goOnW_good (s : State) (stop : Option VStop) (next : Option Nat) (hK : Keep P s) : Good P (State.goOnW s stop next) := by
  unfold State.goOnW
  with_reducible repeat' first | assumption | refine Good.next ?_ | apply State.endGroups_good | apply State.goOn_good | apply State.toGroup_keep | split

theorem State.vloadGo_good (s : State) (d : BitVec 5) (m : BitVec 3) (alloc ff : Bool) (q : VPart) (hK : Keep P s) : Good P (State.vloadGo s d m alloc ff q) := by
  unfold State.vloadGo
  with_reducible repeat' first | assumption | refine Good.next ?_ | apply State.askReads_keep | apply State.begin_keep | apply State.finishQ_keep | apply State.goOn_good | apply State.modSt_keep | apply State.putV_keep | apply State.readAll_keep | apply State.useAll_keep | dsimp only | split

theorem execVld_good (d a : BitVec 5) (m : BitVec 3) (h : BitVec 1) (s : State) (hK : Keep P s) : Good P (execVld d a m h s) := by
  unfold execVld
  with_reducible repeat' first | assumption | apply State.vloadGo_good | apply State.vrun_good

theorem execVlds_good (d a b : BitVec 5) (m : BitVec 3) (h : BitVec 1) (s : State) (hK : Keep P s) : Good P (execVlds d a b m h s) := by
  unfold execVlds
  with_reducible repeat' first | assumption | apply State.vloadGo_good | apply State.vrun_good

theorem execVldx_good (d a b : BitVec 5) (m : BitVec 3) (h : BitVec 1) (s : State) (hK : Keep P s) : Good P (execVldx d a b m h s) := by
  unfold execVldx
  with_reducible repeat' first | assumption | apply State.vloadGo_good | apply State.vrun_good

theorem execVldff_good (d a : BitVec 5) (m : BitVec 3) (h : BitVec 1) (s : State) (hK : Keep P s) : Good P (execVldff d a m h s) := by
  unfold execVldff
  with_reducible repeat' first | assumption | apply State.vloadGo_good | apply State.vrun_good

theorem State.orderEls_keepP (s : State) (l : List VEl) (seen : List Place) (h : Keep P s) : KeepP P (s.orderEls l seen) := by
  induction l generalizing s seen with
  | nil => exact h
  | cons e l ih =>
    unfold State.orderEls
    split
    · exact ih _ _ (State.choose_keepP _ _ h)
    · exact ih _ _ h

theorem State.vstoreGo_good (s : State) (d : BitVec 5) (m : BitVec 3) (va : Nat → Word) (strided : Bool) (q : VPart) (hK : Keep P s) : Good P (State.vstoreGo s d m va strided q) := by
  unfold State.vstoreGo
  with_reducible repeat' first | assumption | refine Good.next ?_ | apply State.clearWhole_keep | apply State.goOnW_good | apply State.orderEls_keepP | apply State.putChunk_keep | apply State.useAll_keep | refine Keep.foldl (fun _ _ _ => ?_) ?_ | dsimp only | split

theorem execVst_good (d a : BitVec 5) (m : BitVec 3) (h : BitVec 1) (s : State) (hK : Keep P s) : Good P (execVst d a m h s) := by
  unfold execVst
  with_reducible repeat' first | assumption | apply State.vrun_good | apply State.vstoreGo_good

theorem execVsts_good (d a b : BitVec 5) (m : BitVec 3) (h : BitVec 1) (s : State) (hK : Keep P s) : Good P (execVsts d a b m h s) := by
  unfold execVsts
  with_reducible repeat' first | assumption | apply State.vrun_good | apply State.vstoreGo_good

theorem execVstx_good (d a b : BitVec 5) (m : BitVec 3) (h : BitVec 1) (s : State) (hK : Keep P s) : Good P (execVstx d a b m h s) := by
  unfold execVstx
  with_reducible repeat' first | assumption | apply State.vrun_good | apply State.vstoreGo_good

theorem State.ordered_good (s : State) (d : BitVec 5) (q : VPart) (all : List Chunk) (l : List VEl) (h : Keep P s) : Good P (State.ordered s d q all l) := by
  induction l generalizing s with
  | nil => exact State.goOnW_good _ _ _ (State.clearWhole_keep _ _ h)
  | cons e l ih =>
    unfold State.ordered
    dsimp only
    split
    · exact ih s h
    · split
      · exact Good.next (State.modSt_keep _ _ (State.begin_keep _ _ _ h))
      · split
        · exact ih s h
        · split
          · exact Good.next (State.begin_keep _ _ _ h)
          · exact ih _ (State.modSt_keep _ _ (State.putChunk_keep _ _ _ _ _ _ h))

theorem execVstxo_good (d a b : BitVec 5) (m : BitVec 3) (h : BitVec 1) (s : State) (hK : Keep P s) : Good P (execVstxo d a b m h s) := by
  unfold execVstxo
  with_reducible repeat' first | assumption | refine Good.next ?_ | apply State.ordered_good | apply State.useAll_keep | apply State.vrun_good | dsimp only | split

theorem State.putF_keep (s : State) (f : BitVec 3) (bs : List (Nat × Bool)) (hK : Keep P s) : Keep P (State.putF s f bs) := by
  unfold State.putF
  with_reducible repeat' first | assumption | apply State.putM_keep

theorem execVldxp_good (d a b : BitVec 5) (m f : BitVec 3) (_h : BitVec 1) (s : State) (hK : Keep P s) : Good P (execVldxp d a b m f _h s) := by
  unfold execVldxp
  with_reducible repeat' first | assumption | refine Good.next ?_ | apply State.askReads_keep | apply State.begin_keep | apply State.goOn_good | apply State.putF_keep | apply State.putV_keep | apply State.vrun_good | dsimp only | split

theorem execVstxp_good (d a b : BitVec 5) (m f : BitVec 3) (h : BitVec 1) (s : State) (hK : Keep P s) : Good P (execVstxp d a b m f h s) := by
  unfold execVstxp
  with_reducible repeat' first | assumption | refine Good.next ?_ | apply State.ask_keep | apply State.begin_keep | apply State.clearWhole_keep | apply State.goOnW_good | apply State.orderEls_keepP | apply State.putChunk_keep | apply State.putF_keep | apply State.sendWrite_keep | apply State.vrun_good | refine Keep.foldl (fun _ _ _ => ?_) ?_ | dsimp only | split | intro _

theorem State.applyUpd_keep (s : State) (op : Nat) (u : Upd) (hK : Keep P s) : Keep P (State.applyUpd s op u) := by
  unfold State.applyUpd
  with_reducible repeat' first | assumption | apply State.atomicAt_keepP | apply State.sendAtomic_keep | refine Keep.out ?_ | (refine Keep.mk ?_; dsimp only) | split

theorem execVsca_good (d a b : BitVec 5) (m : BitVec 3) (o : BitVec 2) (s : State) (hK : Keep P s) : Good P (execVsca d a b m o s) := by
  unfold execVsca
  with_reducible repeat' first | assumption | refine Good.next ?_ | apply State.addFlags_keep | apply State.applyUpd_keep | apply State.goOnW_good | apply State.useAll_keep | apply State.vrun_good | refine Keep.foldl (fun _ _ _ => ?_) ?_ | dsimp only | split

theorem execMldt_good (c : BitVec 3) (o : BitVec 1) (a b : BitVec 5) (r k : BitVec 3) (s : State) (hK : Keep P s) : Good P (execMldt c o a b r k s) := by
  unfold execMldt
  with_reducible repeat' first | assumption | refine Good.next ?_ | apply State.askReads_keep | apply State.begin_keep | apply State.endGroups_good | apply State.finishQ_keep | apply State.putCells_keep | apply State.readAll_keep | apply State.useAll_keep | apply State.vrun_good | dsimp only | split

theorem execMstt_good (c : BitVec 3) (o : BitVec 1) (a b : BitVec 5) (r k : BitVec 3) (s : State) (hK : Keep P s) : Good P (execMstt c o a b r k s) := by
  unfold execMstt
  with_reducible repeat' first | assumption | refine Good.next ?_ | apply State.clearWhole_keep | apply State.endGroups_good | apply State.finishQ_keep | apply State.orderEls_keepP | apply State.putChunk_keep | apply State.useAll_keep | apply State.vrun_good | refine Keep.foldl (fun _ _ _ => ?_) ?_ | dsimp only | split

theorem State.withTile_good {s : State} {va : Word} {acc : Acc} {k : Nat → Out} (h : Keep P s) (hk : ∀ n, Good P (k n)) : Good P (s.withTile va acc k) := by
  unfold State.withTile
  split
  · exact hk _
  · exact Good.next h
  · refine State.given_good ?_ (Good.next h)
    split
    · exact State.walkFault_keep _ _ h
    · exact h

theorem State.emptyTiles_keep (s : State) (idx n : Nat) (hK : Keep P s) : Keep P (State.emptyTiles s idx n) := by
  unfold State.emptyTiles
  with_reducible repeat' first | assumption | apply Core.modTile_keepC | apply State.letIn_keep | apply State.modCore_keep | refine Keep.foldl (fun _ _ _ => ?_) ?_ | intro _

theorem State.tldfGo_good (s : State) (d a : BitVec 5) (mk : BitVec 3) (off n m : Nat) (hK : Keep P s) : Good P (State.tldfGo s d a mk off n m) := by
  unfold State.tldfGo
  with_reducible repeat' first | assumption | refine Good.next ?_ | apply State.emptyTiles_keep | apply State.finishQ_keep | apply State.given_good | apply State.modSt_keep | apply State.putV_keep | apply State.suspend_keep | apply State.trap_keep | dsimp only | split

theorem execTldf_good (d a : BitVec 5) (mk : BitVec 3) (s : State) (hK : Keep P s) : Good P (execTldf d a mk s) := by
  unfold execTldf
  with_reducible repeat' first | assumption | refine Good.next ?_ | apply State.finishQ_keep | apply State.modSt_keep | apply State.tldfGo_good | apply State.trap_keep | apply State.vrun_good | apply State.withTile_good | dsimp only | split | intro _

theorem State.tagOp_good {s : State} {regs : List (BitVec 5)} {a : BitVec 5} {acc : Acc} {k : Nat → Out} (h : Keep P s) (hk : ∀ n, Good P (k n)) : Good P (s.tagOp regs a acc k) := by
  unfold State.tagOp
  refine State.given_good h (State.withTile_good h fun n => ?_)
  split
  · exact Good.next h
  · exact hk _

theorem execTwait_good (a : BitVec 5) (s : State) (hK : Keep P s) : Good P (execTwait a s) := by
  unfold execTwait
  with_reducible repeat' first | assumption | refine Good.next ?_ | apply State.finishQ_keep | apply State.given_good | apply State.suspend_keep | apply State.tagOp_good | apply State.trap_keep | dsimp only | split | intro _

theorem execTstat_good (d a : BitVec 5) (s : State) (hK : Keep P s) : Good P (execTstat d a s) := by
  unfold execTstat
  with_reducible repeat' first | assumption | refine Good.next ?_ | apply State.finishQ_keep | apply State.setReg_keep | apply State.tagOp_good | intro _

theorem execTset_good (a b : BitVec 5) (s : State) (hK : Keep P s) : Good P (execTset a b s) := by
  unfold execTset
  with_reducible repeat' first | assumption | refine Good.next ?_ | apply Core.modTile_keepC | apply State.finishQ_keep | apply State.letIn_keep | apply State.modCore_keep | apply State.tagOp_good | apply State.trap_keep | apply State.wakeTile_keep | dsimp only | split | intro _

theorem execTarm_good (a b : BitVec 5) (s : State) (hK : Keep P s) : Good P (execTarm a b s) := by
  unfold execTarm
  with_reducible repeat' first | assumption | refine Good.next ?_ | apply Core.modTile_keepC | apply State.finishQ_keep | apply State.modCore_keep | apply State.present_keep | apply State.tagOp_good | apply State.trap_keep | dsimp only | split | intro _

theorem State.fillGo_keepO (s : State) (at_ : FillAt) (a : Arrival) (hK : Keep P s) : KeepO P (State.fillGo s at_ a) := by
  unfold State.fillGo
  with_reducible repeat' first | assumption | exact KeepO.ofNone | apply State.modXfer_keep | apply State.sendArrival_keep | apply State.sendCast_keepO | refine KeepO.ofSome ?_ | dsimp only | split

theorem State.addXfer_keep (s : State) (x : Xfer) (hK : Keep P s) : Keep P (State.addXfer s x) := by
  unfold State.addXfer
  with_reducible repeat' first | assumption | refine Keep.out ?_ | (refine Keep.mk ?_; dsimp only)

theorem State.finishIfDone_keep (s : State) (id : Nat) (hK : Keep P s) : Keep P (State.finishIfDone s id) := by
  unfold State.finishIfDone
  with_reducible repeat' first | assumption | apply State.xferFinish_keep | split

theorem execTstf_good (d a : BitVec 5) (m f : BitVec 3) (s : State) (hK : Keep P s) : Good P (execTstf d a m f s) := by
  unfold execTstf
  with_reducible repeat' first | assumption | refine Good.next ?_ | apply State.addXfer_keep | apply State.fillGo_keepO | apply State.finishIfDone_keep | apply State.finishQ_keep | apply State.lockRange_keep | apply State.vrun_good | refine Keep.ofSome (by assumption) ?_ | refine KeepO.ofSome ?_ | refine KeepO.bind ?_ (fun _ _ => ?_) | refine KeepO.foldl (fun _ _ _ => ?_) ?_ | dsimp only | split

theorem execTcmb_good (d a b : BitVec 5) (m f : BitVec 3) (s : State) (hK : Keep P s) : Good P (execTcmb d a b m f s) := by
  unfold execTcmb
  with_reducible repeat' first | assumption | refine Good.next ?_ | apply State.addXfer_keep | apply State.fillGo_keepO | apply State.finishIfDone_keep | apply State.finishQ_keep | apply State.vrun_good | refine Keep.ofSome (by assumption) ?_ | dsimp only | split

theorem State.fillMembers_keep (s : State) (members : List (Nat × Nat × Nat)) (group slice off data psn : Nat) (hK : Keep P s) : Keep P (State.fillMembers s members group slice off data psn) := by
  unfold State.fillMembers
  with_reducible repeat' first | assumption | refine Keep.foldl (fun _ _ _ => ?_) ?_ | refine Keep.out ?_ | (refine Keep.mk ?_; dsimp only) | split

theorem State.serve_keep (s : State) (p : Porch) (hK : Keep P s) : Keep P (State.serve s p) := by
  unfold State.serve
  with_reducible repeat' first | assumption | apply State.fillMembers_keep | apply State.readLines_keep | apply State.sendReq_keep | apply State.xferFail_keep | refine Keep.foldl (fun _ _ _ => ?_) ?_ | refine Keep.out ?_ | (refine Keep.mk ?_; dsimp only) | split

theorem State.release_keep (s : State) (p : Porch) (hK : Keep P s) : Keep P (State.release s p) := by
  unfold State.release
  with_reducible repeat' first | assumption | apply State.serve_keep | refine Keep.out ?_ | (refine Keep.mk ?_; dsimp only)

theorem State.testPorch_keep (s : State) (p : Porch) (hK : Keep P s) : Keep P (State.testPorch s p) := by
  unfold State.testPorch
  with_reducible repeat' first | assumption | apply State.release_keep | split

theorem State.retest_keep (s : State) (g : Nat) (hK : Keep P s) : Keep P (State.retest s g) := by
  unfold State.retest
  with_reducible repeat' first | assumption | apply State.testPorch_keep | refine Keep.foldl (fun _ _ _ => ?_) ?_

theorem State.writeEgress_keep (s : State) (g : Nat) (hK : Keep P s) : Keep P (State.writeEgress s g) := by
  unfold State.writeEgress
  with_reducible repeat' first | assumption | refine Keep.out ?_ | (refine Keep.mk ?_; dsimp only)

theorem State.leaveGroup_keep (s : State) (g gang rank : Nat) (hK : Keep P s) : Keep P (State.leaveGroup s g gang rank) := by
  unfold State.leaveGroup
  with_reducible repeat' first | assumption | apply State.retest_keep | apply State.writeEgress_keep | refine Keep.out ?_ | (refine Keep.mk ?_; dsimp only) | split

theorem State.leaveAll_keep (s : State) (gang rank : Nat) (hK : Keep P s) : Keep P (State.leaveAll s gang rank) := by
  unfold State.leaveAll
  with_reducible repeat' first | assumption | apply State.leaveGroup_keep | refine Keep.foldl (fun _ _ _ => ?_) ?_

theorem State.joinGroup_keep (s : State) (g asid gang rank : Nat) (hK : Keep P s) : Keep P (State.joinGroup s g asid gang rank) := by
  unfold State.joinGroup
  with_reducible repeat' first | assumption | apply State.writeEgress_keep | refine Keep.out ?_ | (refine Keep.mk ?_; dsimp only)

theorem State.arrivePiece_keepO (s : State) (x : Piece) (hK : Keep P s) : KeepO P (State.arrivePiece s x) := by
  unfold State.arrivePiece
  with_reducible repeat' first | assumption | exact KeepO.ofNone | apply State.modXfer_keep | apply State.serve_keep | apply State.testPorch_keep | refine KeepO.ofSome ?_ | refine Keep.out ?_ | (refine Keep.mk ?_; dsimp only) | dsimp only | split

theorem State.dequeue_keep (s : State) (hK : Keep P s) : Keep P (State.dequeue s) := by
  unfold State.dequeue
  with_reducible repeat' first | assumption | apply State.finishQ_keep | apply State.modSt_keep

theorem State.useSpans_keep (s : State) (l : List Span) (hK : Keep P s) : Keep P (State.useSpans s l) := by
  unfold State.useSpans
  with_reducible repeat' first | assumption | apply State.useXlat_keep | refine Keep.foldl (fun _ _ _ => ?_) ?_

theorem State.copyTrap_keep (s : State) (rs : List RowSide) (f : CFail) (hK : Keep P s) : Keep P (State.copyTrap s rs f) := by
  unfold State.copyTrap
  with_reducible repeat' first | assumption | apply State.modSt_keep | apply State.trapAt_keep | apply State.useSpans_keep | apply State.walkFault_keep | split

theorem State.acceptCopy_keep (s : State) (e : VqEntry) (len : Nat) (ss ds : List RowSide) (bad : Bool) (hK : Keep P s) : Keep P (State.acceptCopy s e len ss ds bad) := by
  unfold State.acceptCopy
  with_reducible repeat' first | assumption | apply State.addXfer_keep | apply State.dequeue_keep | apply State.finishIfDone_keep | apply State.lockRange_keep | apply State.toToken_keep | apply State.useSpans_keep | refine Keep.out ?_ | (refine Keep.mk ?_; dsimp only) | split

theorem State.tryCopy_keepO (s : State) (e : VqEntry) (hK : Keep P s) : KeepO P (State.tryCopy s e) := by
  unfold State.tryCopy
  with_reducible repeat' first | assumption | exact KeepO.ofNone | apply State.acceptCopy_keep | apply State.copyTrap_keep | refine KeepO.ofSome ?_ | dsimp only | split

theorem State.queueCopy_keep (s : State) (kind : Nat) (d a b : BitVec 5) (f : BitVec 3) (t : BitVec 5) (pitch : Word) (hK : Keep P s) : Keep P (State.queueCopy s kind d a b f t pitch) := by
  unfold State.queueCopy
  with_reducible repeat' first | assumption | apply State.modSt_keep

theorem State.copyEntry_good {s : State} {kind : Nat} {regs : List (BitVec 5)} {d t : BitVec 5} {k : Out} (h : Keep P s) (hk : Good P k) : Good P (s.copyEntry kind regs d t k) := by
  unfold State.copyEntry
  refine State.given_good h ?_
  dsimp only
  split
  · exact Good.next (State.trap_keep _ _ _ _ h)
  · split
    · exact Good.next (State.trap_keep _ _ _ _ h)
    · split
      · exact Good.next (State.trap_keep _ _ _ _ h)
      · split
        · exact Good.next h
        · exact hk

theorem execCpy_good (d a b : BitVec 5) (f : BitVec 3) (t : BitVec 5) (s : State) (hK : Keep P s) : Good P (execCpy d a b f t s) := by
  unfold execCpy
  with_reducible repeat' first | assumption | refine Good.next ?_ | apply State.copyEntry_good | apply State.queueCopy_keep

theorem execCpy2d_good (d a b : BitVec 5) (f : BitVec 3) (t : BitVec 5) (s : State) (hK : Keep P s) : Good P (execCpy2d d a b f t s) := by
  unfold execCpy2d
  with_reducible repeat' first | assumption | refine Good.next ?_ | apply State.copyEntry_good | apply State.queueCopy_keep

theorem execCpyg_good (d a b t : BitVec 5) (s : State) (hK : Keep P s) : Good P (execCpyg d a b t s) := by
  unfold execCpyg
  with_reducible repeat' first | assumption | refine Good.next ?_ | apply State.copyEntry_good | apply State.queueCopy_keep

theorem State.segDone_keep (s : State) (x : Xfer) (landed wait : Nat) (hK : Keep P s) : Keep P (State.segDone s x landed wait) := by
  unfold State.segDone
  with_reducible repeat' first | assumption | apply State.modXfer_keep | apply State.unlock_keep | refine Keep.out ?_ | (refine Keep.mk ?_; dsimp only) | split

theorem State.deliver_keepO (s : State) (x : Xfer) (g : Seg) (v bad : Nat) (hK : Keep P s) : KeepO P (State.deliver s x g v bad) := by
  unfold State.deliver
  with_reducible repeat' first | assumption | exact KeepO.ofNone | apply Core.padPut_keepC | apply State.modCoreAt_keep | apply State.segDone_keep | apply State.sendArrival_keep | apply State.sendCast_keepO | apply State.sendReq_keep | apply State.writePa_keep | apply State.xferFail_keep | refine KeepO.ofSome ?_ | refine KeepO.map (fun _ _ => ?_) ?_ | dsimp only | split | intro _

theorem State.segRead_keep {s t : State} {x : Xfer} {g : Seg} {a b : Nat} (e : s.segRead x g = some (.ok (a, b, t))) (h : Keep P s) : Keep P t := by
  unfold State.segRead at e
  dsimp only at e
  split at e
  · split at e
    · cases e
    · injection e with e; injection e with e; injection e with e1 e; injection e with e2 e; subst e
      exact State.readLines_keep _ _ _ _ _ _ h
  · split at e
    · injection e with e; injection e
    · split at e
      · cases e
      · split at e
        · cases e
        · injection e with e; injection e with e; injection e with e1 e; injection e with e2 e; subst e
          exact h
      · injection e with e; injection e
  · injection e with e; injection e

theorem State.moveSeg_keepO (s : State) (x : Xfer) (g : Seg) (hK : Keep P s) : KeepO P (State.moveSeg s x g) := by
  unfold State.moveSeg
  with_reducible repeat' first | assumption | exact KeepO.ofNone | refine State.segRead_keep (by assumption) ?_ | apply State.deliver_keepO | apply State.modXfer_keep | apply State.sendReq_keep | apply State.xferFail_keep | refine KeepO.ofSome ?_ | split

theorem State.advance_keepO (s : State) (x : Xfer) (hK : Keep P s) : KeepO P (State.advance s x) := by
  unfold State.advance
  with_reducible repeat' first | assumption | exact KeepO.ofNone | apply State.moveSeg_keepO | apply State.xferFinish_keep | refine KeepO.ofSome ?_ | split

theorem State.withToken_good {s : State} {x : BitVec 32} {errors : Bool} {k : Token → Out} (h : Keep P s) (hk : ∀ t, Good P (k t)) : Good P (s.withToken x errors k) := by
  unfold State.withToken
  split
  · exact Good.next (State.trap_keep _ _ _ _ h)
  · split
    · exact Good.next (State.trap_keep _ _ _ _ h)
    · exact hk _

theorem State.newToken_keep (s : State) (d : BitVec 5) (hK : Keep P s) : Keep P (State.newToken s d) := by
  unfold State.newToken
  with_reducible repeat' first | assumption | apply State.choose_keepP | apply State.modCore_keep | apply State.setReg_keep | refine Keep.out ?_ | refine KeepC.out ?_ | (refine KeepC.mk ?_; dsimp only) | (refine Keep.mk ?_; dsimp only) | split | intro _

theorem execTknew_good (d a : BitVec 5) (s : State) (hK : Keep P s) : Good P (execTknew d a s) := by
  unfold execTknew
  with_reducible repeat' first | assumption | refine Good.next ?_ | apply Core.modToken_keepC | apply State.finishQ_keep | apply State.given_good | apply State.modCore_keep | apply State.newToken_keep | apply State.setReg_keep | apply State.withToken_good | split | intro _

theorem execTkfree_good (a : BitVec 5) (s : State) (hK : Keep P s) : Good P (execTkfree a s) := by
  unfold execTkfree
  with_reducible repeat' first | assumption | refine Good.next ?_ | apply State.finishQ_keep | apply State.given_good | apply State.modCore_keep | apply State.trap_keep | apply State.withToken_good | refine KeepC.out ?_ | (refine KeepC.mk ?_; dsimp only) | split | intro _

theorem State.forwardToken_keep (s : State) (c slot : Nat) (hK : Keep P s) : Keep P (State.forwardToken s c slot) := by
  unfold State.forwardToken
  with_reducible repeat' first | assumption | apply Core.modToken_keepC | apply State.modCoreAt_keep | apply State.toToken_keep | split | intro _

theorem execTkarm_good (a b : BitVec 5) (s : State) (hK : Keep P s) : Good P (execTkarm a b s) := by
  unfold execTkarm
  with_reducible repeat' first | assumption | refine Good.next ?_ | apply Core.modToken_keepC | apply State.finishQ_keep | apply State.forwardToken_keep | apply State.given_good | apply State.modCore_keep | apply State.trap_keep | apply State.withToken_good | dsimp only | split | intro _

theorem execTksig_good (a b : BitVec 5) (s : State) (hK : Keep P s) : Good P (execTksig a b s) := by
  unfold execTksig
  with_reducible repeat' first | assumption | refine Good.next ?_ | apply State.finishQ_keep | apply State.given_good | apply State.toToken_keep | apply State.trap_keep | dsimp only | split

theorem execTkrd_good (d a : BitVec 5) (s : State) (hK : Keep P s) : Good P (execTkrd d a s) := by
  unfold execTkrd
  with_reducible repeat' first | assumption | refine Good.next ?_ | apply State.finishQ_keep | apply State.given_good | apply State.setReg_keep | apply State.withToken_good | split | intro _

theorem execAwait_good (d a b : BitVec 5) (s : State) (hK : Keep P s) : Good P (execAwait d a b s) := by
  unfold execAwait
  with_reducible repeat' first | assumption | refine Good.next ?_ | apply State.finish_keep | apply State.given_good | apply State.suspend_keep | apply State.trap_keep | apply State.withToken_good | dsimp only | split | intro _

theorem execYield_good (d : BitVec 5) (s : State) (hK : Keep P s) : Good P (execYield d s) := by
  unfold execYield
  with_reducible repeat' first | assumption | refine Good.next ?_ | apply State.given_good | apply State.suspend_keep | apply State.trap_keep | split

theorem Core.freeOrphan_keepC (k : Core) (slot : Nat) (hC : KeepC P k) : KeepC P (Core.freeOrphan k slot) := by
  unfold Core.freeOrphan
  with_reducible repeat' first | assumption | refine KeepC.out ?_ | (refine KeepC.mk ?_; dsimp only)

theorem State.wakeTokens_keep (s : State) (c slot : Nat) (hK : Keep P s) : Keep P (State.wakeTokens s c slot) := by
  unfold State.wakeTokens
  with_reducible repeat' first | assumption | apply State.wakeIf_keep | split

theorem State.applyToken_keep (s : State) (m : TokMsg) (hK : Keep P s) : Keep P (State.applyToken s m) := by
  unfold State.applyToken
  with_reducible repeat' first | assumption | apply Core.freeOrphan_keepC | apply Core.modToken_keepC | apply State.forwardToken_keep | apply State.modCoreAt_keep | apply State.wakeTokens_keep | refine Keep.out ?_ | (refine Keep.mk ?_; dsimp only) | split | intro _

theorem State.goHome_keepC (s : State) (k : Core) (hC : KeepC P k) : KeepC P (State.goHome s k) := by
  unfold State.goHome
  with_reducible repeat' first | assumption | refine KeepC.out ?_ | (refine KeepC.mk ?_; dsimp only) | split

theorem State.balance_keep (s : State) (g : Gang) (hK : Keep P s) : Keep P (State.balance s g) := by
  unfold State.balance
  with_reducible repeat' first | assumption | refine Keep.out ?_ | (refine Keep.mk ?_; dsimp only) | split

theorem State.completePhase_keep (s : State) (gid : Nat) (hK : Keep P s) : Keep P (State.completePhase s gid) := by
  unfold State.completePhase
  with_reducible repeat' first | assumption | apply State.balance_keep | apply State.modGang_keep | apply State.toToken_keep | apply State.wakeIf_keep | refine Keep.foldl (fun _ _ _ => ?_) ?_ | refine Keep.out ?_ | (refine Keep.mk ?_; dsimp only) | split

theorem State.afterRelease_good {s : State} {scope : Nat} {k : Out} (h : Keep P s) (hk : Good P k) : Good P (s.afterRelease scope k) := by
  unfold State.afterRelease
  split
  · exact Good.next (State.trapAt_keep _ _ _ _ _ _ h)
  · split
    · exact hk
    · exact Good.next h

theorem execBar_good (a : BitVec 5) (s : State) (hK : Keep P s) : Good P (execBar a s) := by
  unfold execBar
  with_reducible repeat' first | assumption | refine Good.next ?_ | apply State.afterRelease_good | apply State.completePhase_keep | apply State.finishQ_keep | apply State.given_good | apply State.modGang_keep | apply State.suspend_keep | apply State.toToken_keep | apply State.trap_keep | dsimp only | split

theorem State.groupChange_good (s : State) (join : Bool) (a : BitVec 5) (i : BitVec 12) (hK : Keep P s) : Good P (State.groupChange s join a i) := by
  unfold State.groupChange
  with_reducible repeat' first | assumption | refine Good.next ?_ | apply State.finish_keep | apply State.given_good | apply State.modSt_keep | apply State.trap_keep | refine Keep.out ?_ | (refine Keep.mk ?_; dsimp only) | dsimp only | split

theorem execGjoin_good (a : BitVec 5) (i : BitVec 12) (s : State) (hK : Keep P s) : Good P (execGjoin a i s) := by
  unfold execGjoin
  with_reducible repeat' first | assumption | apply State.groupChange_good

theorem execGleave_good (a : BitVec 5) (i : BitVec 12) (s : State) (hK : Keep P s) : Good P (execGleave a i s) := by
  unfold execGleave
  with_reducible repeat' first | assumption | apply State.groupChange_good

theorem State.spawnGo_good (s : State) (d : BitVec 5) (ws : List Word) (hK : Keep P s) : Good P (State.spawnGo s d ws) := by
  unfold State.spawnGo
  with_reducible repeat' first | assumption | refine Good.next ?_ | apply State.answer_keep | apply State.finish_keep | apply State.sendReq_keep | apply State.setMark_keep | refine Keep.out ?_ | (refine Keep.mk ?_; dsimp only) | dsimp only | split

theorem State.spawnRead_good (s : State) (d : BitVec 5) (ea : Word) (p : Place) (x : Xlat) (hK : Keep P s) : Good P (State.spawnRead s d ea p x) := by
  unfold State.spawnRead
  with_reducible repeat' first | assumption | refine Good.next ?_ | apply State.askReads_keep | apply State.readLines_keep | apply State.spawnGo_good | apply State.trap_keep | apply State.trapAt_keep | apply State.useXlat_keep | dsimp only | split

theorem execSpawn_good (d a : BitVec 5) (s : State) (hK : Keep P s) : Good P (execSpawn d a s) := by
  unfold execSpawn
  with_reducible repeat' first | assumption | refine Good.next ?_ | apply State.afterRelease_good | apply State.given_good | apply State.spawnRead_good | apply State.trap_keep | apply State.trapAt_keep | apply State.walkFault_keep | dsimp only | split

theorem State.exitStrand_keep (s : State) (hK : Keep P s) : Keep P (State.exitStrand s) := by
  unfold State.exitStrand
  with_reducible repeat' first | assumption | apply State.completePhase_keep | apply State.leaveAll_keep | apply State.modGang_keep | apply State.vacate_keep

theorem execSexit_good (s : State) (hK : Keep P s) : Good P (execSexit s) := by
  unfold execSexit
  with_reducible repeat' first | assumption | refine Good.next ?_ | apply State.exitStrand_keep | split

theorem execSid_good (d : BitVec 5) (sel : BitVec 4) (s : State) (hK : Keep P s) : Good P (execSid d sel s) := by
  unfold execSid
  with_reducible repeat' first | assumption | refine Good.next ?_ | apply State.finish_keep | apply State.given_good | apply State.setReg_keep

end Sys2Proof.Machine
end

