-- ==== Sys2Proof/Laws/KeepEvents.lean ====
section
/-!
SUPPORT. That each function keeps the memories' form, and each meaning goes on and keeps it: what cores, engines, the command processor and control space do, the links, and the system instructions.
-/
set_option Elab.async false
namespace Sys2Proof.Machine

variable {P : Prop}

theorem nth_keepO {α : Type} {f : α → Option State} {n : Nat} {l : List α} (hf : ∀ a, a ∈ l → KeepO P (f a)) : KeepO P (nth f n l) := by
  induction l generalizing n with
  | nil => exact KeepO.ofNone
  | cons a l ih =>
    have hr : ∀ a, a ∈ l → KeepO P (f a) := fun b hb => hf b (List.mem_cons_of_mem _ hb)
    unfold nth
    split
    · exact ih hr
    · rename_i e
      split
      · exact KeepO.ofSome (hf a List.mem_cons_self _ e)
      · split
        · rename_i e'
          exact KeepO.ofSome (ih hr _ e')
        · exact KeepO.ofSome (hf a List.mem_cons_self _ e)

theorem State.event_good {s : State} {r : Option State} (h : Keep P s) (hr : KeepO P r) : Good P (s.event r) := Good.next (KeepO.getD hr h)

theorem State.takeDeferred_keepO (s : State) (hK : Keep P s) : KeepO P (State.takeDeferred s) := by
  unfold State.takeDeferred
  with_reducible repeat' first | assumption | exact KeepO.ofNone | apply State.modSt_keep | apply State.trapAt_keep | refine KeepO.ofSome ?_ | dsimp only | split

theorem State.cancelDeferred_keepO (s : State) (x : Nat × Strand) (hK : Keep P s) : KeepO P (State.cancelDeferred s x) := by
  unfold State.cancelDeferred
  with_reducible repeat' first | assumption | exact KeepO.ofNone | apply Core.modStrand_keepC | apply State.modCoreAt_keep | refine KeepO.ofSome ?_ | dsimp only | split | intro _

theorem State.evDeferred_keepO (s : State) (hK : Keep P s) : KeepO P (State.evDeferred s) := by
  unfold State.evDeferred
  with_reducible repeat' first | assumption | apply State.cancelDeferred_keepO | apply State.takeDeferred_keepO | apply nth_keepO | refine Keep.ofSome (by assumption) ?_ | refine KeepO.ofSome ?_ | split | intro _

theorem execDeferredTrap_good (s : State) (hK : Keep P s) : Good P (execDeferredTrap s) := by
  unfold execDeferredTrap
  with_reducible repeat' first | assumption | apply State.evDeferred_keepO | apply State.event_good

theorem State.select_keepO (s : State) (c : Nat) (hK : Keep P s) : KeepO P (State.select s c) := by
  unfold State.select
  with_reducible repeat' first | assumption | exact KeepO.ofNone | apply State.coreAt_keepC | apply State.putCore_keep | refine KeepO.ofSome ?_ | refine KeepC.out ?_ | (refine KeepC.mk ?_; dsimp only) | dsimp only | split

theorem Core.refillLarder_keepC (n : Nat) (k : Core) (h : KeepC P k) : KeepC P (k.refillLarder n) := by
  induction n generalizing k with
  | zero => exact h
  | succ n ih =>
    unfold Core.refillLarder
    split
    · exact h
    · split
      · exact h
      · exact ih _ (KeepC.mk h)

theorem State.saveEnd_keepO (s : State) (k : Core) (hK : Keep P s) (hC : KeepC P k) : KeepO P (State.saveEnd s k) := by
  unfold State.saveEnd
  with_reducible repeat' first | assumption | exact KeepO.ofNone | apply Core.refillLarder_keepC | apply State.putCore_keep | apply State.select_keepO | refine Keep.ofSome (by assumption) ?_ | refine KeepO.ofSome ?_ | refine KeepC.out ?_ | (refine KeepC.mk ?_; dsimp only) | dsimp only | split

theorem State.evSaveEnd_keepO (s : State) (hK : Keep P s) : KeepO P (State.evSaveEnd s) := by
  unfold State.evSaveEnd
  with_reducible repeat' first | assumption | apply State.saveEnd_keepO | apply nth_keepO | exact Keep.allCores (by assumption) _ (by assumption) | intro _

theorem execContextSaveEnd_good (s : State) (hK : Keep P s) : Good P (execContextSaveEnd s) := by
  unfold execContextSaveEnd
  with_reducible repeat' first | assumption | apply State.evSaveEnd_keepO | apply State.event_good

theorem State.restoreEnd_keepO (s : State) (k : Core) (hK : Keep P s) (hC : KeepC P k) : KeepO P (State.restoreEnd s k) := by
  unfold State.restoreEnd
  with_reducible repeat' first | assumption | exact KeepO.ofNone | apply Core.refillLarder_keepC | apply State.choose_keepP | apply State.putCore_keep | refine KeepO.ofSome ?_ | refine Keep.out ?_ | refine KeepC.out ?_ | (refine KeepC.mk ?_; dsimp only) | (refine Keep.mk ?_; dsimp only) | dsimp only | split

theorem State.evRestoreEnd_keepO (s : State) (hK : Keep P s) : KeepO P (State.evRestoreEnd s) := by
  unfold State.evRestoreEnd
  with_reducible repeat' first | assumption | apply State.restoreEnd_keepO | apply nth_keepO | exact Keep.allCores (by assumption) _ (by assumption) | intro _

theorem execContextRestoreEnd_good (s : State) (hK : Keep P s) : Good P (execContextRestoreEnd s) := by
  unfold execContextRestoreEnd
  with_reducible repeat' first | assumption | apply State.evRestoreEnd_keepO | apply State.event_good

theorem State.age_keepO (s : State) (x : Nat × Strand) (hK : Keep P s) : KeepO P (State.age s x) := by
  unfold State.age
  with_reducible repeat' first | assumption | exact KeepO.ofNone | apply Core.modStrand_keepC | apply State.modCoreAt_keep | refine KeepO.ofSome ?_ | dsimp only | split | intro _

theorem State.evAgeing_keepO (s : State) (hK : Keep P s) : KeepO P (State.evAgeing s) := by
  unfold State.evAgeing
  with_reducible repeat' first | assumption | apply State.age_keepO | apply nth_keepO | intro _

theorem execAgeing_good (s : State) (hK : Keep P s) : Good P (execAgeing s) := by
  unfold execAgeing
  with_reducible repeat' first | assumption | apply State.evAgeing_keepO | apply State.event_good

theorem State.rotate_keepO (s : State) (k : Core) (hK : Keep P s) (hC : KeepC P k) : KeepO P (State.rotate s k) := by
  unfold State.rotate
  with_reducible repeat' first | assumption | exact KeepO.ofNone | apply State.putCore_keep | apply State.spill_keep | refine KeepO.ofSome ?_ | refine KeepC.out ?_ | (refine KeepC.mk ?_; dsimp only) | dsimp only | split

theorem State.evRotation_keepO (s : State) (hK : Keep P s) : KeepO P (State.evRotation s) := by
  unfold State.evRotation
  with_reducible repeat' first | assumption | apply State.rotate_keepO | apply nth_keepO | exact Keep.allCores (by assumption) _ (by assumption) | intro _

theorem execIssueRotation_good (s : State) (hK : Keep P s) : Good P (execIssueRotation s) := by
  unfold execIssueRotation
  with_reducible repeat' first | assumption | apply State.evRotation_keepO | apply State.event_good

theorem State.dropAsks_keep (s : State) (gang rank : Nat) (hK : Keep P s) : Keep P (State.dropAsks s gang rank) := by
  unfold State.dropAsks
  with_reducible repeat' first | assumption | refine Keep.out ?_ | (refine Keep.mk ?_; dsimp only)

theorem State.rollback_keepO (s : State) (k : Core) (hK : Keep P s) (hC : KeepC P k) : KeepO P (State.rollback s k) := by
  unfold State.rollback
  with_reducible repeat' first | assumption | exact KeepO.ofNone | apply State.dropAsks_keep | apply State.putCore_keep | refine KeepO.ofSome ?_ | refine KeepC.out ?_ | (refine KeepC.mk ?_; dsimp only) | dsimp only | split

theorem State.evRollback_keepO (s : State) (hK : Keep P s) : KeepO P (State.evRollback s) := by
  unfold State.evRollback
  with_reducible repeat' first | assumption | apply State.rollback_keepO | apply nth_keepO | exact Keep.allCores (by assumption) _ (by assumption) | intro _

theorem execGroupRollback_good (s : State) (hK : Keep P s) : Good P (execGroupRollback s) := by
  unfold execGroupRollback
  with_reducible repeat' first | assumption | apply State.evRollback_keepO | apply State.event_good

theorem State.evToken_keepO (s : State) (hK : Keep P s) : KeepO P (State.evToken s) := by
  unfold State.evToken
  with_reducible repeat' first | assumption | exact KeepO.ofNone | apply State.applyToken_keep | refine KeepO.ofSome ?_ | refine Keep.out ?_ | (refine Keep.mk ?_; dsimp only) | split

theorem execTokenCompletion_good (s : State) (hK : Keep P s) : Good P (execTokenCompletion s) := by
  unfold execTokenCompletion
  with_reducible repeat' first | assumption | apply State.evToken_keepO | apply State.event_good

theorem State.evReply_keepO (s : State) (hK : Keep P s) : KeepO P (State.evReply s) := by
  unfold State.evReply
  with_reducible repeat' first | assumption | exact KeepO.ofNone | apply State.modStrand_keep | refine KeepO.ofSome ?_ | refine Keep.out ?_ | (refine Keep.mk ?_; dsimp only) | split

theorem execRemoteReply_good (s : State) (hK : Keep P s) : Good P (execRemoteReply s) := by
  unfold execRemoteReply
  with_reducible repeat' first | assumption | apply State.evReply_keepO | apply State.event_good

theorem State.storeLocal_keep (s : State) (c : Nat) (e : SbEntry) (hK : Keep P s) : Keep P (State.storeLocal s c e) := by
  unfold State.storeLocal
  with_reducible repeat' first | assumption | apply State.modCoreAt_keep | refine Keep.out ?_ | refine KeepC.out ?_ | (refine KeepC.mk ?_; dsimp only) | (refine Keep.mk ?_; dsimp only) | split | intro _

theorem State.ctlValue_keepP (s : State) (v : Word) (psn : Bool) (hK : Keep P s) : KeepP P (State.ctlValue s v psn) := by
  unfold State.ctlValue
  with_reducible repeat' first | assumption | apply State.choose_keepP | split

theorem State.sendEntry_keepO (s : State) (c : Nat) (rest : List SbEntry) (e : SbEntry) (hK : Keep P s) : KeepO P (State.sendEntry s c rest e) := by
  unfold State.sendEntry
  with_reducible repeat' first | assumption | exact KeepO.ofNone | apply Core.padPut_keepC | apply State.ctlValue_keepP | apply State.modCoreAt_keep | apply State.modStrand_keep | apply State.sendWrite_keep | apply State.storeLocal_keep | apply State.writePa_keep | refine KeepO.ofSome ?_ | refine Keep.out ?_ | refine KeepC.out ?_ | (refine KeepC.mk ?_; dsimp only) | (refine Keep.mk ?_; dsimp only) | dsimp only | split | intro _

theorem State.takeOut_keep (s : State) (hK : Keep P s) : Keep P (State.takeOut s) := by
  unfold State.takeOut
  with_reducible repeat' first | assumption | apply State.modCore_keep | refine KeepC.out ?_ | (refine KeepC.mk ?_; dsimp only) | dsimp only | intro _

theorem State.sendStore_keepO (s : State) (k : Core) (hK : Keep P s) : KeepO P (State.sendStore s k) := by
  unfold State.sendStore
  with_reducible repeat' first | assumption | exact KeepO.ofNone | apply State.takeOut_keep | apply State.sendEntry_keepO | apply State.turnTo_keep | refine KeepO.map (fun _ _ => ?_) ?_ | dsimp only | split

theorem State.evStoreSend_keepO (s : State) (hK : Keep P s) : KeepO P (State.evStoreSend s) := by
  unfold State.evStoreSend
  with_reducible repeat' first | assumption | apply State.sendStore_keepO | apply nth_keepO | intro _

theorem execStoreSend_good (s : State) (hK : Keep P s) : Good P (execStoreSend s) := by
  unfold execStoreSend
  with_reducible repeat' first | assumption | apply State.evStoreSend_keepO | apply State.event_good

theorem State.evL1Fill_keepO (s : State) (hK : Keep P s) : KeepO P (State.evL1Fill s) := by
  unfold State.evL1Fill
  with_reducible repeat' first | assumption | exact KeepO.ofNone | apply State.modCoreAt_keep | refine KeepO.ofSome ?_ | refine Keep.out ?_ | refine KeepC.out ?_ | (refine KeepC.mk ?_; dsimp only) | (refine Keep.mk ?_; dsimp only) | split | intro _

theorem execL1Fill_good (s : State) (hK : Keep P s) : Good P (execL1Fill s) := by
  unfold execL1Fill
  with_reducible repeat' first | assumption | apply State.evL1Fill_keepO | apply State.event_good

theorem State.ackInval_keepO (s : State) (x : Inval × Nat) (hK : Keep P s) : KeepO P (State.ackInval s x) := by
  unfold State.ackInval
  with_reducible repeat' first | assumption | apply State.completePhase_keep | apply State.modCoreAt_keep | refine KeepO.ofSome ?_ | refine Keep.out ?_ | refine KeepC.out ?_ | (refine KeepC.mk ?_; dsimp only) | (refine Keep.mk ?_; dsimp only) | split | intro _

theorem State.evInvalAck_keepO (s : State) (hK : Keep P s) : KeepO P (State.evInvalAck s) := by
  unfold State.evInvalAck
  with_reducible repeat' first | assumption | exact KeepO.ofNone | apply State.ackInval_keepO | dsimp only | split

theorem execInvalidationAck_good (s : State) (hK : Keep P s) : Good P (execInvalidationAck s) := by
  unfold execInvalidationAck
  with_reducible repeat' first | assumption | apply State.evInvalAck_keepO | apply State.event_good

theorem State.evPageWalk_keepO (s : State) (hK : Keep P s) : KeepO P (State.evPageWalk s) := by
  unfold State.evPageWalk
  with_reducible repeat' first | assumption | exact KeepO.ofNone | apply State.modCoreAt_keep | refine KeepO.ofSome ?_ | refine Keep.out ?_ | refine KeepC.out ?_ | (refine KeepC.mk ?_; dsimp only) | (refine Keep.mk ?_; dsimp only) | dsimp only | split | intro _

theorem execPageWalk_good (s : State) (hK : Keep P s) : Good P (execPageWalk s) := by
  unfold execPageWalk
  with_reducible repeat' first | assumption | apply State.evPageWalk_keepO | apply State.event_good

theorem State.acceptAt_keepO (s : State) (k : Core) (hK : Keep P s) : KeepO P (State.acceptAt s k) := by
  unfold State.acceptAt
  with_reducible repeat' first | assumption | exact KeepO.ofNone | apply State.tryCopy_keepO | apply State.turnTo_keep | refine KeepO.map (fun _ _ => ?_) ?_ | split

theorem State.evCopyAccept_keepO (s : State) (hK : Keep P s) : KeepO P (State.evCopyAccept s) := by
  unfold State.evCopyAccept
  with_reducible repeat' first | assumption | apply State.acceptAt_keepO | apply nth_keepO | intro _

theorem execCopyAccept_good (s : State) (hK : Keep P s) : Good P (execCopyAccept s) := by
  unfold execCopyAccept
  with_reducible repeat' first | assumption | apply State.evCopyAccept_keepO | apply State.event_good

theorem State.evCopyComplete_keepO (s : State) (hK : Keep P s) : KeepO P (State.evCopyComplete s) := by
  unfold State.evCopyComplete
  with_reducible repeat' first | assumption | apply State.advance_keepO | apply nth_keepO | intro _

theorem execCopyComplete_good (s : State) (hK : Keep P s) : Good P (execCopyComplete s) := by
  unfold execCopyComplete
  with_reducible repeat' first | assumption | apply State.evCopyComplete_keepO | apply State.event_good

theorem State.queueArrival_keep (s : State) (c : Nat) (a : Arrival) (hK : Keep P s) : Keep P (State.queueArrival s c a) := by
  unfold State.queueArrival
  with_reducible repeat' first | assumption | apply State.arrivalDone_keep | apply State.modCoreAt_keep | refine Keep.out ?_ | refine KeepC.out ?_ | (refine KeepC.mk ?_; dsimp only) | (refine Keep.mk ?_; dsimp only) | split | intro _

theorem State.arriveAt_keepO (s : State) (a : Arrival) (hK : Keep P s) : KeepO P (State.arriveAt s a) := by
  unfold State.arriveAt
  with_reducible repeat' first | assumption | exact KeepO.ofNone | apply State.arrivalDone_keep | apply State.contribute_keepO | apply State.landFill_keep | apply State.queueArrival_keep | refine Keep.ofSome (by assumption) ?_ | refine KeepO.ofSome ?_ | split

theorem State.retry_keepO (s : State) (a : Arrival) (hK : Keep P s) : KeepO P (State.retry s a) := by
  unfold State.retry
  with_reducible repeat' first | assumption | exact KeepO.ofNone | apply State.arrivalDone_keep | apply State.arriveAt_keepO | apply State.modXfer_keep | apply State.sendArrival_keep | apply State.sendCast_keepO | refine KeepO.ofSome ?_ | refine KeepO.map (fun _ _ => ?_) ?_ | refine Keep.out ?_ | (refine Keep.mk ?_; dsimp only) | dsimp only | split

theorem State.evRetry_keepO (s : State) (hK : Keep P s) : KeepO P (State.evRetry s) := by
  unfold State.evRetry
  with_reducible repeat' first | assumption | apply State.retry_keepO | apply nth_keepO | intro _

theorem execFillRetry_good (s : State) (hK : Keep P s) : Good P (execFillRetry s) := by
  unfold execFillRetry
  with_reducible repeat' first | assumption | apply State.evRetry_keepO | apply State.event_good

theorem State.endFill_keep (s : State) (o : Nat × Nat) (hK : Keep P s) : Keep P (State.endFill s o) := by
  unfold State.endFill
  with_reducible repeat' first | assumption | apply Core.modTile_keepC | apply State.letIn_keep | apply State.modCoreAt_keep | refine Keep.foldl (fun _ _ _ => ?_) ?_ | intro _

theorem State.evFillEnd_keepO (s : State) (hK : Keep P s) : KeepO P (State.evFillEnd s) := by
  unfold State.evFillEnd
  with_reducible repeat' first | assumption | exact KeepO.ofNone | apply State.endFill_keep | refine KeepO.ofSome ?_ | refine Keep.out ?_ | (refine Keep.mk ?_; dsimp only) | split

theorem execFillEnd_good (s : State) (hK : Keep P s) : Good P (execFillEnd s) := by
  unfold execFillEnd
  with_reducible repeat' first | assumption | apply State.evFillEnd_keepO | apply State.event_good

theorem State.evPorch_keepO (s : State) (hK : Keep P s) : KeepO P (State.evPorch s) := by
  unfold State.evPorch
  with_reducible repeat' first | assumption | apply State.arrivePiece_keepO | apply nth_keepO | refine Keep.out ?_ | (refine Keep.mk ?_; dsimp only) | intro _

theorem execPorchRequest_good (s : State) (hK : Keep P s) : Good P (execPorchRequest s) := by
  unfold execPorchRequest
  with_reducible repeat' first | assumption | apply State.evPorch_keepO | apply State.event_good

theorem State.expire_keepO (s : State) (p : Porch) (hK : Keep P s) : KeepO P (State.expire s p) := by
  unfold State.expire
  with_reducible repeat' first | assumption | exact KeepO.ofNone | apply State.release_keep | refine KeepO.ofSome ?_ | split

theorem State.evHold_keepO (s : State) (hK : Keep P s) : KeepO P (State.evHold s) := by
  unfold State.evHold
  with_reducible repeat' first | assumption | apply State.expire_keepO | apply nth_keepO | intro _

theorem execHoldExpiry_good (s : State) (hK : Keep P s) : Good P (execHoldExpiry s) := by
  unfold execHoldExpiry
  with_reducible repeat' first | assumption | apply State.evHold_keepO | apply State.event_good

theorem State.forget_keepO (s : State) (p : Porch) (hK : Keep P s) : KeepO P (State.forget s p) := by
  unfold State.forget
  with_reducible repeat' first | assumption | exact KeepO.ofNone | refine KeepO.ofSome ?_ | refine Keep.out ?_ | (refine Keep.mk ?_; dsimp only) | split

theorem State.evReleased_keepO (s : State) (hK : Keep P s) : KeepO P (State.evReleased s) := by
  unfold State.evReleased
  with_reducible repeat' first | assumption | apply State.forget_keepO | apply nth_keepO | intro _

theorem execReleasedEntryExpiry_good (s : State) (hK : Keep P s) : Good P (execReleasedEntryExpiry s) := by
  unfold execReleasedEntryExpiry
  with_reducible repeat' first | assumption | apply State.evReleased_keepO | apply State.event_good

theorem State.ackGroup_keepO (s : State) (q : GroupReq) (hK : Keep P s) : KeepO P (State.ackGroup s q) := by
  unfold State.ackGroup
  with_reducible repeat' first | assumption | exact KeepO.ofNone | apply State.joinGroup_keep | apply State.leaveGroup_keep | apply State.modStrand_keep | refine KeepO.ofSome ?_ | refine Keep.out ?_ | (refine Keep.mk ?_; dsimp only) | dsimp only | split

theorem State.evGroupAck_keepO (s : State) (hK : Keep P s) : KeepO P (State.evGroupAck s) := by
  unfold State.evGroupAck
  with_reducible repeat' first | assumption | apply State.ackGroup_keepO | apply nth_keepO | intro _

theorem execGroupChangeAck_good (s : State) (hK : Keep P s) : Good P (execGroupChangeAck s) := by
  unfold execGroupChangeAck
  with_reducible repeat' first | assumption | apply State.evGroupAck_keepO | apply State.event_good

theorem State.ringPut_keep (s : State) (w : BitVec 256) (hK : Keep P s) : Keep P (State.ringPut s w) := by
  unfold State.ringPut
  with_reducible repeat' first | assumption | refine Keep.out ?_ | (refine Keep.mk ?_; dsimp only)

theorem State.bridgeTake_keep (s : State) (w : BitVec 256) (hK : Keep P s) : Keep P (State.bridgeTake s w) := by
  unfold State.bridgeTake
  with_reducible repeat' first | assumption | apply State.ringPut_keep | refine Keep.out ?_ | (refine Keep.mk ?_; dsimp only) | split

theorem State.keepMsg_keep (s : State) (w : BitVec 256) (hK : Keep P s) : Keep P (State.keepMsg s w) := by
  unfold State.keepMsg
  with_reducible repeat' first | assumption | refine Keep.out ?_ | (refine Keep.mk ?_; dsimp only) | split

theorem State.hostMsg_keep (s : State) (w : BitVec 256) (hK : Keep P s) : Keep P (State.hostMsg s w) := by
  unfold State.hostMsg
  with_reducible repeat' first | assumption | apply State.bridgeTake_keep | apply State.keepMsg_keep | refine Keep.out ?_ | (refine Keep.mk ?_; dsimp only) | split

theorem State.lostLine_keep (s : State) (asid line : Nat) (hK : Keep P s) : Keep P (State.lostLine s asid line) := by
  unfold State.lostLine
  with_reducible repeat' first | assumption | apply State.hostMsg_keep | refine Keep.foldl (fun _ _ _ => ?_) ?_

theorem State.writeRecord_keep (s : State) (g : Gang) (x : Stop) (hK : Keep P s) : Keep P (State.writeRecord s g x) := by
  unfold State.writeRecord
  with_reducible repeat' first | assumption | apply State.writePa_keep

theorem State.flushEntries_keep (s : State) (core gang rank : Nat) (l : List SbEntry) (h : Keep P s) : Keep P (s.flushEntries core gang rank l) := by
  induction l generalizing s with
  | nil => exact h
  | cons e l ih =>
    unfold State.flushEntries
    dsimp only
    split
    · apply ih
      split
      · exact KeepO.getD (State.sendEntry_keepO _ _ _ _ (State.choose_keepP _ _ h)) (State.modCoreAt_keep _ _ _ (State.choose_keepP _ _ h) (fun _ h => KeepC.mk h))
      · exact State.modCoreAt_keep _ _ _ (State.choose_keepP _ _ h) (fun _ h => KeepC.mk h)
    · exact ih s h

theorem State.dropReqs_keep (s : State) (gang rank : Nat) (hK : Keep P s) : Keep P (State.dropReqs s gang rank) := by
  unfold State.dropReqs
  with_reducible repeat' first | assumption | refine Keep.out ?_ | (refine Keep.mk ?_; dsimp only)

theorem State.sendEnds_keep (s : State) (gang rank : Nat) (hK : Keep P s) : Keep P (State.sendEnds s gang rank) := by
  unfold State.sendEnds
  with_reducible repeat' first | assumption | apply State.sendArrival_keep | refine Keep.foldl (fun _ _ _ => ?_) ?_

theorem State.sendOwed_keep (s : State) (core gang rank : Nat) (hK : Keep P s) : Keep P (State.sendOwed s core gang rank) := by
  unfold State.sendOwed
  with_reducible repeat' first | assumption | apply State.fillGo_keepO | apply State.sendArrival_keep | apply State.turnTo_keep | refine KeepO.getD ?_ ?_ | refine KeepO.map (fun _ _ => ?_) ?_ | refine Keep.foldl (fun _ _ _ => ?_) ?_

theorem State.haltStrand_keep (s : State) (gang rank : Nat) (hK : Keep P s) : Keep P (State.haltStrand s gang rank) := by
  unfold State.haltStrand
  with_reducible repeat' first | assumption | apply Core.modStrand_keepC | apply State.dropReqs_keep | apply State.endAt_keep | apply State.endOwned_keep | apply State.flushEntries_keep | apply State.leaveAll_keep | apply State.modCoreAt_keep | apply State.modGang_keep | apply State.sendOwed_keep | refine Keep.foldl (fun _ _ _ => ?_) ?_ | refine Keep.out ?_ | refine KeepC.out ?_ | (refine KeepC.mk ?_; dsimp only) | (refine Keep.mk ?_; dsimp only) | split | intro _

theorem State.sealTiles_keep (s : State) (gang rank : Nat) (hK : Keep P s) : Keep P (State.sealTiles s gang rank) := by
  unfold State.sealTiles
  with_reducible repeat' first | assumption | apply State.arrivalDone_keep | apply State.coreAt_keepC | apply State.putCore_keep | refine Keep.foldl (fun _ _ _ => ?_) ?_ | refine Keep.out ?_ | refine KeepC.out ?_ | (refine KeepC.mk ?_; dsimp only) | (refine Keep.mk ?_; dsimp only) | split

theorem State.containOne_keepO (s : State) (x : Contain) (hK : Keep P s) : KeepO P (State.containOne s x) := by
  unfold State.containOne
  with_reducible repeat' first | assumption | exact KeepO.ofNone | apply State.completePhase_keep | apply State.haltStrand_keep | apply State.modGang_keep | apply State.sealTiles_keep | apply State.sendEnds_keep | apply State.writeRecord_keep | refine KeepO.ofSome ?_ | refine Keep.foldl (fun _ _ _ => ?_) ?_ | refine Keep.out ?_ | (refine Keep.mk ?_; dsimp only) | dsimp only | split

theorem State.evContain_keepO (s : State) (hK : Keep P s) : KeepO P (State.evContain s) := by
  unfold State.evContain
  with_reducible repeat' first | assumption | apply State.containOne_keepO | apply nth_keepO | intro _

theorem execContainment_good (s : State) (hK : Keep P s) : Good P (execContainment s) := by
  unfold execContainment
  with_reducible repeat' first | assumption | apply State.evContain_keepO | apply State.event_good

theorem State.exitRecords_keep (s : State) (g : Gang) (hK : Keep P s) : Keep P (State.exitRecords s g) := by
  unfold State.exitRecords
  with_reducible repeat' first | assumption | apply State.writeRecord_keep | refine Keep.foldl (fun _ _ _ => ?_) ?_ | refine Keep.out ?_ | (refine Keep.mk ?_; dsimp only) | split

theorem State.copyRecords_keep (s : State) (g : Gang) (h : Keep P s) : Keep P (s.copyRecords g) := by
  unfold State.copyRecords
  suffices all : ∀ (l : List (Nat × Nat × Nat)) (f : State × Nat → Nat × Nat × Nat → State × Nat), (∀ r a, Keep P r.1 → Keep P (f r a).1) →
      ∀ r : State × Nat, Keep P r.1 → Keep P (l.foldl f r).1 from all _ _ (fun r a hr => State.writePa_keep _ _ _ _ _ _ _ _ _ _ _ _ hr) _ h
  intro l f hf
  induction l with
  | nil => exact fun _ hr => hr
  | cons a l ih => exact fun r hr => ih _ (hf r a hr)

theorem Core.freeTokensOf_keepC (k : Core) (dev : Nat) (g : Gang) (hC : KeepC P k) : KeepC P (Core.freeTokensOf k dev g) := by
  unfold Core.freeTokensOf
  with_reducible repeat' first | assumption | refine KeepC.out ?_ | (refine KeepC.mk ?_; dsimp only)

theorem State.releaseCore_keep (s : State) (g : Gang) (c : Nat) (hK : Keep P s) : Keep P (State.releaseCore s g c) := by
  unfold State.releaseCore
  with_reducible repeat' first | assumption | apply Core.freeTokensOf_keepC | apply Core.refillLarder_keepC | apply State.arrivalDone_keep | apply State.coreAt_keepC | apply State.goHome_keepC | apply State.putCore_keep | refine Keep.foldl (fun _ _ _ => ?_) ?_ | refine Keep.out ?_ | refine KeepC.out ?_ | (refine KeepC.mk ?_; dsimp only) | (refine Keep.mk ?_; dsimp only)

theorem State.retire_keep (s : State) (gid new : Nat) (hK : Keep P s) : Keep P (State.retire s gid new) := by
  unfold State.retire
  with_reducible repeat' first | assumption | refine Keep.out ?_ | (refine Keep.mk ?_; dsimp only)

theorem State.endGang_keep (s : State) (g : Gang) (hK : Keep P s) : Keep P (State.endGang s g) := by
  unfold State.endGang
  with_reducible repeat' first | assumption | apply State.copyRecords_keep | apply State.exitRecords_keep | apply State.leaveAll_keep | apply State.rebind_keep | apply State.releaseCore_keep | apply State.retire_keep | refine Keep.foldl (fun _ _ _ => ?_) ?_ | refine Keep.out ?_ | (refine Keep.mk ?_; dsimp only) | split

theorem State.evGangComplete_keepO (s : State) (hK : Keep P s) : KeepO P (State.evGangComplete s) := by
  unfold State.evGangComplete
  with_reducible repeat' first | assumption | exact KeepO.ofNone | apply State.endGang_keep | apply nth_keepO | refine KeepO.ofSome ?_ | split | intro _

theorem execGangComplete_good (s : State) (hK : Keep P s) : Good P (execGangComplete s) := by
  unfold execGangComplete
  with_reducible repeat' first | assumption | apply State.evGangComplete_keepO | apply State.event_good

theorem State.noteNamed_keep (s : State) (asid pt : Nat) (ws : List Word) (hK : Keep P s) : Keep P (State.noteNamed s asid pt ws) := by
  unfold State.noteNamed
  with_reducible repeat' first | assumption | apply State.cpNote_keep | refine Keep.foldl (fun _ _ _ => ?_) ?_ | refine Keep.out ?_ | (refine Keep.mk ?_; dsimp only) | split

theorem State.stopQueue_keep (s : State) (q status : Nat) (hK : Keep P s) : Keep P (State.stopQueue s q status) := by
  unfold State.stopQueue
  with_reducible repeat' first | assumption | apply State.putQueue_keep | refine Keep.out ?_ | (refine Keep.mk ?_; dsimp only)

theorem State.examine_keep (s : State) (q : Nat) (hK : Keep P s) : Keep P (State.examine s q) := by
  unfold State.examine
  with_reducible repeat' first | assumption | apply State.cpNote_keep | apply State.fresh_keepP | apply State.putQueue_keep | apply State.readLine_keep | apply State.stopQueue_keep | apply State.writePa_keep | refine Keep.out ?_ | (refine Keep.mk ?_; dsimp only) | split

theorem State.examineAll_keep (s : State) (hK : Keep P s) : Keep P (State.examineAll s) := by
  unfold State.examineAll
  with_reducible repeat' first | assumption | apply State.examine_keep | refine Keep.foldl (fun _ _ _ => ?_) ?_

theorem State.modPkt_keep (s : State) (id : Nat) (f : Pkt → Pkt) (hK : Keep P s) : Keep P (State.modPkt s id f) := by
  unfold State.modPkt
  with_reducible repeat' first | assumption | refine Keep.out ?_ | (refine Keep.mk ?_; dsimp only)

theorem State.failPkt_keep (s : State) (p : Pkt) (status : Nat) (sig : Option (Nat × Nat)) (hK : Keep P s) : Keep P (State.failPkt s p status sig) := by
  unfold State.failPkt
  with_reducible repeat' first | assumption | apply State.modPkt_keep | apply State.stopQueue_keep

theorem State.putSignal_keep (s : State) (unit : Nat) (at_ : Nat × Nat) (v : Nat) (hK : Keep P s) : Keep P (State.putSignal s unit at_ v) := by
  unfold State.putSignal
  with_reducible repeat' first | assumption | apply State.writePa_keep

theorem State.testWait_keepO (s : State) (p : Pkt) (hK : Keep P s) : KeepO P (State.testWait s p) := by
  unfold State.testWait
  with_reducible repeat' first | assumption | exact KeepO.ofNone | apply State.failPkt_keep | apply State.modPkt_keep | apply State.readLine_keep | refine KeepO.ofSome ?_ | dsimp only | split

theorem State.testWaits_keep (s : State) (hK : Keep P s) : Keep P (State.testWaits s) := by
  unfold State.testWaits
  with_reducible repeat' first | assumption | apply State.testWait_keepO | refine KeepO.getD ?_ ?_ | refine Keep.foldl (fun _ _ _ => ?_) ?_

theorem State.startPkt_keepO {s : State} {p : Pkt} {go : State → Queue → Named → Pkt → Option State} (h : Keep P s) (hg : ∀ s q n p, Keep P s → KeepO P (go s q n p)) : KeepO P (s.startPkt p go) := by
  have h1 := State.noteNamed_keep s (s.queue p.queue).asid (s.queue p.queue).ptbase p.dwords h
  unfold State.startPkt
  dsimp only
  split
  · exact KeepO.ofNone
  · split
    · refine KeepO.ofSome (State.failPkt_keep _ _ _ _ ?_)
      split
      · exact h1
      · exact h
    · exact KeepO.ofNone
  · exact KeepO.map (fun _ ht => State.examineAll_keep _ ht) (hg _ _ _ _ (State.modPkt_keep _ _ _ h1))

theorem State.joinList_keep (s : State) (t : Task) (hK : Keep P s) : Keep P (State.joinList s t) := by
  unfold State.joinList
  with_reducible repeat' first | assumption | refine Keep.out ?_ | (refine Keep.mk ?_; dsimp only)

theorem State.logFabric_keep (s : State) (kind d1 : Nat) (hK : Keep P s) : Keep P (State.logFabric s kind d1) := by
  unfold State.logFabric
  with_reducible repeat' first | assumption | apply State.logErr_keep

theorem State.liftFence_keep (s : State) (n : Nat) (hK : Keep P s) : Keep P (State.liftFence s n) := by
  unfold State.liftFence
  with_reducible repeat' first | assumption | apply State.logFabric_keep | refine Keep.out ?_ | (refine Keep.mk ?_; dsimp only)

theorem State.refusedFill_keep (s : State) (a : Arrival) (hK : Keep P s) : Keep P (State.refusedFill s a) := by
  unfold State.refusedFill
  with_reducible repeat' first | assumption | apply State.arrivalDone_keep | refine Keep.out ?_ | (refine Keep.mk ?_; dsimp only) | split

theorem State.hostDone_keep (s : State) (id : Nat) (ok : Bool) (data : BitVec 2048) (hK : Keep P s) : Keep P (State.hostDone s id ok data) := by
  unfold State.hostDone
  with_reducible repeat' first | assumption | refine Keep.out ?_ | (refine Keep.mk ?_; dsimp only)

theorem State.answerReq_keepO (s : State) (r : Req) (status psn payload d1 : Nat) (hK : Keep P s) : KeepO P (State.answerReq s r status psn payload d1) := by
  unfold State.answerReq
  with_reducible repeat' first | assumption | apply State.answer_keep | apply State.arrivalDone_keep | apply State.deliver_keepO | apply State.fillMembers_keep | apply State.hostDone_keep | apply State.liftFence_keep | apply State.modStrand_keep | apply State.modXfer_keep | apply State.refusedFill_keep | apply State.xferAnswer_keep | apply State.xferFail_keep | refine KeepO.ofSome ?_ | refine KeepO.map (fun _ _ => ?_) ?_ | refine Keep.foldl (fun _ _ _ => ?_) ?_ | refine Keep.out ?_ | (refine Keep.mk ?_; dsimp only) | dsimp only | split

theorem State.settleTokens_keep (s : State) (n : Nat) (hK : Keep P s) : Keep P (State.settleTokens s n) := by
  unfold State.settleTokens
  with_reducible repeat' first | assumption | apply State.modCoreAt_keep | refine Keep.foldl (fun _ _ _ => ?_) ?_ | refine KeepC.out ?_ | (refine KeepC.mk ?_; dsimp only) | intro _

theorem State.fenceDev_keep (s : State) (n : Nat) (hK : Keep P s) : Keep P (State.fenceDev s n) := by
  unfold State.fenceDev
  with_reducible repeat' first | assumption | apply State.answerReq_keepO | apply State.keepMsg_keep | apply State.logFabric_keep | apply State.settleTokens_keep | refine KeepO.getD ?_ ?_ | refine Keep.foldl (fun _ _ _ => ?_) ?_ | refine Keep.out ?_ | (refine Keep.mk ?_; dsimp only)

theorem State.putPair_keep (s : State) (p : Pair) (hK : Keep P s) : Keep P (State.putPair s p) := by
  unfold State.putPair
  with_reducible repeat' first | assumption | refine Keep.out ?_ | (refine Keep.mk ?_; dsimp only)

theorem State.emitOne_keep (s : State) (f : Flit) (hK : Keep P s) : Keep P (State.emitOne s f) := by
  unfold State.emitOne
  with_reducible repeat' first | assumption | refine Keep.out ?_ | (refine Keep.mk ?_; dsimp only)

theorem State.emit_keep (s : State) (fs : List Flit) (hK : Keep P s) : Keep P (State.emit s fs) := by
  unfold State.emit
  with_reducible repeat' first | assumption | apply State.emitOne_keep | refine Keep.foldl (fun _ _ _ => ?_) ?_

theorem State.takeCredit_keep (s : State) (ctl : Nat) (hK : Keep P s) : Keep P (State.takeCredit s ctl) := by
  unfold State.takeCredit
  with_reducible repeat' first | assumption | refine Keep.out ?_ | (refine Keep.mk ?_; dsimp only)

theorem State.sendFlit_keep (s : State) (dev : Nat) (mc : Bool) (vc dest area : Nat) (xfer : Option Nat) (hK : Keep P s) : Keep P (State.sendFlit s dev mc vc dest area xfer) := by
  unfold State.sendFlit
  with_reducible repeat' first | assumption | apply State.emit_keep | apply State.putPair_keep

theorem State.transmitN_keep (n : Nat) (s : State) (h : Keep P s) : Keep P (State.transmitN n s) := by
  induction n generalizing s with
  | zero => exact h
  | succ n ih =>
    unfold State.transmitN
    split
    · exact h
    · split
      · exact ih _ (Keep.mk (by dsimp only; exact Keep.out h))
      · dsimp only
        split
        · exact h
        · exact ih _ (Keep.foldl (fun s a h => State.sendFlit_keep _ _ _ _ _ _ _ h) (Keep.mk (by dsimp only; exact Keep.out h)))

theorem State.pruneCast_keep (s : State) (g : Nat) (hK : Keep P s) : Keep P (State.pruneCast s g) := by
  unfold State.pruneCast
  with_reducible repeat' first | assumption | apply State.putPair_keep | refine Keep.out ?_ | (refine Keep.mk ?_; dsimp only) | split

theorem State.pruneCasts_keep (s : State) (hK : Keep P s) : Keep P (State.pruneCasts s) := by
  unfold State.pruneCasts
  with_reducible repeat' first | assumption | apply State.pruneCast_keep | refine Keep.foldl (fun _ _ _ => ?_) ?_

theorem State.transmit_keep (s : State) (hK : Keep P s) : Keep P (State.transmit s) := by
  unfold State.transmit
  with_reducible repeat' first | assumption | apply State.pruneCasts_keep | apply State.transmitN_keep | split

theorem State.replay_keep (s : State) (dev : Nat) (hK : Keep P s) : Keep P (State.replay s dev) := by
  unfold State.replay
  with_reducible repeat' first | assumption | apply State.emit_keep | apply State.putPair_keep | refine Keep.out ?_ | (refine Keep.mk ?_; dsimp only) | split

theorem State.takeAck_keep (s : State) (dev ack : Nat) (nak : Bool) (hK : Keep P s) : Keep P (State.takeAck s dev ack nak) := by
  unfold State.takeAck
  with_reducible repeat' first | assumption | apply State.putPair_keep | apply State.replay_keep | refine Keep.out ?_ | (refine Keep.mk ?_; dsimp only) | split

theorem State.takeCastAck_keep (s : State) (g m ack : Nat) (nak : Bool) (hK : Keep P s) : Keep P (State.takeCastAck s g m ack nak) := by
  unfold State.takeCastAck
  with_reducible repeat' first | assumption | apply State.pruneCast_keep | apply State.putPair_keep | apply State.replay_keep | refine Keep.out ?_ | (refine Keep.mk ?_; dsimp only) | split

theorem State.sendAck_keep (s : State) (dev : Nat) (hK : Keep P s) : Keep P (State.sendAck s dev) := by
  unfold State.sendAck
  with_reducible repeat' first | assumption | apply State.emit_keep | apply State.putPair_keep | apply State.takeCastAck_keep | refine Keep.out ?_ | (refine Keep.mk ?_; dsimp only) | split

theorem State.judgePlane_keep (s : State) (i : Nat) (p : Plane) (hK : Keep P s) : Keep P (State.judgePlane s i p) := by
  unfold State.judgePlane
  with_reducible repeat' first | assumption | apply State.logFabric_keep | refine Keep.out ?_ | (refine Keep.mk ?_; dsimp only) | split

theorem State.takeBlock_keep (s : State) (b : RxBlock) (hK : Keep P s) : Keep P (State.takeBlock s b) := by
  unfold State.takeBlock
  with_reducible repeat' first | assumption | apply State.judgePlane_keep | refine Keep.foldl (fun _ _ _ => ?_) ?_ | refine Keep.out ?_ | (refine Keep.mk ?_; dsimp only) | split

theorem State.failFlit_keep (s : State) (src dev : Nat) (hK : Keep P s) : Keep P (State.failFlit s src dev) := by
  unfold State.failFlit
  with_reducible repeat' first | assumption | apply State.putPair_keep | apply State.sendAck_keep | refine Keep.out ?_ | (refine Keep.mk ?_; dsimp only) | split

theorem State.takeContent_keep (s : State) (dev src vc area : Nat) (hK : Keep P s) : Keep P (State.takeContent s dev src vc area) := by
  unfold State.takeContent
  with_reducible repeat' first | assumption | refine Keep.out ?_ | (refine Keep.mk ?_; dsimp only)

theorem State.acceptFlit_keep (s : State) (f : RxFlit) (pre body : Nat) (hK : Keep P s) : Keep P (State.acceptFlit s f pre body) := by
  unfold State.acceptFlit
  with_reducible repeat' first | assumption | apply State.putPair_keep | apply State.sendAck_keep | apply State.takeAck_keep | apply State.takeCastAck_keep | apply State.takeContent_keep | apply State.takeCredit_keep | refine Keep.out ?_ | (refine Keep.mk ?_; dsimp only) | split

theorem State.takeFlit_keep (s : State) (f : RxFlit) (hK : Keep P s) : Keep P (State.takeFlit s f) := by
  unfold State.takeFlit
  with_reducible repeat' first | assumption | apply State.acceptFlit_keep | apply State.failFlit_keep | apply State.judgePlane_keep | refine Keep.foldl (fun _ _ _ => ?_) ?_ | refine Keep.out ?_ | (refine Keep.mk ?_; dsimp only) | split

theorem State.evFlit_keepO (s : State) (hK : Keep P s) : KeepO P (State.evFlit s) := by
  unfold State.evFlit
  with_reducible repeat' first | assumption | exact KeepO.ofNone | apply State.takeBlock_keep | apply State.takeFlit_keep | refine KeepO.ofSome ?_ | refine Keep.out ?_ | (refine Keep.mk ?_; dsimp only) | split

theorem execFlitReceive_good (s : State) (hK : Keep P s) : Good P (execFlitReceive s) := by
  unfold execFlitReceive
  with_reducible repeat' first | assumption | apply State.evFlit_keepO | apply State.event_good

theorem State.ackDue_keepO (s : State) (p : Pair) (hK : Keep P s) : KeepO P (State.ackDue s p) := by
  unfold State.ackDue
  with_reducible repeat' first | assumption | exact KeepO.ofNone | apply State.sendAck_keep | refine KeepO.ofSome ?_ | split

theorem State.evAckTimer_keepO (s : State) (hK : Keep P s) : KeepO P (State.evAckTimer s) := by
  unfold State.evAckTimer
  with_reducible repeat' first | assumption | apply State.ackDue_keepO | apply nth_keepO | intro _

theorem execAckTimer_good (s : State) (hK : Keep P s) : Good P (execAckTimer s) := by
  unfold execAckTimer
  with_reducible repeat' first | assumption | apply State.evAckTimer_keepO | apply State.event_good

theorem State.unreachable_keepO (s : State) (p : Pair) (hK : Keep P s) : KeepO P (State.unreachable s p) := by
  unfold State.unreachable
  with_reducible repeat' first | assumption | exact KeepO.ofNone | apply State.fenceDev_keep | refine KeepO.mapAny (fun _ _ => ?_) | split

theorem State.evReplayLimit_keepO (s : State) (hK : Keep P s) : KeepO P (State.evReplayLimit s) := by
  unfold State.evReplayLimit
  with_reducible repeat' first | assumption | apply State.unreachable_keepO | apply nth_keepO | intro _

theorem execReplayLimit_good (s : State) (hK : Keep P s) : Good P (execReplayLimit s) := by
  unfold execReplayLimit
  with_reducible repeat' first | assumption | apply State.evReplayLimit_keepO | apply State.event_good

theorem State.halve_keepO (s : State) (i : Nat) (hK : Keep P s) : KeepO P (State.halve s i) := by
  unfold State.halve
  with_reducible repeat' first | assumption | exact KeepO.ofNone | apply State.judgePlane_keep | refine KeepO.ofSome ?_ | split

theorem State.evHalving_keepO (s : State) (hK : Keep P s) : KeepO P (State.evHalving s) := by
  unfold State.evHalving
  with_reducible repeat' first | assumption | apply State.halve_keepO | apply nth_keepO | intro _

theorem execScoreHalving_good (s : State) (hK : Keep P s) : Good P (execScoreHalving s) := by
  unfold execScoreHalving
  with_reducible repeat' first | assumption | apply State.evHalving_keepO | apply State.event_good

theorem State.putWatch_keep (s : State) (n : BitVec 3) (x : Watch) (hK : Keep P s) : Keep P (State.putWatch s n x) := by
  unfold State.putWatch
  with_reducible repeat' first | assumption | apply State.modSt_keep

theorem execWset_good (n : BitVec 3) (a : BitVec 5) (s : State) (hK : Keep P s) : Good P (execWset n a s) := by
  unfold execWset
  with_reducible repeat' first | assumption | refine Good.next ?_ | apply State.finish_keep | apply State.given_good | apply State.putWatch_keep

theorem execWclr_good (n : BitVec 3) (s : State) (hK : Keep P s) : Good P (execWclr n s) := by
  unfold execWclr
  with_reducible repeat' first | assumption | refine Good.next ?_ | apply State.finish_keep | apply State.putWatch_keep

theorem execBrk_good (c : BitVec 12) (s : State) (hK : Keep P s) : Good P (execBrk c s) := by
  unfold execBrk
  with_reducible repeat' first | assumption | refine Good.next ?_ | apply State.trap_keep

theorem execCallk_good (n : BitVec 12) (s : State) (hK : Keep P s) : Good P (execCallk n s) := by
  unfold execCallk
  with_reducible repeat' first | assumption | refine Good.next ?_ | apply State.trap_keep

theorem execEret_good (s : State) (hK : Keep P s) : Good P (execEret s) := by
  unfold execEret
  with_reducible repeat' first | assumption | refine Good.next ?_ | apply State.eret_keep | apply State.given_good | apply State.trap_keep | split

theorem execKrd_good (d : BitVec 5) (k : BitVec 12) (s : State) (hK : Keep P s) : Good P (execKrd d k s) := by
  unfold execKrd
  with_reducible repeat' first | assumption | refine Good.next ?_ | apply State.finish_keep | apply State.given_good | apply State.setReg_keep

theorem execKwr_good (a : BitVec 5) (k : BitVec 12) (s : State) (hK : Keep P s) : Good P (execKwr a k s) := by
  unfold execKwr
  with_reducible repeat' first | assumption | refine Good.next ?_ | apply State.finish_keep | apply State.given_good | apply State.modGang_keep | apply State.modSt_keep | apply State.rebind_keep | dsimp only | split

theorem State.invalidateXlats_keep (s : State) (i : Sys2Proof.Machine.Inv) (h : Keep P s) : Keep P (s.invalidateXlats i) := by
  refine fun q => ⟨(h q).mem, (h q).port, (h q).pad, fun k hk => ?_⟩
  obtain ⟨x, hx, rfl⟩ := List.mem_map.1 hk
  exact (h q).pads x hx

theorem State.tlbinv_good (s : State) (i : Sys2Proof.Machine.Inv) (hK : Keep P s) : Good P (State.tlbinv s i) := by
  unfold State.tlbinv
  with_reducible repeat' first | assumption | refine Good.next ?_ | apply State.finish_keep | apply State.invalidateXlats_keep | apply State.modSt_keep | dsimp only | split

theorem State.kOnly_good {s : State} {k : Out} (h : Keep P s) (hk : Good P k) : Good P (s.kOnly k) := by
  unfold State.kOnly
  split
  · exact hk
  · exact Good.next (State.trap_keep _ _ _ _ h)

theorem execTlbinvAll_good (s : State) (hK : Keep P s) : Good P (execTlbinvAll s) := by
  unfold execTlbinvAll
  with_reducible repeat' first | assumption | apply State.kOnly_good | apply State.tlbinv_good

theorem execTlbinvAsid_good (d : BitVec 5) (s : State) (hK : Keep P s) : Good P (execTlbinvAsid d s) := by
  unfold execTlbinvAsid
  with_reducible repeat' first | assumption | apply State.given_good | apply State.kOnly_good | apply State.tlbinv_good

theorem execTlbinvPage_good (d a : BitVec 5) (s : State) (hK : Keep P s) : Good P (execTlbinvPage d a s) := by
  unfold execTlbinvPage
  with_reducible repeat' first | assumption | apply State.given_good | apply State.kOnly_good | apply State.tlbinv_good

theorem State.killRange_keep (s : State) (pa len : Nat) (hK : Keep P s) : Keep P (State.killRange s pa len) := by
  unfold State.killRange
  with_reducible repeat' first | assumption | apply State.invalidate_keep | refine Keep.foldl (fun _ _ _ => ?_) ?_ | refine Keep.out ?_ | refine Keep.memFilter ?_ | (refine Keep.mk ?_; dsimp only)

theorem State.killFar_keep (s : State) (p : Span) (hK : Keep P s) : Keep P (State.killFar s p) := by
  unfold State.killFar
  with_reducible repeat' first | assumption | apply State.modSt_keep | apply State.sendWrite_keep | refine Keep.foldl (fun _ _ _ => ?_) ?_ | refine Keep.out ?_ | (refine Keep.mk ?_; dsimp only) | split

theorem execMdead_good (d a : BitVec 5) (s : State) (hK : Keep P s) : Good P (execMdead d a s) := by
  unfold execMdead
  with_reducible repeat' first | assumption | refine Good.next ?_ | apply State.finish_keep | apply State.given_good | apply State.killFar_keep | apply State.killRange_keep | apply State.trap_keep | apply State.trapAt_keep | apply State.useSpans_keep | apply State.walkFault_keep | refine Keep.foldl (fun _ _ _ => ?_) ?_ | dsimp only | split

theorem execSflush_good (a : BitVec 5) (s : State) (hK : Keep P s) : Good P (execSflush a s) := by
  unfold execSflush
  with_reducible repeat' first | assumption | refine Good.next ?_ | apply State.finish_keep | apply State.given_good | apply State.modCore_keep | apply State.trapAt_keep | apply State.useXlat_keep | apply State.walkFault_keep | refine Keep.out ?_ | refine KeepC.out ?_ | (refine KeepC.mk ?_; dsimp only) | (refine Keep.mk ?_; dsimp only) | dsimp only | split | intro _

theorem State.writeQctl_keep (s : State) (q : Nat) (w : CtlWrite) (hK : Keep P s) : Keep P (State.writeQctl s q w) := by
  unfold State.writeQctl
  with_reducible repeat' first | assumption | apply State.examine_keep | apply State.putQueue_keep | refine Keep.out ?_ | (refine Keep.mk ?_; dsimp only) | split

theorem State.writeContext_keep (s : State) (q off : Nat) (w : CtlWrite) (hK : Keep P s) : Keep P (State.writeContext s q off w) := by
  unfold State.writeContext
  with_reducible repeat' first | assumption | apply State.putQueue_keep | refine Keep.out ?_ | (refine Keep.mk ?_; dsimp only) | split

theorem State.flushKept_keep (s : State) (hK : Keep P s) : Keep P (State.flushKept s) := by
  unfold State.flushKept
  with_reducible repeat' first | assumption | apply State.hostMsg_keep | refine Keep.foldl (fun _ _ _ => ?_) ?_ | refine Keep.out ?_ | (refine Keep.mk ?_; dsimp only) | split

theorem State.writeHmctl_keep (s : State) (w : CtlWrite) (hK : Keep P s) : Keep P (State.writeHmctl s w) := by
  unfold State.writeHmctl
  with_reducible repeat' first | assumption | refine Keep.out ?_ | (refine Keep.mk ?_; dsimp only) | split

theorem State.writeBridge_keep (s : State) (off : Nat) (w : CtlWrite) (hK : Keep P s) : Keep P (State.writeBridge s off w) := by
  unfold State.writeBridge
  with_reducible repeat' first | assumption | refine Keep.out ?_ | (refine Keep.mk ?_; dsimp only) | split

theorem State.writeMectl_keep (s : State) (w : CtlWrite) (hK : Keep P s) : Keep P (State.writeMectl s w) := by
  unfold State.writeMectl
  with_reducible repeat' first | assumption | refine Keep.out ?_ | (refine Keep.mk ?_; dsimp only) | split

theorem State.writeLog_keep (s : State) (off : Nat) (w : CtlWrite) (hK : Keep P s) : Keep P (State.writeLog s off w) := by
  unfold State.writeLog
  with_reducible repeat' first | assumption | refine Keep.out ?_ | (refine Keep.mk ?_; dsimp only) | split

theorem State.startJoins_keep (s : State) (hK : Keep P s) : Keep P (State.startJoins s) := by
  unfold State.startJoins
  with_reducible repeat' first | assumption | refine Keep.out ?_ | (refine Keep.mk ?_; dsimp only)

theorem State.returnToPod_keep (s : State) (hK : Keep P s) : Keep P (State.returnToPod s) := by
  unfold State.returnToPod
  with_reducible repeat' first | assumption | apply State.fenceDev_keep | apply State.startJoins_keep | refine Keep.foldl (fun _ _ _ => ?_) ?_ | refine Keep.out ?_ | (refine Keep.mk ?_; dsimp only)

theorem State.rejoin_keep (s : State) (hK : Keep P s) : Keep P (State.rejoin s) := by
  unfold State.rejoin
  with_reducible repeat' first | assumption | apply State.logFabric_keep | apply State.returnToPod_keep | refine Keep.foldl (fun _ _ _ => ?_) ?_ | refine Keep.out ?_ | (refine Keep.mk ?_; dsimp only) | split

theorem State.unquiesce_keep (s : State) (hK : Keep P s) : Keep P (State.unquiesce s) := by
  unfold State.unquiesce
  with_reducible repeat' first | assumption | apply State.rejoin_keep | apply State.replay_keep | refine Keep.foldl (fun _ _ _ => ?_) ?_ | refine Keep.out ?_ | (refine Keep.mk ?_; dsimp only) | split

theorem State.writeFctl_keep (s : State) (w : CtlWrite) (hK : Keep P s) : Keep P (State.writeFctl s w) := by
  unfold State.writeFctl
  with_reducible repeat' first | assumption | apply State.unquiesce_keep | refine Keep.out ?_ | (refine Keep.mk ?_; dsimp only) | split

theorem State.writeFbridge_keep (s : State) (w : CtlWrite) (hK : Keep P s) : Keep P (State.writeFbridge s w) := by
  unfold State.writeFbridge
  with_reducible repeat' first | assumption | apply State.flushKept_keep | apply State.logFabric_keep | refine Keep.out ?_ | (refine Keep.mk ?_; dsimp only) | split

theorem State.writeFdevid_keep (s : State) (w : CtlWrite) (hK : Keep P s) : Keep P (State.writeFdevid s w) := by
  unfold State.writeFdevid
  with_reducible repeat' first | assumption | apply State.invalidateXlats_keep | apply State.startJoins_keep | refine Keep.out ?_ | (refine Keep.mk ?_; dsimp only) | split

theorem State.writeFfset_keep (s : State) (w : CtlWrite) (hK : Keep P s) : Keep P (State.writeFfset s w) := by
  unfold State.writeFfset
  with_reducible repeat' first | assumption | apply State.fenceDev_keep | split

theorem State.joinBy_keepO (s : State) (src v : Nat) (hK : Keep P s) : KeepO P (State.joinBy s src v) := by
  unfold State.joinBy
  with_reducible repeat' first | assumption | exact KeepO.ofNone | apply State.liftFence_keep | refine KeepO.ofSome ?_ | split

theorem State.writeFabric_keep (s : State) (off : Nat) (w : CtlWrite) (hK : Keep P s) : Keep P (State.writeFabric s off w) := by
  unfold State.writeFabric
  with_reducible repeat' first | assumption | apply State.writeFbridge_keep | apply State.writeFctl_keep | apply State.writeFdevid_keep | apply State.writeFfset_keep | split

theorem State.flushFrames_keep (s : State) (hK : Keep P s) : Keep P (State.flushFrames s) := by
  unfold State.flushFrames
  with_reducible repeat' first | assumption | apply State.frameWriteBack_keep | apply State.putFrame_keep | refine Keep.foldl (fun _ _ _ => ?_) ?_ | refine Keep.out ?_ | (refine Keep.mk ?_; dsimp only) | split

theorem State.writeKeycmd_keep (s : State) (w : CtlWrite) (hK : Keep P s) : Keep P (State.writeKeycmd s w) := by
  unfold State.writeKeycmd
  with_reducible repeat' first | assumption | refine Keep.out ?_ | (refine Keep.mk ?_; dsimp only) | split

theorem State.writeKeydata_keep (s : State) (off : Nat) (w : CtlWrite) (hK : Keep P s) : Keep P (State.writeKeydata s off w) := by
  unfold State.writeKeydata
  with_reducible repeat' first | assumption | refine Keep.out ?_ | (refine Keep.mk ?_; dsimp only)

theorem State.writeBoot_keep (s : State) (off : Nat) (w : CtlWrite) (hK : Keep P s) : Keep P (State.writeBoot s off w) := by
  unfold State.writeBoot
  with_reducible repeat' first | assumption | apply State.flushFrames_keep | apply State.writeKeycmd_keep | apply State.writeKeydata_keep | refine Keep.out ?_ | (refine Keep.mk ?_; dsimp only) | split

theorem State.writeNotify_keep (s : State) (q : Nat) (hK : Keep P s) : Keep P (State.writeNotify s q) := by
  unfold State.writeNotify
  with_reducible repeat' first | assumption | apply State.examine_keep | refine Keep.out ?_ | (refine Keep.mk ?_; dsimp only) | split

theorem State.writeCtl_keep (s : State) (w : CtlWrite) (hK : Keep P s) : Keep P (State.writeCtl s w) := by
  unfold State.writeCtl
  generalize w.off = o
  dsimp only
  refine Keep.ite (Keep.ite (State.writeNotify_keep _ _ hK) hK) ?_
  refine Keep.ite (Keep.ite (State.writeQctl_keep _ _ _ hK) (State.writeContext_keep _ _ _ _ hK)) ?_
  refine Keep.ite (Keep.ite (State.writeHmctl_keep _ _ hK) (State.writeBridge_keep _ _ _ hK)) ?_
  refine Keep.ite (Keep.ite (State.writeMectl_keep _ _ hK) (State.writeLog_keep _ _ _ hK)) ?_
  refine Keep.ite (State.writeFabric_keep _ _ _ hK) ?_
  exact Keep.ite (State.writeBoot_keep _ _ _ hK) hK

theorem State.ackWrite_keep (s : State) (w : CtlWrite) (hK : Keep P s) : Keep P (State.ackWrite s w) := by
  unfold State.ackWrite
  with_reducible repeat' first | assumption | apply State.hostDone_keep | apply State.reply_keep | refine Keep.out ?_ | (refine Keep.mk ?_; dsimp only) | split

theorem State.evWrite_keepO (s : State) (row : CtlRow) (hK : Keep P s) : KeepO P (State.evWrite s row) := by
  unfold State.evWrite
  with_reducible repeat' first | assumption | exact KeepO.ofNone | apply State.ackWrite_keep | apply State.writeCtl_keep | refine KeepO.ofSome ?_ | refine Keep.out ?_ | (refine Keep.mk ?_; dsimp only) | split

theorem execNotify_good (s : State) (hK : Keep P s) : Good P (execNotify s) := by
  unfold execNotify
  with_reducible repeat' first | assumption | apply State.evWrite_keepO | apply State.event_good

theorem execQueueEnable_good (s : State) (hK : Keep P s) : Good P (execQueueEnable s) := by
  unfold execQueueEnable
  with_reducible repeat' first | assumption | apply State.evWrite_keepO | apply State.event_good

theorem execQueueDisable_good (s : State) (hK : Keep P s) : Good P (execQueueDisable s) := by
  unfold execQueueDisable
  with_reducible repeat' first | assumption | apply State.evWrite_keepO | apply State.event_good

theorem execErrClear_good (s : State) (hK : Keep P s) : Good P (execErrClear s) := by
  unfold execErrClear
  with_reducible repeat' first | assumption | apply State.evWrite_keepO | apply State.event_good

theorem execHmctlEnable_good (s : State) (hK : Keep P s) : Good P (execHmctlEnable s) := by
  unfold execHmctlEnable
  with_reducible repeat' first | assumption | apply State.evWrite_keepO | apply State.event_good

theorem execMectlEnable_good (s : State) (hK : Keep P s) : Good P (execMectlEnable s) := by
  unfold execMectlEnable
  with_reducible repeat' first | assumption | apply State.evWrite_keepO | apply State.event_good

theorem execFfset_good (s : State) (hK : Keep P s) : Good P (execFfset s) := by
  unfold execFfset
  with_reducible repeat' first | assumption | apply State.evWrite_keepO | apply State.event_good

theorem execFdevid_good (s : State) (hK : Keep P s) : Good P (execFdevid s) := by
  unfold execFdevid
  with_reducible repeat' first | assumption | apply State.evWrite_keepO | apply State.event_good

theorem execFbridge_good (s : State) (hK : Keep P s) : Good P (execFbridge s) := by
  unfold execFbridge
  with_reducible repeat' first | assumption | apply State.evWrite_keepO | apply State.event_good

theorem execQuiesce_good (s : State) (hK : Keep P s) : Good P (execQuiesce s) := by
  unfold execQuiesce
  with_reducible repeat' first | assumption | apply State.evWrite_keepO | apply State.event_good

theorem execFctlClr_good (s : State) (hK : Keep P s) : Good P (execFctlClr s) := by
  unfold execFctlClr
  with_reducible repeat' first | assumption | apply State.evWrite_keepO | apply State.event_good

theorem execKeyLoad_good (s : State) (hK : Keep P s) : Good P (execKeyLoad s) := by
  unfold execKeyLoad
  with_reducible repeat' first | assumption | apply State.evWrite_keepO | apply State.event_good

theorem execKeyClear_good (s : State) (hK : Keep P s) : Good P (execKeyClear s) := by
  unfold execKeyClear
  with_reducible repeat' first | assumption | apply State.evWrite_keepO | apply State.event_good

theorem execRegisterWrite_good (s : State) (hK : Keep P s) : Good P (execRegisterWrite s) := by
  unfold execRegisterWrite
  with_reducible repeat' first | assumption | apply State.evWrite_keepO | apply State.event_good

theorem State.evHflush_keepO (s : State) (hK : Keep P s) : KeepO P (State.evHflush s) := by
  unfold State.evHflush
  with_reducible repeat' first | assumption | exact KeepO.ofNone | apply State.evWrite_keepO | apply State.flushFrames_keep | refine Keep.ofSome (by assumption) ?_ | refine KeepO.ofSome ?_ | split

theorem execHflush_good (s : State) (hK : Keep P s) : Good P (execHflush s) := by
  unfold execHflush
  with_reducible repeat' first | assumption | apply State.evHflush_keepO | apply State.event_good

end Sys2Proof.Machine
end

