-- ==== Sys2Proof/Laws/KeepDevice.lean ====
section
/-!
SUPPORT. That each function keeps the memories' form, and each meaning goes on and keeps it: packets, the fabric, errors, bring-up, branches, fetching, permutations and scalar floating point.
-/
set_option Elab.async false
namespace Sys2Proof.Machine

variable {P : Prop}

theorem State.scan_keepO (s : State) (x : Queue) (hK : Keep P s) : KeepO P (State.scan s x) := by
  unfold State.scan
  with_reducible repeat' first | assumption | exact KeepO.ofNone | apply State.examine_keep | refine KeepO.ofSome ?_ | refine Keep.out ?_ | (refine Keep.mk ?_; dsimp only) | dsimp only | split

theorem State.evScan_keepO (s : State) (hK : Keep P s) : KeepO P (State.evScan s) := by
  unfold State.evScan
  with_reducible repeat' first | assumption | apply State.scan_keepO | apply nth_keepO | intro _

theorem execQueueScan_good (s : State) (hK : Keep P s) : Good P (execQueueScan s) := by
  unfold execQueueScan
  with_reducible repeat' first | assumption | apply State.evScan_keepO | apply State.event_good

theorem State.spawnReply_keep (s : State) (p : Spawn) (status : Nat) (hK : Keep P s) : Keep P (State.spawnReply s p status) := by
  unfold State.spawnReply
  with_reducible repeat' first | assumption | apply State.answer_keep | apply State.reply_keep | refine Keep.out ?_ | (refine Keep.mk ?_; dsimp only) | split

theorem State.intake_keepO (s : State) (p : Spawn) (hK : Keep P s) : KeepO P (State.intake s p) := by
  unfold State.intake
  with_reducible repeat' first | assumption | exact KeepO.ofNone | apply State.fresh_keepP | apply State.joinList_keep | apply State.noteNamed_keep | apply State.spawnReply_keep | refine KeepO.ofSome ?_ | refine Keep.out ?_ | (refine Keep.mk ?_; dsimp only) | dsimp only | split

theorem State.launch_keepO (s : State) (p : Pkt) (hK : Keep P s) : KeepO P (State.launch s p) := by
  unfold State.launch
  with_reducible repeat' first | assumption | exact KeepO.ofNone | apply State.joinList_keep | apply State.startPkt_keepO | refine KeepO.ofSome ?_ | split | intro _

theorem State.evLaunch_keepO (s : State) (hK : Keep P s) : KeepO P (State.evLaunch s) := by
  unfold State.evLaunch
  with_reducible repeat' first | assumption | apply State.intake_keepO | apply State.launch_keepO | apply nth_keepO | refine Keep.ofSome (by assumption) ?_ | refine KeepO.ofSome ?_ | refine KeepO.bindAny (fun _ _ => ?_) | split | intro _

theorem execLaunch_good (s : State) (hK : Keep P s) : Good P (execLaunch s) := by
  unfold execLaunch
  with_reducible repeat' first | assumption | apply State.evLaunch_keepO | apply State.event_good

theorem State.signalPkt_keepO (s : State) (p : Pkt) (hK : Keep P s) : KeepO P (State.signalPkt s p) := by
  unfold State.signalPkt
  with_reducible repeat' first | assumption | exact KeepO.ofNone | apply State.modPkt_keep | apply State.putSignal_keep | apply State.startPkt_keepO | apply State.testWaits_keep | refine KeepO.ofSome ?_ | dsimp only | split | intro _

theorem State.evSignalPkt_keepO (s : State) (hK : Keep P s) : KeepO P (State.evSignalPkt s) := by
  unfold State.evSignalPkt
  with_reducible repeat' first | assumption | apply State.signalPkt_keepO | apply nth_keepO | intro _

theorem execSignalPacket_good (s : State) (hK : Keep P s) : Good P (execSignalPacket s) := by
  unfold execSignalPacket
  with_reducible repeat' first | assumption | apply State.evSignalPkt_keepO | apply State.event_good

theorem State.waitPkt_keepO (s : State) (p : Pkt) (hK : Keep P s) : KeepO P (State.waitPkt s p) := by
  unfold State.waitPkt
  with_reducible repeat' first | assumption | exact KeepO.ofNone | apply State.startPkt_keepO | apply State.testWait_keepO | refine KeepO.ofSome ?_ | refine KeepO.getD ?_ ?_ | split | intro _

theorem State.evWaitPkt_keepO (s : State) (hK : Keep P s) : KeepO P (State.evWaitPkt s) := by
  unfold State.evWaitPkt
  with_reducible repeat' first | assumption | apply State.waitPkt_keepO | apply nth_keepO | intro _

theorem execWaitPacket_good (s : State) (hK : Keep P s) : Good P (execWaitPacket s) := by
  unfold execWaitPacket
  with_reducible repeat' first | assumption | apply State.evWaitPkt_keepO | apply State.event_good

theorem State.evWaitPoll_keepO (s : State) (hK : Keep P s) : KeepO P (State.evWaitPoll s) := by
  unfold State.evWaitPoll
  with_reducible repeat' first | assumption | apply State.testWait_keepO | apply nth_keepO | intro _

theorem execWaitPacketPoll_good (s : State) (hK : Keep P s) : Good P (execWaitPacketPoll s) := by
  unfold execWaitPacketPoll
  with_reducible repeat' first | assumption | apply State.evWaitPoll_keepO | apply State.event_good

theorem State.copyPkt_keepO (s : State) (p : Pkt) (hK : Keep P s) : KeepO P (State.copyPkt s p) := by
  unfold State.copyPkt
  with_reducible repeat' first | assumption | exact KeepO.ofNone | apply State.addXfer_keep | apply State.finishIfDone_keep | apply State.startPkt_keepO | refine KeepO.ofSome ?_ | dsimp only | split | intro _

theorem State.evCopyPkt_keepO (s : State) (hK : Keep P s) : KeepO P (State.evCopyPkt s) := by
  unfold State.evCopyPkt
  with_reducible repeat' first | assumption | apply State.copyPkt_keepO | apply nth_keepO | intro _

theorem execCopyPacket_good (s : State) (hK : Keep P s) : Good P (execCopyPacket s) := by
  unfold execCopyPacket
  with_reducible repeat' first | assumption | apply State.evCopyPkt_keepO | apply State.event_good

theorem State.readRuns_keepP (s : State) (rs : List Run) (asid : Nat) (hK : Keep P s) : KeepP P (State.readRuns s rs asid) := by
  unfold State.readRuns
  with_reducible repeat' first | assumption | apply State.readLines_keep | refine Keep.foldl (fun _ _ _ => ?_) ?_

theorem State.commitCast_keep (s old : State) (g : Nat) (hK : Keep P s) : Keep P (State.commitCast s old g) := by
  unfold State.commitCast
  with_reducible repeat' first | assumption | apply State.putPair_keep | refine Keep.foldl (fun _ _ _ => ?_) ?_ | refine Keep.out ?_ | (refine Keep.mk ?_; dsimp only)

theorem State.commitCasts_keep (s : State) (hK : Keep P s) : Keep P (State.commitCasts s) := by
  unfold State.commitCasts
  with_reducible repeat' first | assumption | apply State.commitCast_keep | apply State.pruneCasts_keep | refine Keep.foldl (fun _ _ _ => ?_) ?_ | refine Keep.out ?_ | (refine Keep.mk ?_; dsimp only)

theorem State.tablePkt_keepO (s : State) (p : Pkt) (hK : Keep P s) : KeepO P (State.tablePkt s p) := by
  unfold State.tablePkt
  with_reducible repeat' first | assumption | exact KeepO.ofNone | apply State.commitCasts_keep | apply State.modPkt_keep | apply State.readRuns_keepP | apply State.startPkt_keepO | refine KeepO.ofSome ?_ | refine Keep.out ?_ | (refine Keep.mk ?_; dsimp only) | dsimp only | split | intro _

theorem State.evTablePkt_keepO (s : State) (hK : Keep P s) : KeepO P (State.evTablePkt s) := by
  unfold State.evTablePkt
  with_reducible repeat' first | assumption | apply State.tablePkt_keepO | apply nth_keepO | intro _

theorem execTablePacket_good (s : State) (hK : Keep P s) : Good P (execTablePacket s) := by
  unfold execTablePacket
  with_reducible repeat' first | assumption | apply State.evTablePkt_keepO | apply State.event_good

theorem State.completePkt_keepO (s : State) (p : Pkt) (hK : Keep P s) : KeepO P (State.completePkt s p) := by
  unfold State.completePkt
  with_reducible repeat' first | assumption | exact KeepO.ofNone | apply State.examineAll_keep | apply State.hostMsg_keep | apply State.putSignal_keep | apply State.testWaits_keep | refine KeepO.ofSome ?_ | refine Keep.out ?_ | (refine Keep.mk ?_; dsimp only) | dsimp only | split

theorem State.evPktComplete_keepO (s : State) (hK : Keep P s) : KeepO P (State.evPktComplete s) := by
  unfold State.evPktComplete
  with_reducible repeat' first | assumption | apply State.completePkt_keepO | apply nth_keepO | intro _

theorem execPacketComplete_good (s : State) (hK : Keep P s) : Good P (execPacketComplete s) := by
  unfold execPacketComplete
  with_reducible repeat' first | assumption | apply State.evPktComplete_keepO | apply State.event_good

theorem State.respond_keep (s : State) (p : Packet) (typ len status psn data : Nat) (hK : Keep P s) : Keep P (State.respond s p typ len status psn data) := by
  unfold State.respond
  with_reducible repeat' first | assumption | apply State.reply_keep

theorem State.evPacket_keepO {s : State} {types : List Nat} {act : State → Packet → Option State} (h : Keep P s) (ha : ∀ s p, Keep P s → KeepO P (act s p)) : KeepO P (s.evPacket types act) := by
  unfold State.evPacket
  refine nth_keepO fun p _ => ?_
  split
  · exact ha _ _ (Keep.mk (by dsimp only; exact Keep.out h))
  · exact KeepO.ofNone

theorem State.readFor_keep {s : State} {x : Nat × Nat × State} {p : Place} {n : Nat} {alloc : Bool} {asid : Nat} (e : s.readFor p n alloc asid = some x) (h : Keep P s) : Keep P x.2.2 := by
  unfold State.readFor at e
  dsimp only at e
  split at e
  · split at e
    · cases e
    · cases e
      exact State.readLines_keep _ _ _ _ _ _ h
  · cases e
    exact h
  · cases e
    exact h
  · cases e

theorem State.rxRead_keepO (s : State) (p : Packet) (hK : Keep P s) : KeepO P (State.rxRead s p) := by
  unfold State.rxRead
  with_reducible repeat' first | assumption | exact KeepO.ofNone | refine State.readFor_keep (by assumption) ?_ | apply State.respond_keep | refine KeepO.ofSome ?_ | refine KeepO.mapAny (fun _ _ => ?_) | split

theorem State.evRead_keepO (s : State) (hK : Keep P s) : KeepO P (State.evRead s) := by
  unfold State.evRead
  with_reducible repeat' first | assumption | apply State.evPacket_keepO | apply State.rxRead_keepO

theorem execRead_good (s : State) (hK : Keep P s) : Good P (execRead s) := by
  unfold execRead
  with_reducible repeat' first | assumption | apply State.evRead_keepO | apply State.event_good

theorem State.rxJoin_keep (s : State) (p : Packet) (hK : Keep P s) : Keep P (State.rxJoin s p) := by
  unfold State.rxJoin
  with_reducible repeat' first | assumption | apply State.joinBy_keepO | apply State.putPair_keep | apply State.respond_keep | refine Keep.ofSome (by assumption) ?_ | refine Keep.out ?_ | (refine Keep.mk ?_; dsimp only) | split

theorem State.rxWrite_keepO (s : State) (p : Packet) (hK : Keep P s) : KeepO P (State.rxWrite s p) := by
  unfold State.rxWrite
  with_reducible repeat' first | assumption | exact KeepO.ofNone | apply Core.padPut_keepC | apply State.ctlValue_keepP | apply State.modCoreAt_keep | apply State.respond_keep | apply State.writePa_keep | refine KeepO.ofSome ?_ | refine Keep.out ?_ | (refine Keep.mk ?_; dsimp only) | dsimp only | split | intro _

theorem State.evWriteReq_keepO (s : State) (hK : Keep P s) : KeepO P (State.evWriteReq s) := by
  unfold State.evWriteReq
  with_reducible repeat' first | assumption | exact KeepO.ofNone | apply State.evPacket_keepO | apply State.rxWrite_keepO | split | intro _

theorem execWrite_good (s : State) (hK : Keep P s) : Good P (execWrite s) := by
  unfold execWrite
  with_reducible repeat' first | assumption | apply State.evWriteReq_keepO | apply State.event_good

theorem State.evFjoin_keepO (s : State) (hK : Keep P s) : KeepO P (State.evFjoin s) := by
  unfold State.evFjoin
  with_reducible repeat' first | assumption | exact KeepO.ofNone | apply State.evPacket_keepO | apply State.rxJoin_keep | refine KeepO.ofSome ?_ | split | intro _

theorem execFjoin_good (s : State) (hK : Keep P s) : Good P (execFjoin s) := by
  unfold execFjoin
  with_reducible repeat' first | assumption | apply State.evFjoin_keepO | apply State.event_good

theorem State.rxAtomic_keepO (s : State) (p : Packet) (hK : Keep P s) : KeepO P (State.rxAtomic s p) := by
  unfold State.rxAtomic
  with_reducible repeat' first | assumption | exact KeepO.ofNone | apply State.amoApply_keepP | apply State.respond_keep | refine KeepO.ofSome ?_ | refine Keep.out ?_ | (refine Keep.mk ?_; dsimp only) | dsimp only | split

theorem State.evAtomic_keepO (s : State) (hK : Keep P s) : KeepO P (State.evAtomic s) := by
  unfold State.evAtomic
  with_reducible repeat' first | assumption | apply State.evPacket_keepO | apply State.rxAtomic_keepO

theorem execAtomic_good (s : State) (hK : Keep P s) : Good P (execAtomic s) := by
  unfold execAtomic
  with_reducible repeat' first | assumption | apply State.evAtomic_keepO | apply State.event_good

theorem State.rxResponse_keepO (s : State) (p : Packet) (hK : Keep P s) : KeepO P (State.rxResponse s p) := by
  unfold State.rxResponse
  with_reducible repeat' first | assumption | apply State.answerReq_keepO | refine KeepO.ofSome ?_ | dsimp only | split

theorem State.evReadData_keepO (s : State) (hK : Keep P s) : KeepO P (State.evReadData s) := by
  unfold State.evReadData
  with_reducible repeat' first | assumption | apply State.evPacket_keepO | apply State.rxResponse_keepO

theorem execReadData_good (s : State) (hK : Keep P s) : Good P (execReadData s) := by
  unfold execReadData
  with_reducible repeat' first | assumption | apply State.evReadData_keepO | apply State.event_good

theorem State.evDone_keepO (s : State) (hK : Keep P s) : KeepO P (State.evDone s) := by
  unfold State.evDone
  with_reducible repeat' first | assumption | apply State.evPacket_keepO | apply State.rxResponse_keepO

theorem execDone_good (s : State) (hK : Keep P s) : Good P (execDone s) := by
  unfold execDone
  with_reducible repeat' first | assumption | apply State.evDone_keepO | apply State.event_good

theorem State.evAtomicData_keepO (s : State) (hK : Keep P s) : KeepO P (State.evAtomicData s) := by
  unfold State.evAtomicData
  with_reducible repeat' first | assumption | apply State.evPacket_keepO | apply State.rxResponse_keepO

theorem execAtomicData_good (s : State) (hK : Keep P s) : Good P (execAtomicData s) := by
  unfold execAtomicData
  with_reducible repeat' first | assumption | apply State.evAtomicData_keepO | apply State.event_good

theorem State.rxSignal_keepO (s : State) (p : Packet) (hK : Keep P s) : KeepO P (State.rxSignal s p) := by
  unfold State.rxSignal
  with_reducible repeat' first | assumption | apply State.applyToken_keep | refine KeepO.ofSome ?_ | split

theorem State.evSignal_keepO (s : State) (hK : Keep P s) : KeepO P (State.evSignal s) := by
  unfold State.evSignal
  with_reducible repeat' first | assumption | apply State.evPacket_keepO | apply State.rxSignal_keepO

theorem execSignal_good (s : State) (hK : Keep P s) : Good P (execSignal s) := by
  unfold execSignal
  with_reducible repeat' first | assumption | apply State.evSignal_keepO | apply State.event_good

theorem State.rxIncrement_keepO (s : State) (p : Packet) (hK : Keep P s) : KeepO P (State.rxIncrement s p) := by
  unfold State.rxIncrement
  with_reducible repeat' first | assumption | exact KeepO.ofNone | apply Core.modToken_keepC | apply State.modCoreAt_keep | refine KeepO.ofSome ?_ | dsimp only | split | intro _

theorem State.evIncrement_keepO (s : State) (hK : Keep P s) : KeepO P (State.evIncrement s) := by
  unfold State.evIncrement
  with_reducible repeat' first | assumption | apply State.evPacket_keepO | apply State.rxIncrement_keepO

theorem execIncrement_good (s : State) (hK : Keep P s) : Good P (execIncrement s) := by
  unfold execIncrement
  with_reducible repeat' first | assumption | apply State.evIncrement_keepO | apply State.event_good

theorem State.rxGforward_keepO (s : State) (p : Packet) (hK : Keep P s) : KeepO P (State.rxGforward s p) := by
  unfold State.rxGforward
  with_reducible repeat' first | assumption | exact KeepO.ofNone | refine State.readFor_keep (by assumption) ?_ | apply State.respond_keep | refine KeepO.ofSome ?_ | refine KeepO.mapAny (fun _ _ => ?_) | split

theorem State.evGforward_keepO (s : State) (hK : Keep P s) : KeepO P (State.evGforward s) := by
  unfold State.evGforward
  with_reducible repeat' first | assumption | apply State.evPacket_keepO | apply State.rxGforward_keepO

theorem execGforward_good (s : State) (hK : Keep P s) : Good P (execGforward s) := by
  unfold execGforward
  with_reducible repeat' first | assumption | apply State.evGforward_keepO | apply State.event_good

theorem State.rxSpawn_keepO (s : State) (p : Packet) (hK : Keep P s) : KeepO P (State.rxSpawn s p) := by
  unfold State.rxSpawn
  with_reducible repeat' first | assumption | apply State.reply_keep | refine KeepO.ofSome ?_ | refine Keep.out ?_ | (refine Keep.mk ?_; dsimp only) | split

theorem State.evSpawnReq_keepO (s : State) (hK : Keep P s) : KeepO P (State.evSpawnReq s) := by
  unfold State.evSpawnReq
  with_reducible repeat' first | assumption | apply State.evPacket_keepO | apply State.rxSpawn_keepO

theorem execSpawnRequest_good (s : State) (hK : Keep P s) : Good P (execSpawnRequest s) := by
  unfold execSpawnRequest
  with_reducible repeat' first | assumption | apply State.evSpawnReq_keepO | apply State.event_good

theorem State.rxHostmsg_keepO (s : State) (p : Packet) (hK : Keep P s) : KeepO P (State.rxHostmsg s p) := by
  unfold State.rxHostmsg
  with_reducible repeat' first | assumption | apply State.bridgeTake_keep | refine KeepO.ofSome ?_ | refine Keep.out ?_ | (refine Keep.mk ?_; dsimp only) | split

theorem State.evHostmsg_keepO (s : State) (hK : Keep P s) : KeepO P (State.evHostmsg s) := by
  unfold State.evHostmsg
  with_reducible repeat' first | assumption | apply State.evPacket_keepO | apply State.ringPut_keep | apply State.rxHostmsg_keepO | refine KeepO.ofSome ?_ | refine Keep.out ?_ | (refine Keep.mk ?_; dsimp only) | split

theorem execHostmsg_good (s : State) (hK : Keep P s) : Good P (execHostmsg s) := by
  unfold execHostmsg
  with_reducible repeat' first | assumption | apply State.evHostmsg_keepO | apply State.event_good

theorem State.takeBack_keep (s : State) (c : Nat) (a : Arrival) (status : Nat) (hK : Keep P s) : Keep P (State.takeBack s c a status) := by
  unfold State.takeBack
  with_reducible repeat' first | assumption | apply State.arrivalDone_keep | apply State.modCoreAt_keep | refine Keep.foldl (fun _ _ _ => ?_) ?_ | refine KeepC.out ?_ | (refine KeepC.mk ?_; dsimp only) | intro _

theorem State.rxArrival_keepO (s : State) (p : Packet) (hK : Keep P s) : KeepO P (State.rxArrival s p) := by
  unfold State.rxArrival
  with_reducible repeat' first | assumption | exact KeepO.ofNone | apply Core.modTile_keepC | apply State.arriveAt_keepO | apply State.letIn_keep | apply State.modCoreAt_keep | apply State.respond_keep | apply State.takeBack_keep | refine KeepO.ofSome ?_ | dsimp only | split | intro _

theorem State.evFill_keepO (s : State) (hK : Keep P s) : KeepO P (State.evFill s) := by
  unfold State.evFill
  with_reducible repeat' first | assumption | apply State.arriveAt_keepO | apply State.evPacket_keepO | apply State.rxArrival_keepO | apply nth_keepO | refine Keep.ofSome (by assumption) ?_ | refine KeepO.ofSome ?_ | refine Keep.out ?_ | (refine Keep.mk ?_; dsimp only) | split | intro _

theorem execFill_good (s : State) (hK : Keep P s) : Good P (execFill s) := by
  unfold execFill
  with_reducible repeat' first | assumption | apply State.evFill_keepO | apply State.event_good

theorem State.evCombine_keepO (s : State) (hK : Keep P s) : KeepO P (State.evCombine s) := by
  unfold State.evCombine
  with_reducible repeat' first | assumption | apply State.arriveAt_keepO | apply State.evPacket_keepO | apply State.rxArrival_keepO | apply nth_keepO | refine Keep.ofSome (by assumption) ?_ | refine KeepO.ofSome ?_ | refine Keep.out ?_ | (refine Keep.mk ?_; dsimp only) | split | intro _

theorem execCombine_good (s : State) (hK : Keep P s) : Good P (execCombine s) := by
  unfold execCombine
  with_reducible repeat' first | assumption | apply State.evCombine_keepO | apply State.event_good

theorem State.sendJoin_keepO (s : State) (j : Nat × Nat) (hK : Keep P s) : KeepO P (State.sendJoin s j) := by
  unfold State.sendJoin
  with_reducible repeat' first | assumption | exact KeepO.ofNone | apply State.replay_keep | apply State.sendReq_keep | refine KeepO.ofSome ?_ | refine Keep.out ?_ | (refine Keep.mk ?_; dsimp only) | dsimp only | split

theorem State.evJoin_keepO (s : State) (hK : Keep P s) : KeepO P (State.evJoin s) := by
  unfold State.evJoin
  with_reducible repeat' first | assumption | apply State.sendJoin_keepO | apply nth_keepO | intro _

theorem execJoinResend_good (s : State) (hK : Keep P s) : Good P (execJoinResend s) := by
  unfold execJoinResend
  with_reducible repeat' first | assumption | apply State.evJoin_keepO | apply State.event_good

theorem State.hostStarted_keep (s : State) (r : HostReq) (hK : Keep P s) : Keep P (State.hostStarted s r) := by
  unfold State.hostStarted
  with_reducible repeat' first | assumption | refine Keep.out ?_ | (refine Keep.mk ?_; dsimp only)

theorem State.hostAtomic_keepO (s : State) (r : HostReq) (fn pa : Nat) (hK : Keep P s) : KeepO P (State.hostAtomic s r fn pa) := by
  unfold State.hostAtomic
  with_reducible repeat' first | assumption | exact KeepO.ofNone | apply State.amoApply_keepP | apply State.hostDone_keep | refine KeepO.ofSome ?_ | refine Keep.out ?_ | (refine Keep.mk ?_; dsimp only) | dsimp only | split

theorem State.hostHere_keepO (s : State) (r : HostReq) (pa : Nat) (mgmt : Bool) (hK : Keep P s) : KeepO P (State.hostHere s r pa mgmt) := by
  unfold State.hostHere
  with_reducible repeat' first | assumption | refine State.readFor_keep (by assumption) ?_ | apply State.hostAtomic_keepO | apply State.hostDone_keep | apply State.hostStarted_keep | apply State.writePa_keep | refine KeepO.ofSome ?_ | refine KeepO.mapAny (fun _ _ => ?_) | refine Keep.out ?_ | (refine Keep.mk ?_; dsimp only) | dsimp only | split

theorem State.hostStep_keepO (s : State) (r : HostReq) (hK : Keep P s) : KeepO P (State.hostStep s r) := by
  unfold State.hostStep
  with_reducible repeat' first | assumption | exact KeepO.ofNone | apply State.hostDone_keep | apply State.hostHere_keepO | apply State.hostStarted_keep | apply State.sendReq_keep | refine KeepO.ofSome ?_ | dsimp only | split

theorem State.evHostReq_keepO (s : State) (hK : Keep P s) : KeepO P (State.evHostReq s) := by
  unfold State.evHostReq
  with_reducible repeat' first | assumption | apply State.hostStep_keepO | apply nth_keepO | intro _

theorem execHostRequest_good (s : State) (hK : Keep P s) : Good P (execHostRequest s) := by
  unfold execHostRequest
  with_reducible repeat' first | assumption | apply State.evHostReq_keepO | apply State.event_good

theorem State.mgmtStep_keepO (s : State) (r : HostReq) (hK : Keep P s) : KeepO P (State.mgmtStep s r) := by
  unfold State.mgmtStep
  with_reducible repeat' first | assumption | exact KeepO.ofNone | apply State.hostDone_keep | apply State.hostHere_keepO | refine KeepO.ofSome ?_ | dsimp only | split

theorem State.evMgmt_keepO (s : State) (hK : Keep P s) : KeepO P (State.evMgmt s) := by
  unfold State.evMgmt
  with_reducible repeat' first | assumption | apply State.mgmtStep_keepO | apply nth_keepO | intro _

theorem execManagementRequest_good (s : State) (hK : Keep P s) : Good P (execManagementRequest s) := by
  unfold execManagementRequest
  with_reducible repeat' first | assumption | apply State.evMgmt_keepO | apply State.event_good

theorem State.logFound_keep (s : State) (asid key holder d1 : Nat) (hK : Keep P s) : Keep P (State.logFound s asid key holder d1) := by
  unfold State.logFound
  with_reducible repeat' first | assumption | apply State.logErr_keep

theorem State.hit_keep (s : State) (gang rank : Nat) (f : Strand → Strand) (hK : Keep P s) : Keep P (State.hit s gang rank f) := by
  unfold State.hit
  with_reducible repeat' first | assumption | apply State.modStrand_keep

theorem State.hitImage_keep (s : State) (gang rank : Nat) (off : Strand → Nat) (f : Strand → Strand) (hK : Keep P s) : Keep P (State.hitImage s gang rank off f) := by
  unfold State.hitImage
  with_reducible repeat' first | assumption | apply State.logFound_keep | apply State.modStrand_keep | split

theorem State.hitPart_keep (s : State) (gang rank part k : Nat) (f : Strand → Strand) (hK : Keep P s) : Keep P (State.hitPart s gang rank part k f) := by
  unfold State.hitPart
  with_reducible repeat' first | assumption | apply State.hitImage_keep | split

theorem State.hitL2_keep (s : State) (line asid : Nat) (hK : Keep P s) : Keep P (State.hitL2 s line asid) := by
  unfold State.hitL2
  with_reducible repeat' first | assumption | apply State.countErr_keep | apply State.dropL2_keep | apply State.logFound_keep | refine Keep.out ?_ | (refine Keep.mk ?_; dsimp only) | split

theorem State.hitEvict_keep (s : State) (line : Nat) (hK : Keep P s) : Keep P (State.hitEvict s line) := by
  unfold State.hitEvict
  with_reducible repeat' first | assumption | apply State.dropL2_keep | apply State.logErr_keep | apply State.lostLine_keep | split

theorem State.hitFrameTag_keep (s : State) (slice idx : Nat) (hK : Keep P s) : Keep P (State.hitFrameTag s slice idx) := by
  unfold State.hitFrameTag
  with_reducible repeat' first | assumption | apply State.logErr_keep | apply State.putFrame_keep | refine Keep.out ?_ | refine Keep.memWrite ?_ | (refine Keep.mk ?_; dsimp only) | split

theorem State.hitFrameData_keep (s : State) (slice idx asid : Nat) (hK : Keep P s) : Keep P (State.hitFrameData s slice idx asid) := by
  unfold State.hitFrameData
  with_reducible repeat' first | assumption | apply State.countErr_keep | apply State.frameDrop_keep | apply State.logFound_keep | apply State.portReadNote_keep | apply State.readLine_keep | refine Keep.out ?_ | (refine Keep.mk ?_; dsimp only) | split

theorem State.hitToken_keep (s : State) (c slot : Nat) (hK : Keep P s) : Keep P (State.hitToken s c slot) := by
  unfold State.hitToken
  with_reducible repeat' first | assumption | apply Core.modToken_keepC | apply State.modCoreAt_keep | refine Keep.out ?_ | refine KeepC.out ?_ | (refine KeepC.mk ?_; dsimp only) | (refine Keep.mk ?_; dsimp only) | split | intro _

theorem State.hitTag_keep (s : State) (c tile : Nat) (hK : Keep P s) : Keep P (State.hitTag s c tile) := by
  unfold State.hitTag
  with_reducible repeat' first | assumption | apply Core.modTile_keepC | apply State.modCoreAt_keep | apply State.wakeTile_keep | refine KeepC.out ?_ | (refine KeepC.mk ?_; dsimp only) | dsimp only | intro _

theorem State.hitPorch_keep (s : State) (i : Nat) (hK : Keep P s) : Keep P (State.hitPorch s i) := by
  unfold State.hitPorch
  with_reducible repeat' first | assumption | apply State.choose_keepP | apply State.fillMembers_keep | refine Keep.foldl (fun _ _ _ => ?_) ?_ | refine Keep.out ?_ | (refine Keep.mk ?_; dsimp only) | split

theorem State.lose_keep (s : State) (hK : Keep P s) : Keep P (State.lose s) := by
  unfold State.lose
  with_reducible repeat' first | assumption | refine Keep.out ?_ | (refine Keep.mk ?_; dsimp only)

theorem State.strike_keep (s : State) (e : ErrorAt) (hK : Keep P s) : Keep P (State.strike s e) := by
  unfold State.strike
  with_reducible repeat' first | assumption | apply State.countErr_keep | apply State.hit_keep | apply State.hitEvict_keep | apply State.hitFrameData_keep | apply State.hitFrameTag_keep | apply State.hitImage_keep | apply State.hitL2_keep | apply State.hitPart_keep | apply State.hitPorch_keep | apply State.hitTag_keep | apply State.hitToken_keep | apply State.logFound_keep | apply State.logPad_keep | apply State.lose_keep | apply State.modCoreAt_keep | apply State.modGang_keep | refine Keep.out ?_ | refine KeepC.out ?_ | (refine KeepC.mk ?_; dsimp only) | (refine Keep.mk ?_; dsimp only) | split | intro _

theorem State.evError_keepO (s : State) (hK : Keep P s) : KeepO P (State.evError s) := by
  unfold State.evError
  with_reducible repeat' first | assumption | exact KeepO.ofNone | apply State.strike_keep | refine KeepO.ofSome ?_ | refine Keep.out ?_ | (refine Keep.mk ?_; dsimp only) | split

theorem execUncorrectableError_good (s : State) (hK : Keep P s) : Good P (execUncorrectableError s) := by
  unfold execUncorrectableError
  with_reducible repeat' first | assumption | apply State.evError_keepO | apply State.event_good

theorem State.evPatrol_keepO (s : State) (hK : Keep P s) : KeepO P (State.evPatrol s) := by
  unfold State.evPatrol
  with_reducible repeat' first | assumption | exact KeepO.ofNone | apply State.strike_keep | refine KeepO.ofSome ?_ | refine Keep.out ?_ | (refine Keep.mk ?_; dsimp only) | split

theorem execPatrolRead_good (s : State) (hK : Keep P s) : Good P (execPatrolRead s) := by
  unfold execPatrolRead
  with_reducible repeat' first | assumption | apply State.evPatrol_keepO | apply State.event_good

theorem execCorrectableError_good (s : State) (hK : Keep P s) : Good P (execCorrectableError s) := by
  unfold execCorrectableError
  with_reducible repeat' first | assumption | refine Good.next ?_ | apply State.countErr_keep

theorem State.modPort_keep (s : State) (i : Nat) (p : Port) (hK : Keep P s) : Keep P (State.modPort s i p) := by
  unfold State.modPort
  with_reducible repeat' first | assumption | refine Keep.out ?_ | (refine Keep.mk ?_; dsimp only)

theorem State.portEvent_keepO {s : State} {f : Nat → Port → Option State} (hf : ∀ i p, KeepO P (f i p)) : KeepO P (s.portEvent f) := by
  unfold State.portEvent
  exact nth_keepO fun i _ => KeepO.bindAny fun p _ => hf i p

theorem State.evLinkLoss_keepO (s : State) (hK : Keep P s) : KeepO P (State.evLinkLoss s) := by
  unfold State.evLinkLoss
  with_reducible repeat' first | assumption | exact KeepO.ofNone | apply State.modPort_keep | apply State.portEvent_keepO | refine KeepO.ofSome ?_ | split | intro _

theorem execCapacityLinkLoss_good (s : State) (hK : Keep P s) : Good P (execCapacityLinkLoss s) := by
  unfold execCapacityLinkLoss
  with_reducible repeat' first | assumption | apply State.evLinkLoss_keepO | apply State.event_good

theorem State.evRetrained_keepO (s : State) (hK : Keep P s) : KeepO P (State.evRetrained s) := by
  unfold State.evRetrained
  with_reducible repeat' first | assumption | exact KeepO.ofNone | apply State.countErr_keep | apply State.modPort_keep | apply State.portEvent_keepO | refine KeepO.ofSome ?_ | split | intro _

theorem execCapacityLinkRetrained_good (s : State) (hK : Keep P s) : Good P (execCapacityLinkRetrained s) := by
  unfold execCapacityLinkRetrained
  with_reducible repeat' first | assumption | apply State.evRetrained_keepO | apply State.event_good

theorem State.evPortDown_keepO (s : State) (hK : Keep P s) : KeepO P (State.evPortDown s) := by
  unfold State.evPortDown
  with_reducible repeat' first | assumption | exact KeepO.ofNone | apply State.logErr_keep | apply State.modPort_keep | apply State.portEvent_keepO | refine KeepO.ofSome ?_ | split | intro _

theorem execCapacityPortDown_good (s : State) (hK : Keep P s) : Good P (execCapacityPortDown s) := by
  unfold execCapacityPortDown
  with_reducible repeat' first | assumption | apply State.evPortDown_keepO | apply State.event_good

theorem State.evPortBack_keepO (s : State) (hK : Keep P s) : KeepO P (State.evPortBack s) := by
  unfold State.evPortBack
  with_reducible repeat' first | assumption | exact KeepO.ofNone | apply State.logErr_keep | apply State.modPort_keep | apply State.portEvent_keepO | refine KeepO.ofSome ?_ | split | intro _

theorem execCapacityPortRestored_good (s : State) (hK : Keep P s) : Good P (execCapacityPortRestored s) := by
  unfold execCapacityPortRestored
  with_reducible repeat' first | assumption | apply State.evPortBack_keepO | apply State.event_good

theorem State.extend_keep (s : State) (digest : BitVec 256) (hK : Keep P s) : Keep P (State.extend s digest) := by
  unfold State.extend
  with_reducible repeat' first | assumption | refine Keep.out ?_ | (refine Keep.mk ?_; dsimp only)

theorem State.failBoot_keep (s : State) (why : Nat) (hK : Keep P s) : Keep P (State.failBoot s why) := by
  unfold State.failBoot
  with_reducible repeat' first | assumption | refine Keep.out ?_ | (refine Keep.mk ?_; dsimp only)

theorem State.evPowerGood_keepO (s : State) (hK : Keep P s) : KeepO P (State.evPowerGood s) := by
  unfold State.evPowerGood
  with_reducible repeat' first | assumption | exact KeepO.ofNone | apply State.extend_keep | apply State.failBoot_keep | refine KeepO.ofSome ?_ | refine Keep.out ?_ | (refine Keep.mk ?_; dsimp only) | dsimp only | split

theorem execPowerGood_good (s : State) (hK : Keep P s) : Good P (execPowerGood s) := by
  unfold execPowerGood
  with_reducible repeat' first | assumption | apply State.evPowerGood_keepO | apply State.event_good

theorem State.evConfigure_keepO (s : State) (hK : Keep P s) : KeepO P (State.evConfigure s) := by
  unfold State.evConfigure
  with_reducible repeat' first | assumption | exact KeepO.ofNone | apply State.extend_keep | refine KeepO.ofSome ?_ | refine Keep.out ?_ | (refine Keep.mk ?_; dsimp only) | split

theorem execConfiguration_good (s : State) (hK : Keep P s) : Good P (execConfiguration s) := by
  unfold execConfiguration
  with_reducible repeat' first | assumption | apply State.evConfigure_keepO | apply State.event_good

theorem State.evTrain_keepO (s : State) (hK : Keep P s) : KeepO P (State.evTrain s) := by
  unfold State.evTrain
  with_reducible repeat' first | assumption | exact KeepO.ofNone | apply State.extend_keep | apply State.failBoot_keep | refine KeepO.ofSome ?_ | refine Keep.out ?_ | (refine Keep.mk ?_; dsimp only) | split

theorem execMemoryTraining_good (s : State) (hK : Keep P s) : Good P (execMemoryTraining s) := by
  unfold execMemoryTraining
  with_reducible repeat' first | assumption | apply State.evTrain_keepO | apply State.event_good

theorem State.evFull_keepO (s : State) (hK : Keep P s) : KeepO P (State.evFull s) := by
  unfold State.evFull
  with_reducible repeat' first | assumption | exact KeepO.ofNone | apply State.extend_keep | refine KeepO.ofSome ?_ | refine Keep.out ?_ | (refine Keep.mk ?_; dsimp only) | split

theorem execFullMode_good (s : State) (hK : Keep P s) : Good P (execFullMode s) := by
  unfold execFullMode
  with_reducible repeat' first | assumption | apply State.evFull_keepO | apply State.event_good

theorem State.evQuote_keepO (s : State) (hK : Keep P s) : KeepO P (State.evQuote s) := by
  unfold State.evQuote
  with_reducible repeat' first | assumption | exact KeepO.ofNone | refine KeepO.ofSome ?_ | refine Keep.out ?_ | (refine Keep.mk ?_; dsimp only) | split

theorem execQuote_good (s : State) (hK : Keep P s) : Good P (execQuote s) := by
  unfold execQuote
  with_reducible repeat' first | assumption | apply State.evQuote_keepO | apply State.event_good

theorem Core.move_keepC (k : Core) (up : Bool) (hC : KeepC P k) : KeepC P (Core.move k up) := by
  unfold Core.move
  with_reducible repeat' first | assumption | refine KeepC.out ?_ | (refine KeepC.mk ?_; dsimp only)

theorem State.evMove_keepO (s : State) (hK : Keep P s) : KeepO P (State.evMove s) := by
  unfold State.evMove
  with_reducible repeat' first | assumption | exact KeepO.ofNone | apply Core.move_keepC | apply State.modCoreAt_keep | refine KeepO.ofSome ?_ | refine Keep.out ?_ | (refine Keep.mk ?_; dsimp only) | dsimp only | split | intro _

theorem execOperatingPointMove_good (s : State) (hK : Keep P s) : Good P (execOperatingPointMove s) := by
  unfold execOperatingPointMove
  with_reducible repeat' first | assumption | apply State.evMove_keepO | apply State.event_good

theorem State.returnHome_keep (s : State) (hK : Keep P s) : Keep P (State.returnHome s) := by
  unfold State.returnHome
  with_reducible repeat' first | assumption | apply State.goHome_keepC | apply State.modCoreAt_keep | refine Keep.foldl (fun _ _ _ => ?_) ?_ | split

theorem State.evPower_keepO (s : State) (hK : Keep P s) : KeepO P (State.evPower s) := by
  unfold State.evPower
  with_reducible repeat' first | assumption | exact KeepO.ofNone | apply Core.move_keepC | apply State.choose_keepP | apply State.modCoreAt_keep | apply State.returnHome_keep | refine KeepO.ofSome ?_ | refine Keep.foldl (fun _ _ _ => ?_) ?_ | refine Keep.out ?_ | (refine Keep.mk ?_; dsimp only) | dsimp only | split | intro _

theorem execPowerWindow_good (s : State) (hK : Keep P s) : Good P (execPowerWindow s) := by
  unfold execPowerWindow
  with_reducible repeat' first | assumption | apply State.evPower_keepO | apply State.event_good

theorem State.evThrottle_keepO (s : State) (hK : Keep P s) : KeepO P (State.evThrottle s) := by
  unfold State.evThrottle
  with_reducible repeat' first | assumption | exact KeepO.ofNone | apply Core.move_keepC | apply State.choose_keepP | apply State.modCoreAt_keep | apply State.returnHome_keep | refine KeepO.ofSome ?_ | refine Keep.foldl (fun _ _ _ => ?_) ?_ | refine Keep.out ?_ | (refine Keep.mk ?_; dsimp only) | dsimp only | split | intro _

theorem execThermalThrottle_good (s : State) (hK : Keep P s) : Good P (execThermalThrottle s) := by
  unfold execThermalThrottle
  with_reducible repeat' first | assumption | apply State.evThrottle_keepO | apply State.event_good

theorem State.unpowered_keep (s : State) (h : Keep P s) : Keep P s.unpowered := fun p => ⟨rfl, (h p).port, rfl, fun _ h => by cases h⟩

theorem State.evTrip_keepO (s : State) (hK : Keep P s) : KeepO P (State.evTrip s) := by
  unfold State.evTrip
  with_reducible repeat' first | assumption | exact KeepO.ofNone | apply State.failBoot_keep | apply State.unpowered_keep | refine KeepO.ofSome ?_ | refine Keep.out ?_ | (refine Keep.mk ?_; dsimp only) | dsimp only | split

theorem execThermalTrip_good (s : State) (hK : Keep P s) : Good P (execThermalTrip s) := by
  unfold execThermalTrip
  with_reducible repeat' first | assumption | apply State.evTrip_keepO | apply State.event_good

theorem execPowerLoss_good (s : State) (hK : Keep P s) : Good P (execPowerLoss s) := by
  unfold execPowerLoss
  with_reducible repeat' first | assumption | refine Good.next ?_ | apply State.unpowered_keep | refine Keep.out ?_ | (refine Keep.mk ?_; dsimp only)

theorem State.missCode_keep (s : State) (pa key : Nat) (hK : Keep P s) : Keep P (State.missCode s pa key) := by
  unfold State.missCode
  with_reducible repeat' first | assumption | apply State.readLine_keep | refine Keep.out ?_ | (refine Keep.mk ?_; dsimp only) | split

theorem State.useCode_keep (s : State) (x : Xlat) (pa key : Nat) (miss : Bool) (hK : Keep P s) : Keep P (State.useCode s x pa key miss) := by
  unfold State.useCode
  with_reducible repeat' first | assumption | apply State.missCode_keep | apply State.useXlat_keep | refine Keep.out ?_ | (refine Keep.mk ?_; dsimp only) | split

theorem State.askCode_keep (s : State) (dev pa key : Nat) (hK : Keep P s) : Keep P (State.askCode s dev pa key) := by
  unfold State.askCode
  with_reducible repeat' first | assumption | apply State.modSt_keep | apply State.sendRead_keep | refine Keep.out ?_ | (refine Keep.mk ?_; dsimp only) | split

theorem State.faultCode_keep (s : State) (cause : BitVec 8) (hK : Keep P s) : Keep P (State.faultCode s cause) := by
  unfold State.faultCode
  with_reducible repeat' first | assumption | apply State.readLine_keep | apply State.walkFault_keep | refine Keep.out ?_ | (refine Keep.mk ?_; dsimp only) | split

theorem execFetchFault_good (s : State) (hK : Keep P s) : Good P (execFetchFault s) := by
  unfold execFetchFault
  with_reducible repeat' first | assumption | refine Good.next ?_ | apply State.faultCode_keep | apply State.trapAt_keep | split

theorem execIllegalEncoding_good (s : State) (hK : Keep P s) : Good P (execIllegalEncoding s) := by
  unfold execIllegalEncoding
  with_reducible repeat' first | assumption | refine Good.next ?_ | apply State.trap_keep | split

theorem State.branch_good (s : State) (a b : BitVec 5) (o : BitVec 12) (c : Word → Word → Bool) (hK : Keep P s) : Good P (State.branch s a b o c) := by
  unfold State.branch
  with_reducible repeat' first | assumption | refine Good.next ?_ | apply State.finish_keep | apply State.given_good | apply State.jump_keep | split

theorem execBeq_good (a b : BitVec 5) (o : BitVec 12) (s : State) (hK : Keep P s) : Good P (execBeq a b o s) := by
  unfold execBeq
  with_reducible repeat' first | assumption | apply State.branch_good

theorem execBne_good (a b : BitVec 5) (o : BitVec 12) (s : State) (hK : Keep P s) : Good P (execBne a b o s) := by
  unfold execBne
  with_reducible repeat' first | assumption | apply State.branch_good

theorem execBlt_good (a b : BitVec 5) (o : BitVec 12) (s : State) (hK : Keep P s) : Good P (execBlt a b o s) := by
  unfold execBlt
  with_reducible repeat' first | assumption | apply State.branch_good

theorem execBge_good (a b : BitVec 5) (o : BitVec 12) (s : State) (hK : Keep P s) : Good P (execBge a b o s) := by
  unfold execBge
  with_reducible repeat' first | assumption | apply State.branch_good

theorem execBltn_good (a b : BitVec 5) (o : BitVec 12) (s : State) (hK : Keep P s) : Good P (execBltn a b o s) := by
  unfold execBltn
  with_reducible repeat' first | assumption | apply State.branch_good

theorem execBgen_good (a b : BitVec 5) (o : BitVec 12) (s : State) (hK : Keep P s) : Good P (execBgen a b o s) := by
  unfold execBgen
  with_reducible repeat' first | assumption | apply State.branch_good

theorem execJal_good (o : BitVec 25) (s : State) (hK : Keep P s) : Good P (execJal o s) := by
  unfold execJal
  with_reducible repeat' first | assumption | refine Good.next ?_ | apply State.jump_keep | apply State.setReg_keep

theorem execJalr_good (d a : BitVec 5) (i : BitVec 15) (s : State) (hK : Keep P s) : Good P (execJalr d a i s) := by
  unfold execJalr
  with_reducible repeat' first | assumption | refine Good.next ?_ | apply State.given_good | apply State.jump_keep | apply State.setReg_keep

theorem execVslup_good (d a b : BitVec 5) (m : BitVec 3) (s : State) (hK : Keep P s) : Good P (execVslup d a b m s) := by
  unfold execVslup
  with_reducible repeat' first | assumption | refine Good.next ?_ | apply State.finishQ_keep | apply State.putV_keep | apply State.vrun_good

theorem execVsldn_good (d a b : BitVec 5) (m : BitVec 3) (s : State) (hK : Keep P s) : Good P (execVsldn d a b m s) := by
  unfold execVsldn
  with_reducible repeat' first | assumption | refine Good.next ?_ | apply State.finishQ_keep | apply State.putV_keep | apply State.vrun_good

theorem execVrgath_good (d a b : BitVec 5) (m : BitVec 3) (s : State) (hK : Keep P s) : Good P (execVrgath d a b m s) := by
  unfold execVrgath
  with_reducible repeat' first | assumption | refine Good.next ?_ | apply State.finishQ_keep | apply State.putV_keep | apply State.vrun_good | apply State.vtrap_good | dsimp only | split

theorem execVcomp_good (d a : BitVec 5) (m : BitVec 3) (s : State) (hK : Keep P s) : Good P (execVcomp d a m s) := by
  unfold execVcomp
  with_reducible repeat' first | assumption | refine Good.next ?_ | apply State.finishQ_keep | apply State.putV_keep | apply State.vrun_good

theorem execViota_good (d : BitVec 5) (a m : BitVec 3) (s : State) (hK : Keep P s) : Good P (execViota d a m s) := by
  unfold execViota
  with_reducible repeat' first | assumption | refine Good.next ?_ | apply State.finishQ_keep | apply State.given_good | apply State.putV_keep | apply State.vrun_good

theorem execVext_good (d a b : BitVec 5) (m : BitVec 3) (s : State) (hK : Keep P s) : Good P (execVext d a b m s) := by
  unfold execVext
  with_reducible repeat' first | assumption | refine Good.next ?_ | apply State.finishQ_keep | apply State.setReg_keep | apply State.vrun_good | apply State.vtrap_good | dsimp only | split

theorem execVins_good (d a b : BitVec 5) (m : BitVec 3) (s : State) (hK : Keep P s) : Good P (execVins d a b m s) := by
  unfold execVins
  with_reducible repeat' first | assumption | refine Good.next ?_ | apply State.finishQ_keep | apply State.putV_keep | apply State.vrun_good | dsimp only | split

theorem execVbcst_good (d a : BitVec 5) (m : BitVec 3) (s : State) (hK : Keep P s) : Good P (execVbcst d a m s) := by
  unfold execVbcst
  with_reducible repeat' first | assumption | refine Good.next ?_ | apply State.finishQ_keep | apply State.putV_keep | apply State.vrun_good

theorem State.fpOut_good (s : State) (d : BitVec 5) (r : Nat × Flags) (hK : Keep P s) : Good P (State.fpOut s d r) := by
  unfold State.fpOut
  with_reducible repeat' first | assumption | refine Good.next ?_ | apply State.addFlags_keep | apply State.finish_keep | apply State.setReg_keep

theorem State.fp3_good (s : State) (d a b : BitVec 5) (f : BitVec 1) (op : Fmt → Nat → Nat → Nat → Nat × Flags) (hK : Keep P s) : Good P (State.fp3 s d a b f op) := by
  unfold State.fp3
  with_reducible repeat' first | assumption | apply State.fpOut_good | apply State.given_good

theorem execFadd_good (d a b : BitVec 5) (f : BitVec 1) (s : State) (hK : Keep P s) : Good P (execFadd d a b f s) := by
  unfold execFadd
  with_reducible repeat' first | assumption | apply State.fp3_good

theorem execFsub_good (d a b : BitVec 5) (f : BitVec 1) (s : State) (hK : Keep P s) : Good P (execFsub d a b f s) := by
  unfold execFsub
  with_reducible repeat' first | assumption | apply State.fp3_good

theorem execFmul_good (d a b : BitVec 5) (f : BitVec 1) (s : State) (hK : Keep P s) : Good P (execFmul d a b f s) := by
  unfold execFmul
  with_reducible repeat' first | assumption | apply State.fp3_good

theorem execFdiv_good (d a b : BitVec 5) (f : BitVec 1) (s : State) (hK : Keep P s) : Good P (execFdiv d a b f s) := by
  unfold execFdiv
  with_reducible repeat' first | assumption | apply State.fp3_good

theorem execFmin_good (d a b : BitVec 5) (f : BitVec 1) (s : State) (hK : Keep P s) : Good P (execFmin d a b f s) := by
  unfold execFmin
  with_reducible repeat' first | assumption | apply State.fpOut_good | apply State.given_good

theorem execFmax_good (d a b : BitVec 5) (f : BitVec 1) (s : State) (hK : Keep P s) : Good P (execFmax d a b f s) := by
  unfold execFmax
  with_reducible repeat' first | assumption | apply State.fpOut_good | apply State.given_good

theorem execFsqrt_good (d a : BitVec 5) (f : BitVec 1) (s : State) (hK : Keep P s) : Good P (execFsqrt d a f s) := by
  unfold execFsqrt
  with_reducible repeat' first | assumption | apply State.fpOut_good | apply State.given_good

theorem execFma_good (d a b : BitVec 5) (f : BitVec 1) (s : State) (hK : Keep P s) : Good P (execFma d a b f s) := by
  unfold execFma
  with_reducible repeat' first | assumption | apply State.fpOut_good | apply State.given_good

theorem execFcvt_good (d a c : BitVec 5) (f : BitVec 1) (s : State) (hK : Keep P s) : Good P (execFcvt d a c f s) := by
  unfold execFcvt
  with_reducible repeat' first | assumption | apply State.fpOut_good | apply State.given_good

theorem execFclass_good (d a : BitVec 5) (f : BitVec 1) (s : State) (hK : Keep P s) : Good P (execFclass d a f s) := by
  unfold execFclass
  with_reducible repeat' first | assumption | apply State.fpOut_good | apply State.given_good

theorem execFcmp_good (d a b : BitVec 5) (c : BitVec 3) (f : BitVec 1) (s : State) (hK : Keep P s) : Good P (execFcmp d a b c f s) := by
  unfold execFcmp
  with_reducible repeat' first | assumption | apply State.fpOut_good | apply State.given_good

end Sys2Proof.Machine
end

