-- ==== Sys2Proof/Laws/KeepRest.lean ====
section
/-!
SUPPORT. That each function keeps the memories' form, and each meaning goes on and keeps it: the scheduler, vector configuration, vector floating point, compares and masks, the policy and what follows a move.
-/
set_option Elab.async false
namespace Sys2Proof.Machine

variable {P : Prop}

theorem Core.take_keepC (k : Core) (g : Nat) (hC : KeepC P k) : KeepC P (Core.take k g) := by
  unfold Core.take
  with_reducible repeat' first | assumption | refine KeepC.out ?_ | (refine KeepC.mk ?_; dsimp only) | split

theorem Core.clearPad_keepC (k : Core) (base n : Nat) (hC : KeepC P k) : KeepC P (Core.clearPad k base n) := by
  unfold Core.clearPad
  with_reducible repeat' first | assumption | refine KeepC.write ?_ | refine KeepC.out ?_ | (refine KeepC.mk ?_; dsimp only)

theorem State.placeOn_keep (s : State) (g : Gang) (grant idx c : Nat) (hK : Keep P s) : Keep P (State.placeOn s g grant idx c) := by
  unfold State.placeOn
  with_reducible repeat' first | assumption | apply Core.clearPad_keepC | apply Core.take_keepC | apply State.coreAt_keepC | apply State.putCore_keep | refine KeepC.fold (fun _ _ _ => ?_) ?_ | refine KeepC.out ?_ | (refine KeepC.mk ?_; dsimp only)

theorem State.placeNew_keep (s : State) (g : Gang) (grant : Nat) (cores : List Nat) (hK : Keep P s) : Keep P (State.placeNew s g grant cores) := by
  unfold State.placeNew
  with_reducible repeat' first | assumption | apply State.examineAll_keep | apply State.placeOn_keep | apply State.rebind_keep | refine Keep.foldl (fun _ _ _ => ?_) ?_ | refine Keep.out ?_ | (refine Keep.mk ?_; dsimp only) | split

theorem State.backOn_keep (s : State) (g : Gang) (c : Nat) (hK : Keep P s) : Keep P (State.backOn s g c) := by
  unfold State.backOn
  with_reducible repeat' first | assumption | apply Core.clearPad_keepC | apply Core.take_keepC | apply State.coreAt_keepC | apply State.putCore_keep | refine KeepC.write ?_ | refine KeepC.fold (fun _ _ _ => ?_) ?_ | refine KeepC.out ?_ | refine KeepC.bytes (fun _ _ _ => ?_) ?_ | (refine KeepC.mk ?_; dsimp only)

theorem State.placeBack_keep (s : State) (g : Gang) (hK : Keep P s) : Keep P (State.placeBack s g) := by
  unfold State.placeBack
  with_reducible repeat' first | assumption | apply State.backOn_keep | apply State.modGang_keep | refine Keep.foldl (fun _ _ _ => ?_) ?_ | refine Keep.out ?_ | (refine Keep.mk ?_; dsimp only)

theorem State.placeNext_keepO (s : State) (parked : Bool) (hK : Keep P s) : KeepO P (State.placeNext s parked) := by
  unfold State.placeNext
  with_reducible repeat' first | assumption | exact KeepO.ofNone | apply State.placeBack_keep | apply State.placeNew_keep | refine KeepO.ofSome ?_ | split

theorem execGangPlace_good (s : State) (hK : Keep P s) : Good P (execGangPlace s) := by
  unfold execGangPlace
  with_reducible repeat' first | assumption | apply State.event_good | apply State.placeNext_keepO

theorem execGangReplace_good (s : State) (hK : Keep P s) : Good P (execGangReplace s) := by
  unfold execGangReplace
  with_reducible repeat' first | assumption | apply State.event_good | apply State.placeNext_keepO

theorem State.parkStrand_keepCO (s : State) (g : Gang) (k : Core) (t : Strand) (hC : KeepC P k) : KeepCO P (State.parkStrand s g k t) := by
  unfold State.parkStrand
  with_reducible repeat' first | assumption | apply Core.clearPad_keepC | exact KeepCO.ofNone | refine KeepCO.ofSome ?_ | refine KeepC.out ?_ | (refine KeepC.mk ?_; dsimp only) | dsimp only | split

theorem State.stopSlot_keepC (s : State) (g : Gang) (k : Core) (hC : KeepC P k) : KeepC P (State.stopSlot s g k) := by
  unfold State.stopSlot
  with_reducible repeat' first | assumption | refine KeepC.out ?_ | (refine KeepC.mk ?_; dsimp only) | split

theorem State.parkOn_keepO (s : State) (g : Gang) (c : Nat) (hK : Keep P s) : KeepO P (State.parkOn s g c) := by
  unfold State.parkOn
  with_reducible repeat' first | assumption | exact KeepO.ofNone | apply Core.refillLarder_keepC | apply State.coreAt_keepC | apply State.goHome_keepC | apply State.parkStrand_keepCO | apply State.putCore_keep | apply State.stopSlot_keepC | refine KeepO.mapAny (fun _ _ => ?_) | refine Keep.out ?_ | refine KeepCO.ofSome ?_ | refine KeepC.ofSome (by assumption) ?_ | refine KeepCO.bind ?_ (fun _ _ => ?_) | refine KeepCO.fold (fun _ _ _ => ?_) ?_ | refine KeepC.out ?_ | (refine KeepC.mk ?_; dsimp only) | (refine Keep.mk ?_; dsimp only) | dsimp only | split

theorem State.parkGang_keepO (s : State) (g : Gang) (hK : Keep P s) : KeepO P (State.parkGang s g) := by
  unfold State.parkGang
  with_reducible repeat' first | assumption | apply State.modGang_keep | apply State.parkOn_keepO | refine KeepO.ofSome ?_ | refine KeepO.map (fun _ _ => ?_) ?_ | refine KeepO.bind ?_ (fun _ _ => ?_) | refine KeepO.foldl (fun _ _ _ => ?_) ?_ | refine Keep.out ?_ | (refine Keep.mk ?_; dsimp only)

theorem Core.tryReduce_keepCO (k : Core) (hC : KeepC P k) : KeepCO P (Core.tryReduce k) := by
  unfold Core.tryReduce
  with_reducible repeat' first | assumption | exact KeepCO.ofNone | refine KeepCO.ofSome ?_ | refine KeepC.out ?_ | (refine KeepC.mk ?_; dsimp only) | split

theorem State.evReduction_keepO (s : State) (hK : Keep P s) : KeepO P (State.evReduction s) := by
  unfold State.evReduction
  with_reducible repeat' first | assumption | exact KeepO.ofNone | apply Core.tryReduce_keepCO | apply State.modCoreAt_keep | apply State.placeNext_keepO | apply State.putCore_keep | refine KeepO.ofSome ?_ | refine KeepO.getD ?_ ?_ | refine Keep.foldl (fun _ _ _ => ?_) ?_ | refine Keep.out ?_ | refine KeepC.ofSome (by assumption) ?_ | refine KeepC.out ?_ | refine KeepCO.findSome (fun _ _ => ?_) ?_ | exact Keep.allCores (by assumption) | (refine KeepC.mk ?_; dsimp only) | (refine Keep.mk ?_; dsimp only) | dsimp only | split | intro _

theorem execGrantReduction_good (s : State) (hK : Keep P s) : Good P (execGrantReduction s) := by
  unfold execGrantReduction
  with_reducible repeat' first | assumption | apply State.evReduction_keepO | apply State.event_good

theorem State.timeoutOne_keepO (s : State) (r : Reduction) (hK : Keep P s) : KeepO P (State.timeoutOne s r) := by
  unfold State.timeoutOne
  with_reducible repeat' first | assumption | exact KeepO.ofNone | apply State.modGang_keep | apply State.modStrand_keep | refine KeepO.ofSome ?_ | refine Keep.foldl (fun _ _ _ => ?_) ?_ | refine Keep.out ?_ | (refine Keep.mk ?_; dsimp only) | dsimp only | split

theorem State.evReductionTimeout_keepO (s : State) (hK : Keep P s) : KeepO P (State.evReductionTimeout s) := by
  unfold State.evReductionTimeout
  with_reducible repeat' first | assumption | apply State.timeoutOne_keepO | apply nth_keepO | intro _

theorem execGrantReductionTimeout_good (s : State) (hK : Keep P s) : Good P (execGrantReductionTimeout s) := by
  unfold execGrantReductionTimeout
  with_reducible repeat' first | assumption | apply State.evReductionTimeout_keepO | apply State.event_good

theorem State.stopParking_keepO (s : State) (k : Core) (hK : Keep P s) (hC : KeepC P k) : KeepO P (State.stopParking s k) := by
  unfold State.stopParking
  with_reducible repeat' first | assumption | exact KeepO.ofNone | apply State.putCore_keep | apply State.stopSlot_keepC | refine KeepO.ofSome ?_ | split

theorem State.evPreempt_keepO (s : State) (hK : Keep P s) : KeepO P (State.evPreempt s) := by
  unfold State.evPreempt
  with_reducible repeat' first | assumption | exact KeepO.ofNone | apply State.coreAt_keepC | apply State.modGang_keep | apply State.stopParking_keepO | apply nth_keepO | refine Keep.ofSome (by assumption) ?_ | refine KeepO.ofSome ?_ | refine KeepO.getD ?_ ?_ | refine Keep.foldl (fun _ _ _ => ?_) ?_ | exact Keep.allCores (by assumption) _ (by assumption) | dsimp only | split | intro _

theorem execPreempt_good (s : State) (hK : Keep P s) : Good P (execPreempt s) := by
  unfold execPreempt
  with_reducible repeat' first | assumption | apply State.evPreempt_keepO | apply State.event_good

theorem State.saveOne_keepO (s : State) (g : Gang) (hK : Keep P s) : KeepO P (State.saveOne s g) := by
  unfold State.saveOne
  with_reducible repeat' first | assumption | exact KeepO.ofNone | apply State.parkGang_keepO | apply State.placeNext_keepO | apply State.spill_keep | refine Keep.ofSome (by assumption) ?_ | refine KeepO.ofSome ?_ | refine KeepO.getD ?_ ?_ | refine Keep.foldl (fun _ _ _ => ?_) ?_ | refine Keep.out ?_ | (refine Keep.mk ?_; dsimp only) | dsimp only | split

theorem State.evPreemptSave_keepO (s : State) (hK : Keep P s) : KeepO P (State.evPreemptSave s) := by
  unfold State.evPreemptSave
  with_reducible repeat' first | assumption | apply State.saveOne_keepO | apply nth_keepO | intro _

theorem execPreemptSave_good (s : State) (hK : Keep P s) : Good P (execPreemptSave s) := by
  unfold execPreemptSave
  with_reducible repeat' first | assumption | apply State.evPreemptSave_keepO | apply State.event_good

theorem State.evAnyWrite_keepO (s : State) (hK : Keep P s) : KeepO P (State.evAnyWrite s) := by
  unfold State.evAnyWrite
  with_reducible repeat' first | assumption | apply State.evWrite_keepO | refine KeepO.bindAny (fun _ _ => ?_)

theorem State.evPollEnds_keepO (s : State) (hK : Keep P s) : KeepO P (State.evPollEnds s) := by
  unfold State.evPollEnds
  with_reducible repeat' first | assumption | exact KeepO.ofNone | apply State.testWait_keepO | apply nth_keepO | split | intro _

/-- Every event that the policy may choose keeps the form. -/
theorem policy_keepO {f : State → Option State} (hf : f ∈ policy) {s : State} (h : Keep P s) : KeepO P (f s) := by
  suffices all : ∀ g ∈ policy, ∀ s, Keep P s → KeepO P (g s) from all f hf s h
  unfold policy
  simp only [List.forall_mem_cons, List.not_mem_nil, false_implies, implies_true, and_true]
  exact ⟨fun _ h => KeepO.ite (State.evPowerGood_keepO _ h) KeepO.ofNone, State.evConfigure_keepO, State.evTrain_keepO, State.evFull_keepO, State.evL1Fill_keepO,
    State.evInvalAck_keepO, State.evPageWalk_keepO, State.evReply_keepO, State.evToken_keepO, State.evStoreSend_keepO, State.evFillEnd_keepO,
    State.evFill_keepO, State.evCombine_keepO, State.evRetry_keepO, State.evCopyAccept_keepO, State.evCopyComplete_keepO, State.evPorch_keepO,
    State.evHold_keepO, State.evReleased_keepO, State.evGroupAck_keepO, State.evAnyWrite_keepO, State.evHflush_keepO, State.evQuote_keepO,
    State.evRead_keepO, State.evWriteReq_keepO, State.evFjoin_keepO, State.evAtomic_keepO, State.evReadData_keepO, State.evDone_keepO,
    State.evAtomicData_keepO, State.evSignal_keepO, State.evIncrement_keepO, State.evGforward_keepO, State.evSpawnReq_keepO, State.evHostmsg_keepO,
    State.evFlit_keepO, State.evAckTimer_keepO, State.evReplayLimit_keepO, State.evHalving_keepO, State.evJoin_keepO, State.evHostReq_keepO,
    State.evMgmt_keepO, State.evContain_keepO, State.evGangComplete_keepO, State.evScan_keepO, State.evLaunch_keepO, State.evSignalPkt_keepO,
    State.evWaitPkt_keepO, State.evPollEnds_keepO, State.evCopyPkt_keepO, State.evTablePkt_keepO, State.evPktComplete_keepO, State.evPreemptSave_keepO,
    fun _ h => State.placeNext_keepO _ _ h, fun _ h => State.placeNext_keepO _ _ h, State.evReduction_keepO, State.evReductionTimeout_keepO,
    State.evPreempt_keepO, fun _ h => nth_keepO fun _ _ => State.cancelDeferred_keepO _ _ h,
    State.evSaveEnd_keepO, State.evRestoreEnd_keepO, State.evAgeing_keepO, State.evRollback_keepO, State.evRotation_keepO, State.evMove_keepO,
    State.evPortDown_keepO⟩

theorem State.applyReduction_keep (s : State) (hK : Keep P s) : Keep P (State.applyReduction s) := by
  unfold State.applyReduction
  with_reducible repeat' first | assumption | apply State.modSt_keep | split

theorem State.setVl_keep (s : State) (req : Word) (n : Option Word) (d : BitVec 5) (hK : Keep P s) : Keep P (State.setVl s req n d) := by
  unfold State.setVl
  with_reducible repeat' first | assumption | apply State.applyReduction_keep | apply State.modSt_keep | apply State.setReg_keep | refine Keep.out ?_ | (refine Keep.mk ?_; dsimp only) | split

theorem execSetvl_good (d a b : BitVec 5) (s : State) (hK : Keep P s) : Good P (execSetvl d a b s) := by
  unfold execSetvl
  with_reducible repeat' first | assumption | refine Good.next ?_ | apply State.finish_keep | apply State.given_good | apply State.setVl_keep

theorem execSetvli_good (d a : BitVec 5) (x sr : BitVec 1) (r : BitVec 2) (g : BitVec 3) (t : BitVec 4) (sew : BitVec 2) (s : State) (hK : Keep P s) : Good P (execSetvli d a x sr r g t sew s) := by
  unfold execSetvli
  with_reducible repeat' first | assumption | refine Good.next ?_ | apply State.finish_keep | apply State.given_good | apply State.setVl_keep

theorem execLive_good (a : BitVec 5) (s : State) (hK : Keep P s) : Good P (execLive a s) := by
  unfold execLive
  with_reducible repeat' first | assumption | refine Good.next ?_ | apply State.finish_keep | apply State.given_good | apply State.modSt_keep

theorem State.vfop_good (s : State) (d a : BitVec 5) (b : Src) (m : BitVec 3) (f : Fmt → Nat → Nat → Nat → Nat × Flags) (hK : Keep P s) : Good P (State.vfop s d a b m f) := by
  unfold State.vfop
  with_reducible repeat' first | assumption | apply State.vop_good

theorem State.vfma_good (s : State) (d a : BitVec 5) (b : Src) (m : BitVec 3) (neg : Bool) (hK : Keep P s) : Good P (State.vfma s d a b m neg) := by
  unfold State.vfma
  with_reducible repeat' first | assumption | apply State.vop_good

theorem execVfaddVV_good (d a b : BitVec 5) (m : BitVec 3) (s : State) (hK : Keep P s) : Good P (execVfaddVV d a b m s) := by
  unfold execVfaddVV
  with_reducible repeat' first | assumption | apply State.vfop_good

theorem execVfaddVS_good (d a b : BitVec 5) (m : BitVec 3) (s : State) (hK : Keep P s) : Good P (execVfaddVS d a b m s) := by
  unfold execVfaddVS
  with_reducible repeat' first | assumption | apply State.vfop_good

theorem execVfsubVV_good (d a b : BitVec 5) (m : BitVec 3) (s : State) (hK : Keep P s) : Good P (execVfsubVV d a b m s) := by
  unfold execVfsubVV
  with_reducible repeat' first | assumption | apply State.vfop_good

theorem execVfsubVS_good (d a b : BitVec 5) (m : BitVec 3) (s : State) (hK : Keep P s) : Good P (execVfsubVS d a b m s) := by
  unfold execVfsubVS
  with_reducible repeat' first | assumption | apply State.vfop_good

theorem execVfmulVV_good (d a b : BitVec 5) (m : BitVec 3) (s : State) (hK : Keep P s) : Good P (execVfmulVV d a b m s) := by
  unfold execVfmulVV
  with_reducible repeat' first | assumption | apply State.vfop_good

theorem execVfmulVS_good (d a b : BitVec 5) (m : BitVec 3) (s : State) (hK : Keep P s) : Good P (execVfmulVS d a b m s) := by
  unfold execVfmulVS
  with_reducible repeat' first | assumption | apply State.vfop_good

theorem execVfdivVV_good (d a b : BitVec 5) (m : BitVec 3) (s : State) (hK : Keep P s) : Good P (execVfdivVV d a b m s) := by
  unfold execVfdivVV
  with_reducible repeat' first | assumption | apply State.vfop_good

theorem execVfdivVS_good (d a b : BitVec 5) (m : BitVec 3) (s : State) (hK : Keep P s) : Good P (execVfdivVS d a b m s) := by
  unfold execVfdivVS
  with_reducible repeat' first | assumption | apply State.vfop_good

theorem execVfminVV_good (d a b : BitVec 5) (m : BitVec 3) (s : State) (hK : Keep P s) : Good P (execVfminVV d a b m s) := by
  unfold execVfminVV
  with_reducible repeat' first | assumption | apply State.vfop_good

theorem execVfminVS_good (d a b : BitVec 5) (m : BitVec 3) (s : State) (hK : Keep P s) : Good P (execVfminVS d a b m s) := by
  unfold execVfminVS
  with_reducible repeat' first | assumption | apply State.vfop_good

theorem execVfmaxVV_good (d a b : BitVec 5) (m : BitVec 3) (s : State) (hK : Keep P s) : Good P (execVfmaxVV d a b m s) := by
  unfold execVfmaxVV
  with_reducible repeat' first | assumption | apply State.vfop_good

theorem execVfmaxVS_good (d a b : BitVec 5) (m : BitVec 3) (s : State) (hK : Keep P s) : Good P (execVfmaxVS d a b m s) := by
  unfold execVfmaxVS
  with_reducible repeat' first | assumption | apply State.vfop_good

theorem execVfmaVV_good (d a b : BitVec 5) (m : BitVec 3) (s : State) (hK : Keep P s) : Good P (execVfmaVV d a b m s) := by
  unfold execVfmaVV
  with_reducible repeat' first | assumption | apply State.vfma_good

theorem execVfmaVS_good (d a b : BitVec 5) (m : BitVec 3) (s : State) (hK : Keep P s) : Good P (execVfmaVS d a b m s) := by
  unfold execVfmaVS
  with_reducible repeat' first | assumption | apply State.vfma_good

theorem execVfnmsVV_good (d a b : BitVec 5) (m : BitVec 3) (s : State) (hK : Keep P s) : Good P (execVfnmsVV d a b m s) := by
  unfold execVfnmsVV
  with_reducible repeat' first | assumption | apply State.vfma_good

theorem execVfnmsVS_good (d a b : BitVec 5) (m : BitVec 3) (s : State) (hK : Keep P s) : Good P (execVfnmsVS d a b m s) := by
  unfold execVfnmsVS
  with_reducible repeat' first | assumption | apply State.vfma_good

theorem execVfsqrt_good (d a : BitVec 5) (m : BitVec 3) (s : State) (hK : Keep P s) : Good P (execVfsqrt d a m s) := by
  unfold execVfsqrt
  with_reducible repeat' first | assumption | apply State.vop_good

theorem execVfexp2_good (d a : BitVec 5) (m : BitVec 3) (s : State) (hK : Keep P s) : Good P (execVfexp2 d a m s) := by
  unfold execVfexp2
  with_reducible repeat' first | assumption | apply State.vop_good

theorem execVfcvt_good (d a : BitVec 5) (t : BitVec 4) (m : BitVec 3) (s : State) (hK : Keep P s) : Good P (execVfcvt d a t m s) := by
  unfold execVfcvt
  with_reducible repeat' first | assumption | refine Good.next ?_ | apply State.elementwise_keep | apply State.given_good | apply State.putV_keep | apply State.vrun_good | dsimp only | split

theorem State.vcompare_good (s : State) (acc : Accepts) (d : BitVec 3) (a : BitVec 5) (b : Src) (m : BitVec 3) (f : Nat → Nat → Bool × Flags) (hK : Keep P s) : Good P (State.vcompare s acc d a b m f) := by
  unfold State.vcompare
  with_reducible repeat' first | assumption | refine Good.next ?_ | apply State.addFlags_keep | apply State.finishQ_keep | apply State.putM_keep | apply State.vrun_good | apply State.vtrap_good | dsimp only | split

theorem execVcmpVV_good (d : BitVec 3) (a b : BitVec 5) (m c : BitVec 3) (s : State) (hK : Keep P s) : Good P (execVcmpVV d a b m c s) := by
  unfold execVcmpVV
  with_reducible repeat' first | assumption | apply State.vcompare_good

theorem execVcmpVS_good (d : BitVec 3) (a b : BitVec 5) (m c : BitVec 3) (s : State) (hK : Keep P s) : Good P (execVcmpVS d a b m c s) := by
  unfold execVcmpVS
  with_reducible repeat' first | assumption | apply State.vcompare_good

theorem execVfcmpVV_good (d : BitVec 3) (a b : BitVec 5) (m c : BitVec 3) (s : State) (hK : Keep P s) : Good P (execVfcmpVV d a b m c s) := by
  unfold execVfcmpVV
  with_reducible repeat' first | assumption | apply State.vcompare_good

theorem execVfcmpVS_good (d : BitVec 3) (a b : BitVec 5) (m c : BitVec 3) (s : State) (hK : Keep P s) : Good P (execVfcmpVS d a b m c s) := by
  unfold execVfcmpVS
  with_reducible repeat' first | assumption | apply State.vcompare_good

theorem State.maskOp_good (s : State) (d a b m : BitVec 3) (f : Bool → Bool → Bool) (hK : Keep P s) : Good P (State.maskOp s d a b m f) := by
  unfold State.maskOp
  with_reducible repeat' first | assumption | refine Good.next ?_ | apply State.finishQ_keep | apply State.given_good | apply State.putM_keep | apply State.vrun_good

theorem execMand_good (d a b m : BitVec 3) (s : State) (hK : Keep P s) : Good P (execMand d a b m s) := by
  unfold execMand
  with_reducible repeat' first | assumption | apply State.maskOp_good

theorem execMor_good (d a b m : BitVec 3) (s : State) (hK : Keep P s) : Good P (execMor d a b m s) := by
  unfold execMor
  with_reducible repeat' first | assumption | apply State.maskOp_good

theorem execMxor_good (d a b m : BitVec 3) (s : State) (hK : Keep P s) : Good P (execMxor d a b m s) := by
  unfold execMxor
  with_reducible repeat' first | assumption | apply State.maskOp_good

theorem execMpopc_good (d : BitVec 5) (a m : BitVec 3) (s : State) (hK : Keep P s) : Good P (execMpopc d a m s) := by
  unfold execMpopc
  with_reducible repeat' first | assumption | refine Good.next ?_ | apply State.finishQ_keep | apply State.given_good | apply State.setReg_keep | apply State.vrun_good

theorem execMfirst_good (d : BitVec 5) (a m : BitVec 3) (s : State) (hK : Keep P s) : Good P (execMfirst d a m s) := by
  unfold execMfirst
  with_reducible repeat' first | assumption | refine Good.next ?_ | apply State.finishQ_keep | apply State.given_good | apply State.setReg_keep | apply State.vrun_good

theorem execMtov_good (d : BitVec 5) (a m : BitVec 3) (s : State) (hK : Keep P s) : Good P (execMtov d a m s) := by
  unfold execMtov
  with_reducible repeat' first | assumption | refine Good.next ?_ | apply State.finishQ_keep | apply State.given_good | apply State.putV_keep | apply State.vrun_good

theorem execVtom_good (d : BitVec 3) (a : BitVec 5) (m : BitVec 3) (s : State) (hK : Keep P s) : Good P (execVtom d a m s) := by
  unfold execVtom
  with_reducible repeat' first | assumption | refine Good.next ?_ | apply State.finishQ_keep | apply State.putM_keep | apply State.vrun_good | apply State.vtrap_good | dsimp only | split

theorem State.bare_keep (s : State) (hK : Keep P s) : Keep P (State.bare s) := by
  unfold State.bare
  with_reducible repeat' first | assumption | apply State.modGang_keep

theorem State.overtaken_keep (s : State) (e : QEntry) (els : List VEl) (hK : Keep P s) : Keep P (State.overtaken s e els) := by
  unfold State.overtaken
  with_reducible repeat' first | assumption | apply State.takeOut_keep | apply State.choose_keepP | apply State.modSt_keep | apply State.putChunk_keep | refine Keep.foldl (fun _ _ _ => ?_) ?_ | refine Keep.out ?_ | (refine Keep.mk ?_; dsimp only) | split

theorem settle_good {o : Out} (h : Good P o) : Good P (settle o) := by
  obtain ⟨t, rfl, h⟩ := h
  exact Good.next (State.transmit_keep _ h)

theorem State.unmarked_keep (s : State) (hK : Keep P s) : Keep P (State.unmarked s) := by
  unfold State.unmarked
  with_reducible repeat' first | assumption | apply State.modGang_keep | refine Keep.out ?_ | (refine Keep.mk ?_; dsimp only)

end Sys2Proof.Machine
end

