-- ==== Sys2Proof/Tests/Slice0.lean ====
section
/-!
SUPPORT. Tests: ill-formed terms that WellFormed refuses, words that the spec writes out, single steps on small states, and a witness for the hypotheses of every statement.
-/
namespace Sys2Proof.Tests
open Sys2Proof.Machine
set_option maxRecDepth 4096
set_option Elab.async false

/-! ## States for the tests and the witnesses -/

/-- A LAUNCH's task of one core and one strand. -/
def task0 : Task where
  queue := 0
  pkt := 7
  spawned := false
  c := 1
  s := 1
  grp := 0
  gmin := 0
  prio := 1
  isolate := false
  code := 0x1000
  arg := 5
  spad := 4096
  farea := []
  save := 0
  saveAt := []
  asid := 3
  ptbase := 0
  stvec := 0x2000

/-- Its gang, placed on core 0, with both handlers. -/
def gang1 : Gang := { Gang.fresh 1 0 task0 with state := .placed, cores := [0], kutvec := 0x3000, kstvec := 0x2000 }

/-- A running strand: s4 its scratchpad, s5 = 7, s6 = 256 bytes into its scratchpad, s7 misaligned, s8 an address without a translation; 64-bit integers, VL 4. -/
def strand0 : Strand :=
  { Strand.empty with
    status := .running, gang := 1, pc := 0x1000, allotSize := 4096, kvtype := 3, vl := 4, klm := 0x10
    regs := ((((Strand.empty.regs.set 4 0x70000000000000).set 5 7).set 6 0x70000000000100).set 7 0x70000000000003).set 8 0x8000000000000000 }

/-- A device in full mode, device 5 of the pod, with that strand in the slot of core 0. -/
def dev : State := { State.reset with boot := .full, kdev := 5, gangs := [gang1], core := { Core.fresh 0 with phase := .run, st := strand0 } }
/-- The same with another strand in the slot. -/
def devSt (f : Strand → Strand) : State := Claims.withSt dev (f dev.core.st)
/-- In K mode, in a handler, and with a poisoned, a pending and a lost register. -/
def devK : State := devSt (fun t => { t with kstatus := 1 })
def devH : State := devSt (fun t => { t with kstatus := 4 })
def devMarks : State := devSt (fun t => { t with marks := ((t.marks.set 9 .poisoned).set 10 .pending).set 11 (.lost 2 0x40) })
/-- With K-registers that an error has struck, in every place that may hold one. -/
def devBad (m : Word) (l : List Nat) : State :=
  let s := devSt (fun t => { t with kstatus := m, badK := l })
  { s with gangs := [{ gang1 with badK := l }], badK := l, core := { s.core with badK := l } }
/-- A page of this device, mapped with every permission. -/
def page0 : Xlat := ⟨3, 1, false, 0x10000, 0, false, 0, true, true, true, true⟩
/-- s9 = 0x10000 lies on that page, whose translation the TLB holds. -/
def devMem : State :=
  { devSt (fun t => { t with regs := (t.regs.set 9 0x10000).set 10 0x10040 }) with
    gangs := [{ gang1 with kasid := 3 }]
    core := { dev.core with tlb := [page0], st := { dev.core.st with regs := (dev.core.st.regs.set 9 0x10000).set 10 0x10040 } } }
/-- The same page without R, W and U. -/
def devNoPerm : State := { devMem with core := { devMem.core with tlb := [{ page0 with r := false, w := false, u := false }] } }

/-- A page of code: the word 0, which selects no instruction, at pc 0x10000. -/
def devIll : State := { devMem with core := { devMem.core with st := { devMem.core.st with pc := 0x10000 } } }
/-- A pc that nothing maps. -/
def devLost : State := { devMem with core := { devMem.core with st := { devMem.core.st with pc := 0x60000000000000 } } }
/-- The word of addi s3, s4, 1 at pc 0x10000. -/
def devAdd : State := { devIll with mem := writeNat [] 0x10000 4 0x04320001 }
def isWord (f : Fetched) (p : IWord → Bool) : Bool := match f with | .word w _ _ _ _ => p w | _ => false
/-- An instruction in the vector queue, as it came from a strand. -/
def queued0 (i : Instr) (t : Strand) (n : Nat) : QEntry := ⟨4, i, t.ctx, [], n⟩

/-- An empty tile, and changes of it. -/
def tile0 (n : Nat) : Tile := ⟨n, false, false, none, 0, 0, 0, 0, [], none⟩
/-- dev with the given tiles; s4 is the address of tile 0 and s6 of tile 1. -/
def devTiles (l : List Tile) : State := { dev with core := { dev.core with tiles := l } }
/-- dev with s5 changed. -/
def devR5 (v : Word) (s : State) : State := Claims.withSt s { s.core.st with regs := s.core.st.regs.set 5 v }
/-- A token of gang 1 in slot 3 of core 0, and its handle in s10; s5 is 7. -/
def tok3 : Token := { Token.fresh 3 1 with count := 5 }
def devTok (k : Token) : State :=
  { dev with core := { dev.core with tokens := [k], st := { dev.core.st with regs := dev.core.st.regs.set 10 (5 * 2 ^ 23 + 3 * 2 ^ 6) } } }
/-- A second strand of gang 1, rank 1, on core 0. -/
def task2 : Task := { task0 with s := 2 }
def gang2 : Gang := { gang1 with task := task2 }
def strand1 : Strand := { strand0 with status := .runnable, rank := 1, allotBase := 4096 }
def dev2 : State := { dev with gangs := [gang2], core := { dev.core with rest := [strand1] } }
theorem quiet_dev : Claims.Quiet dev := ⟨by constructor <;> decide +kernel, rfl⟩
theorem quiet_devMem : Claims.Quiet devMem := ⟨by constructor <;> decide +kernel, rfl⟩
theorem sound45 (s : State) (h : s.core.st.badK = []) : Claims.kSound s [4, 5] := by
  intro k hk
  simp only [List.mem_cons, List.not_mem_nil, or_false] at hk
  rcases hk with rfl | rfl <;> simp [Claims.struck, h]
/-- An access through page0 to flat HBM. -/
theorem memAt_of (s : State) (va : Word) (n : Nat) (rd wr : Bool) (pa : Nat)
    (h : s.xlate va n = .at (.slice pa 0) page0 ∧ page0 ∈ s.core.tlb ∧ va.toNat % n = 0 ∧ 0 < n ∧ pa % 64 + n ≤ 64 ∧ s.hbmQ ≤ 4 ∧ pa + n ≤ s.hbmQ * 192 * 2 ^ 30 ∧ s.meEn = false) : Claims.memAt s va n rd wr pa :=
  ⟨0, page0, h.1, h.2.1, fun _ => rfl, fun _ => rfl, .inr rfl, h.2.2.1, h.2.2.2⟩

/-! ## Witnesses: for every statement, states and operands that meet its hypotheses -/

theorem witness_ScalarIntegerResults : Claims.Clean dev [4, 5] ∧ Claims.Clean dev [3] := by unfold Claims.Clean; decide +kernel
theorem witness_ScalarFpResults : Claims.Clean dev [4, 5, 3] ∧ Claims.Clean dev [4] ∧ Claims.kSound dev [1] ∧ ¬ Claims.kSound (devBad 0 [1]) [1] ∧ Claims.Clean (devBad 0 [1]) [4, 5, 3] ∧ (4 : BitVec 5).toNat ≤ 4 ∧ (3 : BitVec 3).toNat ≤ 3 := by
  unfold Claims.Clean Claims.kSound; decide +kernel
/-- Operands of 1.0 and 1.5 in fp64, an inexact quotient's operands, and a matrix operand of fp32 zeros beside a cell of 1.0. -/
theorem witness_FpRounding :
    (∃ p ∈ Claims.arithFmts, p.1 = fp64 ∧ 0x3FF8000000000000 % Claims.signBit p.1 ≤ p.2.1 ∧ 0 < Claims.units p.1 0x3FF8000000000000) ∧ (∃ p ∈ Claims.fmtTable, p.1 = fp32 ∧ 0x3F800000 % Claims.signBit p.1 ≤ p.2.1 ∧ Claims.units p.1 0x3F800000 ≠ 0)
    ∧ Claims.units fp32 0x40000000 = 2 * 2 ^ Claims.scale fp32 ∧ (∀ n : Int, Claims.units fp32 0x3FC00000 ≠ n * 2 ^ Claims.scale fp32)
    ∧ (dev.core.st.kvtype.getLsbD 17 = false ∧ (0x3F800000 : Nat) % 2 ^ 31 ≤ 0x7F7FFFFF) ∧ Claims.units fp32 0x3F800000 ≠ 0 := by
  refine ⟨⟨_, List.Mem.head _, rfl, by decide +kernel⟩, ⟨_, List.Mem.tail _ (List.Mem.head _), rfl, by decide +kernel⟩, by decide +kernel, ?_, by decide +kernel⟩
  intro n h
  have e : Claims.units fp32 0x3FC00000 = 3 * 2 ^ 148 ∧ Claims.scale fp32 = 149 := by decide +kernel
  rw [e.1, e.2] at h
  omega
theorem witness_BranchAndJump : Claims.Clean dev [4, 5] ∧ Claims.Clean dev [4] := by unfold Claims.Clean; decide +kernel

/-- A device whose KVTYPE is k; its mask m1 has bits 1 and 2 set, and m2 none. -/
def devV (k : Word) : State := devSt (fun t => { t with kvtype := k, masks := t.masks.set 1 6 })
/-- s9 lies on a page of control space; watch register 2 matches writes of the eight bytes after s6's first byte, by a period of 512 bytes. -/
def pageCtl : Xlat := { page0 with frame := 0xFF0000830000 }
def devCtlPage : State := { devMem with core := { devMem.core with tlb := [pageCtl] } }
def devWatch : State := devSt (fun t => { t with watch := t.watch.set 2 ⟨5, 0x70000000000101, 0x70000000000400, 0x800000200⟩ })
theorem hit2 : Claims.watchHit devWatch.core.st.watch[(2 : Fin 8)] true true (devWatch.reg 6).toNat 8 :=
  ⟨by decide +kernel, .inr (by decide +kernel), 0x70000000000101, by decide +kernel⟩
theorem miss1 : ¬ Claims.watchHit devWatch.core.st.watch[(1 : Fin 8)] true true (devWatch.reg 6).toNat 8 := fun h => absurd h.1 (by decide +kernel)
theorem witness_ChecksBeforeEffects :
    (∃ p ∈ Claims.aluTable, Instr.add 3 9 5 = p.1 3 9 5) ∧ (∃ p ∈ Claims.branchTable, Instr.beq 5 10 0 = p.1 5 10 0)
    ∧ Claims.IsLoad dev (.ldh 3 7 0) 3 (Claims.ea dev 7 0 2) [7] 2 true ∧ Claims.IsStore dev (.sth 3 7 0) 3 (Claims.ea dev 7 0 2) [7, 3] 2
    ∧ Claims.IsLoad dev (.ldd 3 8 0) 3 (Claims.ea dev 8 0 8) [8] 8 false ∧ Claims.IsStore devNoPerm (.std 3 9 0) 3 (Claims.ea devNoPerm 9 0 8) [9, 3] 8
    ∧ devMarks.core.st.marks[9] = .poisoned ∧ devMarks.core.st.marks[10] = .pending ∧ devMarks.core.st.marks[11] = .lost 2 0x40 ∧ Claims.Clean devMarks [5]
    ∧ ¬ Claims.kSound (devBad 0 [4]) [4, 5] ∧ Claims.kSound (devV 3) [4, 5] ∧ (devV (1 <<< 63)).core.st.kvtype.getLsbD 63 = true ∧ (devV 0x13).core.st.kvtype.getLsbD 63 = false ∧ 2 ≤ (devV 0x13).et ∧ Claims.etInts (devV 3)
    ∧ (devV 3).core.st.badMasks.getLsbD 2 = false ∧ (∀ i < (devV 3).core.st.vl, ((devV 3).core.st.masks[2]).getLsbD i = false)
    ∧ (Claims.ea dev 7 0 2).toNat % 2 ≠ 0 ∧ Claims.Clean dev [7, 3] ∧ (dev.reg 7).toNat % 4 ≠ 0
    ∧ (Claims.ea dev 8 0 8).toNat % 8 = 0 ∧ Claims.Clean dev [8] ∧ dev.xlate (Claims.ea dev 8 0 8) 8 = .fault 0x07 none
    ∧ Claims.Clean devNoPerm [9, 3] ∧ devNoPerm.xlate (Claims.ea devNoPerm 9 0 8) 8 = .at (.slice 0x10000 0) { page0 with r := false, w := false, u := false } := by
  refine ⟨⟨_, List.Mem.head _, rfl⟩, ⟨_, List.Mem.head _, rfl⟩, .base 3 7 0 (.ldh, 2, true) (by simp [Claims.loadTable]), .base 3 7 0 (.sth, 2) (by simp [Claims.storeTable]),
    .base 3 8 0 (.ldd, 8, false) (by simp [Claims.loadTable]), .base 3 9 0 (.std, 8) (by simp [Claims.storeTable]), ?_⟩
  unfold Claims.Clean Claims.kSound Claims.etInts
  decide +kernel

theorem witness_ChecksBeforeEffects_access :
    Claims.IsAccess devCtlPage (.ldb 3 9 0) (Claims.ea devCtlPage 9 0 1) [9] 1 true false ∧ Claims.IsAccess devWatch (.amoadd 3 6 5 0 0 0 0) (devWatch.reg 6) [6, 5, 3] 8 true true
    ∧ Claims.watchHit devWatch.core.st.watch[(2 : Fin 8)] true true (devWatch.reg 6).toNat 8 ∧ ¬ Claims.watchHit devWatch.core.st.watch[(1 : Fin 8)] true true (devWatch.reg 6).toNat 8
    ∧ devCtlPage.xlate (Claims.ea devCtlPage 9 0 1) 1 = .at (.ctl 0xFF0000830000) pageCtl ∧ (Place.ctl 0xFF0000830000).isCtl = true ∧ Claims.Clean devCtlPage [9]
    ∧ (devWatch.reg 6).toNat % 8 = 0 ∧ Claims.Clean devWatch [6, 5, 3] ∧ devWatch.core.st.watchPass = false
    ∧ devWatch.xlate (devWatch.reg 6) 8 = .at (.local_ 256) windowXlat ∧ (Place.local_ 256).isCtl = false ∧ windowXlat.r = true ∧ windowXlat.w = true ∧ Claims.mayUse devWatch windowXlat := by
  refine ⟨.load _ _ _ _ _ _ (.base 3 9 0 (.ldb, 1, true) (by simp [Claims.loadTable])), .amo 3 6 5 0 0 0 0 _ (List.Mem.head _), hit2, miss1, ?_⟩
  unfold Claims.Clean Claims.mayUse; decide +kernel

theorem witness_TrapRouting : Claims.classC 0x11 ∧ ¬ Claims.classC 0x20 ∧ Claims.classU 0x09 ∧ ¬ Claims.classC 0x09 ∧ ¬ Claims.classU 0x20 := by
  unfold Claims.classC Claims.classU; decide +kernel
theorem handlers_dev : Claims.Handlers dev 0x3000 0x2000 := ⟨gang1, by decide +kernel⟩
theorem witness_TakingAnException : Claims.Handlers dev 0x3000 0x2000 := handlers_dev

/-- devIll with an instruction still queued. -/
def devBehind : State := Claims.withSt devIll { devIll.core.st with queue := [queued0 (.vaddVV 3 1 2 0) devIll.core.st 0] }
theorem witness_TrapsAndReturns :
    Claims.Handlers dev 0x3000 0x2000 ∧ Claims.Handlers devK 0x3000 0x2000
    ∧ (0x2000 : Word) ≠ 0 ∧ devK.core.st.kstatus.getLsbD 0 = true ∧ Claims.kSound devK [0x100, 0x101, 0x102, 0x103]
    ∧ devH.core.st.kstatus.getLsbD 0 = false ∧ devH.core.st.kstatus.getLsbD 2 = true ∧ Claims.kSound devH [0x100, 0x10, 0x11, 0x12]
    ∧ (devBad 1 [0x103]).core.st.kstatus.getLsbD 0 = true ∧ ¬ Claims.kSound (devBad 1 [0x103]) [0x100, 0x101, 0x102, 0x103]
    ∧ (devBad 4 [0x12]).core.st.kstatus.getLsbD 2 = true ∧ ¬ Claims.kSound (devBad 4 [0x12]) [0x100, 0x10, 0x11, 0x12]
    ∧ dev.core.st.kstatus.getLsbD 0 = false ∧ dev.core.st.kstatus.getLsbD 2 = false
    ∧ devBehind.canIssue = true ∧ ¬ (devBehind.core.st.queue = [] ∧ devBehind.core.st.out = [])
    ∧ devIll.canIssue = true ∧ devIll.core.st.queue = [] ∧ devIll.core.st.out = [] ∧ isWord devIll.fetch (fun w => decide (decodeWord w = .illegal 0x01)) = true
    ∧ isWord devAdd.fetch (fun w => decide (decodeWord w = .instr (.addi 3 4 1))) = true ∧ devLost.canIssue = true ∧ isWord devLost.fetch (fun _ => true) = false := by
  refine ⟨handlers_dev, ⟨gang1, by decide +kernel⟩, ?_⟩
  unfold Claims.kSound
  decide +kernel

theorem reach (k : Nat) (h : k ∈ [1, 2, 3, 4, 5] ∨ (8 ≤ k ∧ k ≤ 0x14) ∨ (0x40 ≤ k ∧ k < 0x60)) : Claims.kReach dev k := by
  rcases h with h | h | h
  · exact .inl h
  · exact .inr (.inl h)
  · exact .inr (.inr (.inl h))
theorem reachK (s : State) (k : Nat) (hm : s.core.st.kstatus.getLsbD 0 = true) (h : (0x100 ≤ k ∧ k ≤ 0x106) ∨ (0x110 ≤ k ∧ k ≤ 0x112)) : Claims.kReach s k := .inr (.inr (.inr ⟨hm, h⟩))
theorem witness_SidAndKrd :
    dev.myGang = some gang1 ∧ Claims.kReach dev 1 ∧ Claims.kReach dev 0x5F ∧ Claims.kReach devK 0x100 ∧ Claims.kReach devK 0x112 ∧ Claims.struck dev 1 = false ∧ Claims.struck devK 0x100 = false ∧ Claims.struck devK 0x112 = false
    ∧ Claims.kReach (devBad 1 [0x112]) 0x112 ∧ Claims.struck (devBad 1 [0x112]) 0x112 = true ∧ Claims.struck (devBad 0 [0xC]) 0xC = true
    ∧ (∀ p ∈ Claims.sidTable dev gang1, ∀ k ∈ p.2.2, Claims.struck dev k = false) ∧ (∃ p ∈ Claims.sidTable (devBad 0 [0xC]) gang1, ∃ k ∈ p.2.2, Claims.struck (devBad 0 [0xC]) k = true) := by
  refine ⟨rfl, reach _ (by decide), reach _ (by decide), reachK _ _ rfl (by decide), reachK _ _ rfl (by decide), by decide, by decide, by decide, reachK _ _ rfl (by decide), by decide, by decide, by decide +kernel, by decide +kernel⟩
theorem witness_KregisterWrites :
    Claims.kReach dev 1 ∧ Claims.kReach devK 0x106 ∧ Claims.kReach dev 0xF ∧ Claims.kReach dev 4 ∧ Claims.Clean dev [5] ∧ Claims.kReach dev 0x14 ∧ Claims.kReach devK 0x112 ∧ Claims.kReach dev 0x13 ∧ Claims.kReach dev 0x5F ∧ gang1 ∈ devK.gangs ∧ Claims.Clean dev [5, 6, 7, 8] := by
  refine ⟨reach _ (by decide), reachK _ _ rfl (by decide), reach _ (by decide), reach _ (by decide), by unfold Claims.Clean; decide +kernel, reach _ (by decide), reachK _ _ rfl (by decide), reach _ (by decide), reach _ (by decide), List.Mem.head _, by unfold Claims.Clean; decide +kernel⟩

/-- dev with its store buffer holding e, and with its first granules poisoned. -/
def devBuf (e : SbEntry) : State := { dev with core := { dev.core with sb := [e] } }
def devPadPsn : State := { dev with core := { dev.core with padPsn := [4] } }
/-- A store of 8 bytes at offset 256 of the own scratchpad, one of 4, and one of memory. -/
def buf8 : SbEntry := ⟨1, 0, 2, 0, 256, 0, 8, 0x1122334455667788, false, 3⟩
def buf4 : SbEntry := { buf8 with n := 4 }
def bufMem : SbEntry := { buf8 with kind := 0, addr := 0x10008 }
theorem calm_buf (s : State) (h : Claims.Calm s) (l : List SbEntry) : Claims.Calm { s with core := { s.core with sb := l } } := { h with }
theorem witness_LoadsRead_pad :
    Claims.IsLoad dev (.ldh 3 6 1) 3 (Claims.ea dev 6 1 2) [6] 2 true ∧ Claims.IsLoad dev (.ldx 3 6 0 0 3) 3 (dev.reg 6 + BitVec.ofNat 64 ((dev.reg 0).toNat * 2 ^ (0 : BitVec 2).toNat)) [6, 0] 8 false
    ∧ Claims.Calm dev ∧ Claims.Calm devPadPsn ∧ Claims.Calm (devBuf bufMem) ∧ Claims.Clean dev [6, 0] ∧ Claims.ownPad dev (Claims.ea dev 6 1 2) 258 ∧ 258 % 2 = 0 ∧ dev.core.padPsnIn (dev.core.st.allotBase + 258) 2 = false ∧ devPadPsn.core.padPsnIn 258 2 = true
    ∧ ¬ Claims.sameMem (devBuf bufMem) bufMem 2 0 := by
  refine ⟨.base 3 6 1 (.ldh, 2, true) (by simp [Claims.loadTable]), .idx 3 6 0 0 (3, 8, false) (by simp [Claims.ldxTable]), quiet_dev.toCalm, { quiet_dev.toCalm with }, calm_buf _ quiet_dev.toCalm _, ?_⟩
  unfold Claims.Clean Claims.ownPad Claims.sameMem; decide +kernel
theorem witness_LoadsRead_memory :
    Claims.IsLoad devMem (.ldd 3 9 1) 3 (Claims.ea devMem 9 1 8) [9] 8 false ∧ Claims.Calm devMem ∧ Claims.Clean devMem [9] ∧ (Claims.ea devMem 9 1 8).toNat % 8 = 0
    ∧ devMem.xlate (Claims.ea devMem 9 1 8) 8 = .at (.slice 0x10008 0) page0 ∧ page0.r = true ∧ page0.u = true ∧ devMem.l1Hit 0x10008 0 = none ∧ (devMem.peek 0x10008 0 8).2 = none ∧ (({ devMem with memPsn := [0x400] }).peek 0x10008 0 8).2 = some 0x10000
    ∧ ({ devMem with core := { devMem.core with l1 := [⟨0x400, 5⟩] } }).l1Hit 0x10008 0 = some ⟨0x400, 5⟩ := by
  refine ⟨.base 3 9 1 (.ldd, 8, false) (by simp [Claims.loadTable]), quiet_devMem.toCalm, ?_⟩
  unfold Claims.Clean; decide +kernel
theorem witness_LoadsRead_forward :
    Claims.Looks (devBuf buf8) (Claims.ea (devBuf buf8) 6 1 2) 2 windowXlat 2 0 258 0 ∧ Claims.Looks devMem (Claims.ea devMem 9 1 8) 8 page0 0 0 0x10008 0 ∧ Claims.Calm (devBuf buf8) ∧ Claims.Calm (devBuf buf4)
    ∧ Claims.sameMem (devBuf buf8) buf8 2 0 ∧ Claims.overlaps buf8 258 2 ∧ Claims.coversAll buf8 258 0 2 ∧ Claims.overlaps buf4 256 8 ∧ ¬ Claims.coversAll buf4 256 0 8
    ∧ ¬ Claims.overlaps buf4 260 4 ∧ Claims.ownWord (devBuf buf4) buf4 260 := by
  refine ⟨.pad 258 (by unfold Claims.ownPad; decide +kernel), .mem 0x10008 0 page0 (by decide +kernel) rfl (.inr rfl), calm_buf _ quiet_dev.toCalm _, calm_buf _ quiet_dev.toCalm _, ?_⟩
  unfold Claims.sameMem Claims.overlaps Claims.coversAll Claims.ownWord; decide +kernel
theorem witness_StoresEnterBuffer :
    Claims.IsStore devMem (.std 5 9 1) 5 (Claims.ea devMem 9 1 8) [9, 5] 8 ∧ Claims.IsStore devMem (.stx 5 6 0 0 1) 5 (devMem.reg 6 + BitVec.ofNat 64 ((devMem.reg 0).toNat * 2 ^ (0 : BitVec 2).toNat)) [6, 0, 5] (2 ^ (1 : BitVec 2).toNat)
    ∧ Claims.Clean devMem [9, 5] ∧ Claims.Clean devMem [6, 0, 5] ∧ devMem.core.sb.length < 16 ∧ devMem.core.locks = [] ∧ devMem.core.st.queue = [] ∧ devMem.core.st.out = [] ∧ (∀ k : Fin 8, devMem.core.st.watch[k].ctl.getLsbD 0 = false)
    ∧ Claims.ownPad devMem (devMem.reg 6) 256 ∧ page0 ≠ windowXlat ∧ page0 ∈ devMem.core.tlb ∧ devMem.xlate (Claims.ea devMem 9 1 8) 8 = .at (.slice 0x10008 0) page0 := by
  refine ⟨.base 5 9 1 (.std, 8) (by simp [Claims.storeTable]), .idx 5 6 0 0 1, ?_⟩
  unfold Claims.Clean Claims.ownPad; decide +kernel
theorem mem9 (s : State) (h : s.core.tlb = [page0] ∧ s.hbmQ = 4 ∧ s.meEn = false ∧ s.reg 9 = 0x10000 ∧ s.xlate 0x10000 8 = .at (.slice 0x10000 0) page0) (rd wr : Bool) : Claims.memAt s (s.reg 9) 8 rd wr 0x10000 :=
  memAt_of _ _ _ _ _ _ (by rw [h.1, h.2.1, h.2.2.1, h.2.2.2.1, h.2.2.2.2]; decide)
theorem witness_AmosUpdate :
    Claims.Quiet dev ∧ Claims.Quiet devMem ∧ Claims.memAt devMem (devMem.reg 9) 8 true true 0x10000 ∧ Claims.memAt { devMem with memPsn := [0x400] } (devMem.reg 9) 8 true true 0x10000 ∧ Claims.soundAt devMem 0x10000 ∧ ¬ Claims.soundAt { devMem with memPsn := [0x400] } 0x10000
    ∧ Claims.Clean dev [6, 5, 3] ∧ Claims.Clean devMem [9, 5, 3] ∧ Claims.ownPad dev (dev.reg 6) 256 ∧ 256 % 8 = 0 ∧ dev.core.padPsnIn (dev.core.st.allotBase + 256) 8 = false ∧ dev.core.st.allotBase % 8 = 0 ∧ .lineBuffer ∉ dev.errors := by
  refine ⟨quiet_dev, quiet_devMem, mem9 _ (by decide +kernel) _ _, mem9 { devMem with memPsn := [0x400] } (by decide +kernel) _ _, ?_⟩
  unfold Claims.Clean Claims.ownPad Claims.soundAt; decide +kernel
theorem witness_FenceCompletes : Claims.Quiet dev ∧ dev.core.st.notes &&& 3 = 0 ∧ (devSt (fun t => { t with notes := 2 })).core.st.notes &&& 3 ≠ 0 := ⟨quiet_dev, by decide +kernel⟩

theorem ready0 (k : Word) (h : k.getLsbD 63 = false) : Claims.VReady (devV k) [0] :=
  ⟨h, sound45 _ rfl, fun _ hm => .inl (List.mem_singleton.1 hm), fun _ hm => .inl (List.mem_singleton.1 hm)⟩
theorem m1set : ((dev.core.st.masks.set 1 6)[(1 : BitVec 3).toNat]).getLsbD 1 = true := by decide +kernel
theorem m1ok : dev.core.st.badMasks.getLsbD (1 : BitVec 3).toNat = false := by decide +kernel
theorem ready1 (k : Word) (h : k.getLsbD 63 = false) : Claims.VReady (devV k) [1] :=
  ⟨h, sound45 _ rfl, fun _ hm => by cases List.mem_singleton.1 hm; exact .inr m1ok, fun _ hm => by cases List.mem_singleton.1 hm; exact .inr ⟨1, (by decide : 1 < 4), m1set⟩⟩
/-- The same as something that a computation decides. -/
def readyB (s : State) (ms : List (BitVec 3)) : Bool :=
  !s.core.st.kvtype.getLsbD 63 && s.core.st.badK == [] && ms.all (fun m => m == 0 || (!s.core.st.badMasks.getLsbD m.toNat && (List.range s.core.st.vl).any (fun i => (s.core.st.masks[m.toNat]).getLsbD i)))
theorem ready_of (s : State) (ms : List (BitVec 3)) (h : readyB s ms = true) : Claims.VReady s ms := by
  simp only [readyB, Bool.and_eq_true, Bool.not_eq_true', beq_iff_eq, List.all_eq_true, Bool.or_eq_true, List.any_eq_true, List.mem_range] at h
  obtain ⟨⟨h1, h2⟩, h3⟩ := h
  exact ⟨h1, sound45 _ h2, fun m hm => (h3 m hm).imp_right And.left, fun m hm => (h3 m hm).imp_right And.right⟩
theorem mready (k : Word) (h : k.getLsbD 63 = false) : Claims.MReady (devV k) 0 0 :=
  ⟨h, sound45 _ rfl, fun _ hm => .inl (by simpa using hm), fun _ hm => .inl (by simpa using hm)⟩
theorem quiet_devV (k : Word) : Claims.Quiet (devV k) := ⟨{ quiet_dev.toCalm with }, rfl⟩

theorem witness_VectorConfiguration :
    Claims.wellFormedType 0x20013 = False ∧ dev.core.reduceTo = none ∧ Claims.Clean dev [4, 5] ∧ Claims.wellFormedType 0x13 ∧ ¬ Claims.wellFormedType (1 <<< 62) ∧ ¬ Claims.wellFormedType 0x12 ∧ Claims.Clean dev [5] := by
  unfold Claims.Clean Claims.wellFormedType; simp; decide +kernel
theorem witness_VectorStateWrites :
    (∀ w ∈ [VWrite.mk 0 8 5 false, VWrite.mk 8 4 6 true, VWrite.mk 4095 1 7 false], 0 < w.n ∧ w.n ≤ 8 ∧ w.off % w.n = 0 ∧ 8 % w.n = 0 ∧ w.off + w.n ≤ 4096)
    ∧ [VWrite.mk 0 8 5 false, VWrite.mk 8 4 6 true, VWrite.mk 4095 1 7 false].Pairwise (fun x y => x.off + x.n ≤ y.off ∨ y.off + y.n ≤ x.off)
    ∧ (∀ b ∈ [(0, true), (4095, false)], b.1 < 4096) ∧ ([(0, true), (4095, false)].map (·.1)).Nodup
    ∧ (∀ w ∈ [CellWrite.mk 0 0 5 false, CellWrite.mk 31 31 6 true], w.i < 32 ∧ w.j < 32)
    ∧ [CellWrite.mk 0 0 5 false, CellWrite.mk 31 31 6 true].Pairwise (fun x y => (x.i, x.j) ≠ (y.i, y.j)) := by decide +kernel
theorem witness_VectorIntegerArithmetic : Claims.VReady (devV 3) [0] ∧ Claims.VReady (devV 3) [1] ∧ (3#64).toNat % 8 ≤ 3 ∧ Claims.etInts (devV 3) ∧ Claims.Clean (devV 3) [5] := by
  refine ⟨ready0 3 rfl, ready1 3 rfl, ?_⟩
  unfold Claims.etInts Claims.Clean; decide +kernel
theorem witness_VectorFpResults : Claims.VReady (devV 0x13) [1] ∧ fmtOf (devV 0x13).et = some fp64 ∧ Claims.etFps (devV 0x13) ∧ Claims.Clean (devV 0x13) [5] := by
  refine ⟨ready1 _ rfl, ?_⟩
  unfold Claims.etFps Claims.Clean; decide +kernel
/-- Element 2 of v4 poisoned; m2 struck by an error. -/
def devPsn (k : Word) : State := Claims.withSt (devV k) { (devV k).core.st with vpsn := Vector.replicate 32 4, badMasks := 4 }
theorem witness_ComparesAndMasks :
    Claims.VReady (devV 3) [1] ∧ Claims.VReady (devV 0x13) [0] ∧ Claims.VReady (devPsn 3) [1] ∧ Claims.VReady (devPsn 0x13) [1] ∧ Claims.etInts (devV 3) ∧ (5 : BitVec 3).toNat ≤ 5 ∧ Claims.Clean (devV 3) [5] ∧ Claims.Clean (devPsn 3) [5]
    ∧ ((Claims.els (devV 3) 1).all (fun i => !(devV 3).elPsn 4 8 i)) = true ∧ (Claims.els (devPsn 3) 1).find? (fun i => (devPsn 3).elPsn 4 8 i) = some 2
    ∧ fmtOf (devV 0x13).et = some fp64 ∧ Claims.etFps (devPsn 0x13) ∧ (Claims.els (devPsn 0x13) 1).find? (fun i => (devPsn 0x13).elPsn 4 8 i) = some 2
    ∧ (devV 3).core.st.badMasks.getLsbD 2 = false ∧ (devPsn 3).core.st.badMasks.getLsbD 1 = false ∧ (devPsn 3).core.st.badMasks.getLsbD 2 = true
    ∧ (∀ i ∈ Claims.act (devV 3) 1, (devV 3).elPsn 4 8 (i / 64) = false) ∧ (Claims.act (Claims.withSt (devV 3) { (devV 3).core.st with vpsn := Vector.replicate 32 1 }) 1).find? (fun i => (Claims.withSt (devV 3) { (devV 3).core.st with vpsn := Vector.replicate 32 1 }).elPsn 4 8 (i / 64)) = some 1 := by
  refine ⟨ready1 _ rfl, ready0 _ rfl, ready_of _ _ (by decide +kernel), ready_of _ _ (by decide +kernel), ?_⟩
  unfold Claims.etInts Claims.etFps Claims.Clean; decide +kernel
theorem witness_PermutationsAndReductions :
    Claims.VReady (devV 3) [0] ∧ Claims.Clean (devV 3) [4, 19] ∧ (3 : BitVec 5) ≠ 4 ∧ (3 : BitVec 5) ≠ 19 ∧ (∀ i ∈ Claims.act (devV 3) 0, (devV 3).elPsn 19 8 i = false)
    ∧ ((devV 3).reg 19).toNat ∈ Claims.act (devV 3) 0 ∧ ((devV 3).reg 4).toNat ∉ Claims.act (devV 3) 0 ∧ Claims.etInts (devV 3) ∧ (7 : BitVec 4).toNat ≤ 7 ∧ Claims.act (devV 3) 0 ≠ []
    ∧ Claims.VReady (devV 0x13) [1] ∧ Claims.etFps (devV 0x13) ∧ fmtOf (devV 0x13).et = some fp64 ∧ (2 : BitVec 4).toNat ≤ 2 ∧ 1 ≤ (devV 0x13).core.st.vl ∧ (devV 0x13).core.st.vl ≤ 2 ^ 2 ∧ (∀ k, (devV 0x13).core.st.vl ≤ 2 ^ k → 2 ≤ k)
    ∧ Claims.act (devV 3) 2 = [] ∧ (devV 3).core.st.badMasks.getLsbD 2 = false ∧ Claims.kSound (devV 3) [4, 5] := by
  refine ⟨ready0 _ rfl, ?_⟩
  have h : ∀ k, (devV 0x13).core.st.vl ≤ 2 ^ k → 2 ≤ k := fun k hk => by
    rcases k with _ | _ | k
    · exact absurd hk (by decide +kernel)
    · exact absurd hk (by decide +kernel)
    · omega
  unfold Claims.Clean Claims.etInts Claims.etFps Claims.kSound
  refine ⟨?_, ?_, ?_, ?_, ?_, ?_, ?_, ?_, ?_, ready1 _ rfl, ?_, ?_, ?_, ?_, ?_, h, ?_⟩ <;> decide +kernel
/-- FP32 elements, with stochastic rounding, and KSR struck by an error. -/
def devSr : State := Claims.withSt (devV 0x1001A) { (devV 0x1001A).core.st with badK := [2] }
theorem witness_VfcvtCompletes :
    Claims.VReady (devV 0x13) [1] ∧ Claims.VReady devSr [1] ∧ (3 : BitVec 4).toNat ≤ 8 ∧ (devV 0x13).core.st.kvtype.getLsbD 17 = false ∧ ¬ ((3 : BitVec 4).toNat ≤ 1 ∧ (devV 0x13).et ≤ 1)
    ∧ 4 + cvtRegs 3 (devV 0x13).et (devV 0x13).w ≤ 32 ∧ fmtOf 2 = some fp64 ∧ cvtRegs 2 (devV 0x13).et (devV 0x13).w ≤ 28 ∧ fp64.width = 8 * (devV 0x13).w
    ∧ devSr.core.st.kvtype.getLsbD 16 = true ∧ (∃ F ∈ fmtOf 2, ∃ G ∈ fmtOf devSr.et, G.width < F.width) ∧ ¬ Claims.kSound devSr [2] ∧ cvtRegs 2 devSr.et devSr.w ≤ 28 := by
  refine ⟨ready1 _ rfl, ⟨rfl, by unfold Claims.kSound; decide +kernel, (ready1 0x1001A rfl).sound, (ready1 0x1001A rfl).some_⟩, ?_⟩
  unfold Claims.kSound; decide +kernel

/-- The offsets that consecutive elements from s6 have in the scratchpad. -/
def off6 (i : Nat) : Nat := 256 + 8 * i
theorem inPad6 : Claims.inPad (devV 3) (Claims.unitVa (devV 3) 6) off6 8 (Claims.els (devV 3) 1) := by unfold Claims.inPad Claims.ownPad; decide +kernel
/-- 64-bit elements from s9 in memory, their places, and v9 holding 0, 8, 16, … -/
def devVMem : State := Claims.withSt devMem { devMem.core.st with
  regs := devMem.core.st.regs.set 11 32, v := devMem.core.st.v.set 9 (BitVec.ofNat 32768 (0x18 * 2 ^ 192 + 0x10 * 2 ^ 128 + 8 * 2 ^ 64)) }
def pa9 (i : Nat) : Nat := 0x10000 + 8 * i
theorem quiet_devVMem : Claims.Quiet devVMem := ⟨{ quiet_devMem.toCalm with }, rfl⟩
theorem inMem9 (va : Nat → Word) (rd wr : Bool) (h : ∀ i ∈ Claims.els devVMem 0, va i = devVMem.reg 9 + BitVec.ofNat 64 (8 * i)) : Claims.inMem devVMem va pa9 devVMem.w (Claims.els devVMem 0) rd wr := by
  have k : ∀ i ∈ Claims.els devVMem 0, let u := devVMem.reg 9 + BitVec.ofNat 64 (8 * i)
      devVMem.xlate u devVMem.w = .at (.slice (pa9 i) 0) page0 ∧ page0 ∈ devVMem.core.tlb ∧ u.toNat % devVMem.w = 0 ∧ 0 < devVMem.w ∧ pa9 i % 64 + devVMem.w ≤ 64 ∧ devVMem.hbmQ ≤ 4 ∧ pa9 i + devVMem.w ≤ devVMem.hbmQ * 192 * 2 ^ 30 ∧ devVMem.meEn = false := by
    decide +kernel
  intro i hi
  rw [h i hi]
  exact memAt_of _ _ _ _ _ _ (k i hi)
theorem ready_devVMem : Claims.VReady devVMem [0] := ready_of _ _ (by decide +kernel)
theorem witness_VectorLoadsRead_memory : Claims.IsVLoad devVMem 2 0 (.vldff 2 9 0 0) (Claims.unitVa devVMem 9) ∧ Claims.VReady devVMem [0] ∧ Claims.Quiet devVMem ∧ Claims.inMem devVMem (Claims.unitVa devVMem 9) pa9 devVMem.w (Claims.els devVMem 0) true false
    ∧ devVMem.core.st.answers = [] ∧ devVMem.core.st.prog = none :=
  ⟨.vldff 9 0 (by unfold Claims.Clean; decide +kernel), ready_devVMem, quiet_devVMem, inMem9 _ _ _ (by decide +kernel), by decide +kernel⟩
theorem witness_VectorStoresWrite_memory : Claims.IsVStore devVMem 2 0 (.vstxo 2 9 9 0 0) (Claims.indexVa devVMem 9 9) ∧ Claims.inMem devVMem (Claims.indexVa devVMem 9 9) pa9 devVMem.w (Claims.els devVMem 0) false true
    ∧ devVMem.startGroup = 0 ∧ devVMem.core.st.kvtype.toNat % 8 ≤ 3 ∧ ((Claims.els devVMem 0).map pa9).Nodup ∧ (∀ i ∈ Claims.els devVMem 0, devVMem.elPsn 2 devVMem.w i = false ∧ devVMem.holders (pa9 i / 64) = []) :=
  ⟨.vstxo 9 9 0 (by unfold Claims.Clean; decide +kernel) (by unfold Claims.idxReady; decide +kernel), inMem9 _ _ _ (by decide +kernel), by decide +kernel⟩
theorem witness_ScatterAccumulates_memory : Claims.VReady devVMem [0] ∧ Claims.Quiet devVMem ∧ Claims.inMem devVMem (Claims.indexVa devVMem 9 9) pa9 devVMem.w (Claims.els devVMem 0) false true ∧ Claims.idxReady devVMem 9 none 0 ∧ Claims.Clean devVMem [9]
    ∧ (devVMem.et ≤ 1 ∧ devVMem.core.st.kvtype.toNat % 8 = 3) ∧ ((Claims.els devVMem 0).map pa9).Nodup ∧ (∀ i ∈ Claims.els devVMem 0, devVMem.elPsn 2 devVMem.w i = false ∧ Claims.soundAt devVMem (pa9 i))
    ∧ (devV 0x13).et = 2 ∧ (devV 0x13).core.st.kvtype.toNat % 8 = 3 ∧ (devV 0x1A).et = 3 ∧ (devV 0x1A).core.st.kvtype.toNat % 8 = 2 := by
  refine ⟨ready_devVMem, quiet_devVMem, inMem9 _ _ _ (by decide +kernel), ?_⟩
  unfold Claims.idxReady Claims.Clean Claims.soundAt; decide +kernel
theorem witness_TileLoadsAndStores_memory : Claims.MReady devVMem 0 0 ∧ (∀ q ∈ Claims.cellsOn devVMem 0 0, Claims.memAt devVMem (Claims.cellVa devVMem 0 9 11 q) 4 true true (0x10000 + 32 * q.1 + 4 * q.2) ∧ devVMem.cellPsn 1 q.1 q.2 = false)
    ∧ ((Claims.cellsOn devVMem 0 0).map (fun q => 0x10000 + 32 * q.1 + 4 * q.2)).Nodup ∧ Claims.Clean devVMem [9, 11] := by
  have k : ∀ q ∈ Claims.cellsOn devVMem 0 0, (let u := Claims.cellVa devVMem 0 9 11 q
      let pa := 0x10000 + 32 * q.1 + 4 * q.2
      devVMem.xlate u 4 = .at (.slice pa 0) page0 ∧ page0 ∈ devVMem.core.tlb ∧ u.toNat % 4 = 0 ∧ 0 < 4 ∧ pa % 64 + 4 ≤ 64 ∧ devVMem.hbmQ ≤ 4 ∧ pa + 4 ≤ devVMem.hbmQ * 192 * 2 ^ 30 ∧ devVMem.meEn = false) ∧ devVMem.cellPsn 1 q.1 q.2 = false := by
    decide +kernel
  exact ⟨ready_of _ _ (by decide +kernel), fun q hq => ⟨memAt_of _ _ _ _ _ _ (k q hq).1, (k q hq).2⟩, by unfold Claims.Clean; decide +kernel⟩
theorem witness_VectorLoadsRead :
    Claims.IsVLoad (devV 3) 2 1 (.vld 2 6 1 0) (Claims.unitVa (devV 3) 6) ∧ Claims.VReady (devV 3) [1] ∧ Claims.Quiet (devV 3)
    ∧ Claims.inPad (devV 3) (Claims.unitVa (devV 3) 6) off6 (devV 3).w (Claims.els (devV 3) 1) ∧ (devV 3).core.st.answers = [] ∧ (devV 3).core.st.prog = none
    ∧ Claims.idxReady (devV 3) 9 (some 2) 1 ∧ Claims.inPad (devV 3) (Claims.indexVa (devV 3) 6 9) (fun _ => 256) 8 (Claims.els (devV 3) 1) := by
  refine ⟨.vld 6 0 (by unfold Claims.Clean; decide +kernel), ready1 _ rfl, quiet_devV 3, inPad6, ?_⟩
  unfold Claims.idxReady Claims.inPad Claims.ownPad; decide +kernel
theorem witness_VectorStoresWrite :
    Claims.IsVStore (devV 3) 2 1 (.vst 2 6 1 0) (Claims.unitVa (devV 3) 6) ∧ Claims.VReady (devV 3) [1] ∧ Claims.Quiet (devV 3) ∧ Claims.inPad (devV 3) (Claims.unitVa (devV 3) 6) off6 (devV 3).w (Claims.els (devV 3) 1)
    ∧ (devV 3).core.st.answers = [] ∧ (devV 3).core.st.prog = none ∧ (devV 3).startGroup = 0 ∧ (devV 3).core.st.kvtype.toNat % 8 ≤ 3 ∧ (devV 3).core.st.allotBase % 64 = 0 ∧ ((Claims.els (devV 3) 1).map off6).Nodup :=
  ⟨.vst 6 0 (by unfold Claims.Clean; decide +kernel), ready1 _ rfl, quiet_devV 3, inPad6, by decide +kernel⟩
/-- The same with index register v9 holding 0, 8, 16, … -/
def devX : State := Claims.withSt (devV 3) { (devV 3).core.st with v := (devV 3).core.st.v.set 9 (BitVec.ofNat 32768 (0x18 * 2 ^ 192 + 0x10 * 2 ^ 128 + 8 * 2 ^ 64)) }
theorem ready_devX : Claims.VReady devX [1] := ready_of _ _ (by decide +kernel)
theorem quiet_devX : Claims.Quiet devX := ⟨by constructor <;> decide +kernel, rfl⟩
theorem witness_ScatterAccumulates :
    Claims.VReady devX [1] ∧ Claims.Quiet devX ∧ Claims.Clean devX [6] ∧ devX.core.st.answers = [] ∧ devX.core.st.prog = none ∧ Claims.idxReady devX 9 none 1 ∧ (2 : BitVec 2).toNat ≤ 2 ∧ devX.et ≤ 1 ∧ devX.core.st.kvtype.toNat % 8 = 3
    ∧ devX.core.st.allotBase % 64 = 0 ∧ Claims.inPad devX (Claims.indexVa devX 6 9) off6 devX.w (Claims.els devX 1) ∧ ((Claims.els devX 1).map off6).Nodup
    ∧ (∀ i ∈ Claims.els devX 1, devX.elPsn 2 devX.w i = false ∧ devX.core.padPsnIn (devX.core.st.allotBase + off6 i) devX.w = false) := by
  refine ⟨ready_devX, quiet_devX, ?_⟩
  unfold Claims.Clean Claims.idxReady Claims.inPad Claims.ownPad; decide +kernel
/-- Peer addresses of rank 0, and of a rank that the gang does not have. -/
def devP (rank : Nat) : State := Claims.withSt devX { devX.core.st with regs := devX.core.st.regs.set 12 (BitVec.ofNat 64 (5 * 2 ^ 48 + rank * 2 ^ 32 + 256)) }
theorem witness_PeerFormsFault :
    Claims.VReady (devP 0) [1] ∧ Claims.Quiet (devP 0) ∧ Claims.Clean (devP 0) [12] ∧ Claims.idxReady (devP 0) 9 (some 3) 1 ∧ (devP 0).idxOk 9 none = true ∧ (devP 0).core.st.kvtype.toNat % 8 ≤ 3
    ∧ (∀ i ∈ Claims.els (devP 9) 1, (devP 9).peerAt ((devP 9).reg 12 + (devP 9).idxVal 9 i) 8 8 = .fails)
    ∧ (∀ i ∈ Claims.els (devP 0) 1, (devP 0).peerAt ((devP 0).reg 12 + (devP 0).idxVal 9 i) 8 8 = .at (.peer 1 0 0 (off6 i)) ∧ off6 i % 8 = 0) ∧ ((Claims.els (devP 0) 1).map off6).Nodup := by
  refine ⟨ready_of _ _ (by decide +kernel), ⟨by constructor <;> decide +kernel, rfl⟩, ?_⟩
  unfold Claims.Clean Claims.idxReady; decide +kernel
theorem witness_OuterProducts :
    Claims.MReady (devV 0) 0 0 ∧ Claims.MReady (devV 0x13) 0 0 ∧ (devV 0).et ≤ 1 ∧ (devV 0).core.st.kvtype.toNat % 8 = 0 ∧ (devV 0).core.st.kvtype.getLsbD 17 = false ∧ 2 ≤ (devV 0x13).et ∧ (devV 0x13).core.st.kvtype.getLsbD 17 = false :=
  ⟨mready _ rfl, mready _ rfl, by decide +kernel⟩
theorem witness_MatrixMoves : Claims.MReady (devV 3) 0 0 ∧ Claims.Clean (devV 3) [5] ∧ (devV 3).et ≤ 1 ∧ 2 ≤ (devV 0x13).et ∧ Claims.MReady (devV 0x13) 0 0 :=
  ⟨mready _ rfl, by unfold Claims.Clean; decide +kernel, by decide +kernel, by decide +kernel, mready _ rfl⟩
/-- s6 is a tile's address and s11 a row's length, 32 bytes: eight cells of four. -/
def devT : State := Claims.withSt (devV 3) { (devV 3).core.st with regs := (devV 3).core.st.regs.set 11 32 }
theorem witness_TileLoadsAndStores :
    Claims.MReady devT 0 0 ∧ Claims.Quiet devT ∧ Claims.Clean devT [6, 11] ∧ devT.core.st.answers = [] ∧ devT.core.st.prog = none ∧ devT.core.st.allotBase % 64 = 0
    ∧ (∀ q ∈ Claims.cellsOn devT 0 0, Claims.ownPad devT (Claims.cellVa devT 0 6 11 q) (256 + 32 * q.1 + 4 * q.2) ∧ (256 + 32 * q.1 + 4 * q.2) % 4 = 0)
    ∧ ((Claims.cellsOn devT 0 0).map (fun q => 256 + 32 * q.1 + 4 * q.2)).Nodup := by
  refine ⟨ready_of _ _ (by decide +kernel), ⟨{ quiet_dev.toCalm with }, rfl⟩, ?_⟩
  unfold Claims.Clean Claims.ownPad; decide +kernel

theorem ownTile6 (s : State) (hl : s.core.locks = []) (hp : Claims.ownPad s (s.reg 6) 256) (hb : s.core.st.allotBase = 0) : Claims.ownTile s 6 1 := ⟨hl, 256, hp, rfl, by rw [hb]⟩
theorem pad6 : Claims.ownPad dev (dev.reg 6) 256 := by unfold Claims.ownPad; decide +kernel
/-- Tile 1 full; empty and bound; armed for three contributions. -/
def devFull : State := devTiles [{ tile0 1 with full := true }]
def devArmed : State := devTiles [{ tile0 1 with armed := true, cnt0 := 3, cnt := 2, op := 1 }]
theorem witness_TileTags :
    Claims.ownTile devFull 6 1 ∧ Claims.ownTile devArmed 6 1 ∧ Claims.Clean devFull [6, 5] ∧ Claims.storesSeen devFull ∧ Claims.kSound devFull [3] ∧ (devFull.core.tile 1).cnt < 32 ∧ (devFull.core.tile 1).op < 8 ∧ devFull.core.overrun.length < 32
    ∧ (devFull.core.tile 1).full = true ∧ (devFull.core.tile 1).armed = false ∧ (dev.core.tile 1).full = false ∧ Claims.maySuspend dev.core.st ∧ Claims.hasRoom dev dev.core.st.klm
    ∧ ¬ Claims.maySuspend devK.core.st ∧ (devArmed.core.tile 1).armed = true ∧ (devArmed.reg 4).getLsbD 1 = false ∧ (devFull.reg 5).getLsbD 2 = true ∧ (devFull.reg 5).extractLsb' 32 32 = 0
    ∧ devFull.core.overrun = [] ∧ (∀ u ∈ devFull.core.st :: devFull.core.rest, u.wait ≠ .tile 1) ∧ ((dev.reg 4).extractLsb' 0 5 = 0) ∧ 1 ≤ ((dev.reg 5).extractLsb' 0 5).toNat ∧ ((dev.reg 5).extractLsb' 0 5).toNat ≤ 16
    ∧ ((dev.reg 5).extractLsb' 5 3).toNat ≤ 3 ∧ dev.core.tiles.countP (fun y => y.armed) < 8 := by
  refine ⟨ownTile6 _ rfl pad6 rfl, ownTile6 _ rfl pad6 rfl, ?_⟩
  unfold Claims.Clean Claims.storesSeen Claims.noAcquire Claims.kSound Claims.maySuspend Claims.hasRoom; decide +kernel
/-- Tile 1 full and tile 2 empty, under a VL of two tiles; and tile 1 empty. -/
def devTldf (l : List Tile) : State := Claims.withSt (devTiles l) { dev.core.st with vl := 64 }
theorem legal0 : strand0.kvtype.getLsbD 63 = false := by decide +kernel
theorem readyT (l : List Tile) : Claims.VReady (devTldf l) [0] := ⟨legal0, sound45 _ rfl, fun _ hm => .inl (List.mem_singleton.1 hm), fun _ hm => .inl (List.mem_singleton.1 hm)⟩
theorem witness_TldfLoadsFullTiles :
    let s := devTldf [{ tile0 1 with full := true }]
    Claims.Quiet s ∧ Claims.VReady s [0] ∧ Claims.ownTile s 6 1 ∧ Claims.Clean s [6] ∧ Claims.kSound s [3] ∧ s.core.overrun = [] ∧ 0 < s.core.st.vl
    ∧ 0 < min (Claims.tilesOf s) ((s.core.st.allotSize - (256 * 1 - s.core.st.allotBase)) / 256) ∧ 1 ≤ min (Claims.tilesOf s) ((s.core.st.allotSize - (256 * 1 - s.core.st.allotBase)) / 256)
    ∧ ((s.core.tile 1).full && !(s.core.tile 1).armed) = true ∧ ((s.core.tile 2).full && !(s.core.tile 2).armed) = false
    ∧ (((devTldf []).core.tile 1).full && !((devTldf []).core.tile 1).armed) = false ∧ Claims.maySuspend (devTldf []).core.st ∧ Claims.hasRoom (devTldf []) (devTldf []).core.st.klm := by
  refine ⟨⟨{ quiet_dev.toCalm with }, rfl⟩, readyT _, ownTile6 _ rfl pad6 rfl, ?_⟩
  unfold Claims.Clean Claims.kSound Claims.maySuspend Claims.hasRoom; decide +kernel
/-- Two ranks on core 0; s12 is the peer address of tile 1 of rank 1, and of a rank that there is not. -/
def devPeer (rank : Nat) : State := Claims.withSt dev2 { dev2.core.st with vl := 32, regs := dev2.core.st.regs.set 12 (BitVec.ofNat 64 (5 * 2 ^ 48 + rank * 2 ^ 32 + 256)) }
/-- The same without a second strand. -/
def devAlone : State := { devPeer 9 with core := { (devPeer 9).core with rest := [] } }
theorem witness_TileStoresSend :
    Claims.VReady (devPeer 1) [0] ∧ Claims.Quiet (devPeer 1) ∧ Claims.VReady devAlone [0] ∧ Claims.Quiet devAlone ∧ Claims.Clean (devPeer 1) [12, 5] ∧ Claims.tilesOf (devPeer 1) = 1 ∧ (devPeer 1).core.id < 288
    ∧ (devPeer 1).fillAt ((devPeer 1).reg 12) true = .here 1 1 256 ∧ (1 ≠ (devPeer 1).core.st.rank) ∧ (devPeer 1).fillAt ((devPeer 1).reg 12) false = .here 1 1 256
    ∧ Claims.Clean devAlone [12, 5] ∧ Claims.tilesOf devAlone = 1 ∧ devAlone.fillAt (devAlone.reg 12) true = .fails ∧ devAlone.fillAt (devAlone.reg 12) false = .fails ∧ devAlone.myGang = some gang2 ∧ gang2.coreOf 0 = some 0 ∧ devAlone.core.st.status = .running ∧ devAlone.core.rest = [] := by
  have r : ∀ s : State, s.core.st.kvtype = 3 → s.core.st.badK = [] → Claims.VReady s [0] := fun s h k => ⟨by rw [h]; rfl, sound45 _ k, fun _ hm => .inl (List.mem_singleton.1 hm), fun _ hm => .inl (List.mem_singleton.1 hm)⟩
  refine ⟨r _ rfl rfl, ⟨{ quiet_dev.toCalm with }, rfl⟩, r _ rfl rfl, ⟨{ quiet_dev.toCalm with }, rfl⟩, ?_⟩
  unfold Claims.Clean; decide +kernel
theorem handle3 : (((devTok tok3).reg 10).extractLsb' 0 32).toNat = 5 * 2 ^ 23 + 0 * 2 ^ 14 + 3 * 2 ^ 6 := by decide +kernel
theorem own3 : Claims.ownHandle (devTok tok3) 10 tok3 := by unfold Claims.ownHandle; decide +kernel
theorem unwaited (n : Nat) : (devTok tok3).core.st.wait ≠ .token 3 n := fun h => Wait.noConfusion h
theorem witness_TokensAndWaits :
    Claims.ownHandle (devTok tok3) 10 tok3 ∧ (∀ u ∈ (devTok tok3).core.st :: (devTok tok3).core.rest, ∀ n, u.wait ≠ .token 3 n) ∧ Claims.Quiet (devTok tok3) ∧ Claims.noAcquire (devTok tok3) ∧ Claims.Clean (devTok tok3) [10, 5, 0] ∧ Claims.kSound (devTok tok3) [3] ∧ Claims.tok (devTok tok3) 0 = none
    ∧ tok3.bad = false ∧ tok3.pend = 0 ∧ isHandle ((devR5 0x280008000000006 (devTok tok3)).reg 5 |>.extractLsb' 32 32) = true
    ∧ tok3.count < ((devR5 0x280008000000006 (devTok tok3)).reg 5 |>.extractLsb' 0 32).toNat
    ∧ (∀ j, j < 256 → Claims.tok { dev with core := { dev.core with tokens := (List.range 256).map (fun i => Token.fresh i 1) } } j ≠ none)
    ∧ (Claims.liveOf (devTok tok3) 0).extractLsb' 48 16 = 0 ∧ Claims.maySuspend (devTok tok3).core.st ∧ Claims.hasRoom (devTok tok3) (Claims.liveOf (devTok tok3) 0) ∧ tok3.count < ((devTok tok3).reg 5 |>.extractLsb' 0 32).toNat
    ∧ ((devR5 5 (devTok tok3)).reg 5 |>.extractLsb' 0 32).toNat ≤ tok3.count ∧ ¬ Claims.maySuspend devH.core.st := by
  refine ⟨own3, ?_, ⟨{ quiet_dev.toCalm with }, rfl⟩, ?_⟩
  · intro u hu n
    cases List.mem_singleton.1 (show u ∈ [(devTok tok3).core.st] from hu)
    exact unwaited n
  · unfold Claims.noAcquire Claims.Clean Claims.kSound Claims.maySuspend Claims.hasRoom; decide +kernel
/-- s5 = 7 bytes for group 3, and the strand enrolled in it. -/
def devGroup : State := { devR5 0x300000007 dev with groups := [⟨3, 3, [(1, 0)]⟩] }
theorem witness_CopiesEnterQueue :
    dev.core.st.vq = none ∧ isHandle ((devTok tok3).reg 10 |>.extractLsb' 0 32) = true ∧ Claims.Clean dev [5, 6, 4, 10] ∧ (dev.reg 5).extractLsb' 32 32 = 0 ∧ (devGroup.reg 5).extractLsb' 44 20 = 0
    ∧ (∃ x ∈ devGroup.groups, x.g = ((devGroup.reg 5).extractLsb' 32 12).toNat ∧ (∀ y ∈ devGroup.groups, y.g = ((devGroup.reg 5).extractLsb' 32 12).toNat → y = x) ∧ (devGroup.core.st.gang, devGroup.core.st.rank) ∈ x.members)
    ∧ (∀ x ∈ dev.groups, x.g ≠ 0) ∧ (devGroup.reg 5).extractLsb' 32 32 ≠ 0 ∧ isHandle ((dev.reg 7).extractLsb' 0 32) = false := by
  unfold Claims.Clean; decide +kernel
/-- A gang of two, its other rank still to come; s6 is the address of a LAUNCH packet in the scratchpad. -/
def devGang2 : State := { devTok tok3 with gangs := [gang2] }
def devSpawn : State := { dev with core := { dev.core with pad := writeNat [] 256 64 0x0201000000000101 } }
theorem witness_GroupAndStrandInstructions :
    Claims.ownHandle devGang2 10 tok3 ∧ Claims.Quiet devGang2 ∧ Claims.Quiet devSpawn ∧ Claims.onlyGang devSpawn gang1 ∧ Claims.Clean devGang2 [10] ∧ Claims.onlyGang devGang2 gang2 ∧ devGang2.core.st.notes = 0 ∧ devGang2.groups = [] ∧ devGang2.core.st.answers = [] ∧ devGang2.core.st.asked = false
    ∧ (devSt (fun t => { t with answers := [⟨0, 0, false, 0⟩] })).core.st.answers = [⟨0, 0, false, 0⟩]
    ∧ (∃ r, r < gang2.task.c * gang2.task.s ∧ r ≠ devGang2.core.st.rank ∧ (∀ e ∈ gang2.exited, e.rank ≠ r) ∧ r ∉ gang2.contained) ∧ gang2.arrived = []
    ∧ (devGang2.reg 10).extractLsb' 0 32 ≠ 0 ∧ tok3.pend < 0xFFFF ∧ tok3.bad = false ∧ (devGang2.reg 0).extractLsb' 0 32 = 0 ∧ Claims.maySuspend devGang2.core.st ∧ Claims.kSound devGang2 [3] ∧ Claims.hasRoom devGang2 devGang2.core.st.klm
    ∧ Claims.ownPad devSpawn (devSpawn.reg 6) 256 ∧ 256 % 64 = 0 ∧ devSpawn.core.padPsnIn 256 64 = false ∧ (3 : BitVec 5) ≠ 0 ∧ devSpawn.spawns = [] ∧ gang1.task.spawned = false ∧ readNat devSpawn.core.pad 256 8 / 2 ^ 32 % 512 = 0 := by
  refine ⟨by unfold Claims.ownHandle; decide +kernel, ⟨{ quiet_dev.toCalm with }, rfl⟩, ⟨{ quiet_dev.toCalm with }, rfl⟩, ?_⟩
  unfold Claims.onlyGang Claims.Clean Claims.maySuspend Claims.kSound Claims.hasRoom Claims.ownPad
  refine ⟨?_, ?_, ?_, ?_, ?_, ?_, ?_, ?_, ⟨1, ?_⟩, ?_⟩ <;> decide +kernel
/-- In K mode, with s11 = 3 an address space, and 65,536 in s12. -/
def devSys : State := Claims.withSt devMem { devMem.core.st with kstatus := 1, regs := (devMem.core.st.regs.set 11 3).set 12 65536 }
theorem witness_SystemMaintenance :
    Claims.Quiet devSys ∧ devSys.core.st.kstatus.getLsbD 0 = true ∧ Claims.Clean devSys [11, 9] ∧ (∀ k ∈ devSys.others, k.sb = [] ∧ k.st.queue = [] ∧ k.st.out = []) ∧ (∀ k ∈ devSys.core :: devSys.others, ∀ t ∈ k.st :: k.rest, t.prog = none) ∧ Claims.Clean devSys [9, 12] ∧ (devSys.reg 9).toNat % 65536 = 0 ∧ devSys.reg 0 = 0
    ∧ (devSys.reg 11).toNat % 65536 ≠ 0 ∧ devSys.xlate (devSys.reg 9) 65536 = .at (.slice 0x10000 0) page0 ∧ page0 ∈ devSys.core.tlb ∧ page0.capacity = false ∧ page0.w = true ∧ (devSys.reg 12).toNat = 65536
    ∧ devSys.xlate (devSys.reg 9) 1 = .at (.slice 0x10000 0) page0 := by
  refine ⟨⟨{ quiet_devMem.toCalm with }, rfl⟩, ?_⟩
  unfold Claims.Clean; decide +kernel

/-- Core 0 idle, with two Runnable strands of gang 1. -/
def devIdle : State := { dev2 with core := { dev2.core with phase := .idle, st := Strand.empty, rest := [{ strand1 with rank := 0, boost := 1 }, strand1] } }
/-- A save that has ended: the others wait, or the saved one is Runnable from now. -/
def devSaved (f : Strand → Strand) : State := { dev2 with core := { dev2.core with phase := .saving 0, st := Strand.empty, rest := [f { strand1 with status := .waiting }] } }
/-- A strand whose restore ends at cycle 100, with v1 and m1 live; and with a lost header, in KiB 3 of the cellar area. -/
def devRestore (f : Strand → Strand) : State := { dev with now := 100, core := { dev.core with phase := .restoring 100, st := f { strand0 with status := .runnable, live := 0x0200000002, zeroing := true } } }
/-- Rank 0 has held the slot of core 0 for 16,384 cycles and rank 1 is Runnable since then; cellars of 256 KiB. -/
def devRotate : State := { dev2 with now := 16384, cellarKiB := 256 }
/-- The same with an instruction in the vector queue. -/
def devRotateQ : State := Claims.withSt devRotate { devRotate.core.st with queue := [queued0 (.vaddVV 3 1 2 0) strand0 0] }
def vecReq : Req := ⟨0, 6, 1, 0, .vec 3 8, 0⟩
/-- The same with a far element outstanding. -/
def devAsked : State := { Claims.withSt devRotate { devRotate.core.st with asked := true } with reqs := [vecReq] }
theorem placed2 (s : State) (h : s.gangs = [gang2]) (u : Strand) (hu : u.gang = 1) : ∀ g, s.gang? u.gang = some g → g.state ≠ .parking := by
  intro g hg
  rw [State.gang?, h, hu] at hg
  cases hg; decide +kernel
theorem runnable2 (s : State) (h1 : s.gangs = [gang2]) (h2 : strand1 ∈ s.core.rest) : Claims.runnable s strand1 := ⟨h2, rfl, placed2 s h1 _ rfl⟩
theorem wanted2 (s : State) (h1 : s.gangs = [gang2]) (h2 : s.core.rest = [strand1]) (h3 : s.core.phase = .run ∧ s.core.st.status = .running ∧ s.core.st.wait = .none ∧ 16384 ≤ s.now - s.core.slotFrom ∧ (s.findRoom s.core s.core.st s.core.st.fullBytes).isSome = true
    ∧ Claims.prio s { s.core.st with boost := 0 } ≤ Claims.prio s strand1) : Claims.rotationWanted s :=
  ⟨h3.1, h3.2.1, h3.2.2.1, h3.2.2.2.1, h3.2.2.2.2.1, strand1, runnable2 s h1 (by rw [h2]; exact List.Mem.head _), h3.2.2.2.2.2⟩
theorem witness_SlotAndSelector :
    Claims.runnable devIdle strand1 ∧ (∀ g, (devSaved (fun t => { t with saving := true })).gang? strand1.gang = some g → g.state ≠ .parking)
    ∧ Claims.rotationWanted devRotate ∧ Claims.rotationWanted devRotateQ ∧ Claims.rotationWanted devAsked
    ∧ devIdle.pick = 0 ∧ devIdle.core.phase = .idle ∧ devIdle.core.st.status = .none ∧ (∀ v ∈ devIdle.core.rest, v.saving = false)
    ∧ (devSaved id).core.phase = .saving 0 ∧ 0 ≤ (devSaved id).now ∧ (∀ v ∈ (devSaved id).core.rest, v.status ≠ .runnable ∧ v.saving = false)
    ∧ (∃ v, (devSaved (fun t => { t with saving := true })).core.rest = [v] ∧ v.saving = true ∧ v.status = .waiting ∧ v.wait = .none)
    ∧ (devRestore id).core.phase = .restoring 100 ∧ 100 ≤ (devRestore id).now ∧ (devRestore id).core.st.image.bad = none ∧ (devRestore id).core.st.zeroing = true ∧ (devRestore id).core.st.inPlace = false
    ∧ (devRestore (fun t => { t with zeroing := false })).core.st.zeroing = false
    ∧ (devRestore (fun t => { t with image := ⟨512, false, 0, [3], 0, some 0⟩ })).core.st.image.bad = some 0
    ∧ ((devRestore (fun t => { t with image := ⟨512, false, 0, [3], 0, some 0⟩ })).imageAddr 0 (devRestore (fun t => { t with image := ⟨512, false, 0, [3], 0, some 0⟩ })).core.st 0).isSome = true
    ∧ devRotate.core.rest = [strand1] ∧ strand1.status = .runnable ∧ ¬ (strand1.gang = devRotate.core.st.gang ∧ strand1.rank = devRotate.core.st.rank) ∧ 4096 ≤ devRotate.now - strand1.agedAt
    ∧ devRotate.core.st.out = [] ∧ devRotate.core.st.inGroup = false ∧ devRotate.core.st.queue = [] ∧ devRotateQ.core.st.out = [] ∧ devRotateQ.core.st.inGroup = false ∧ devRotateQ.core.st.queue ≠ []
    ∧ (∃ im ∈ devRotate.findRoom devRotate.core devRotate.core.st devRotate.core.st.fullBytes, im.saveKiB = 0)
    ∧ devAsked.core.st.queue = [] ∧ devAsked.core.st.asked = true ∧ vecReq ∈ devAsked.reqs ∧ vecReq.gang = devAsked.core.st.gang ∧ vecReq.rank = devAsked.core.st.rank ∧ 4096 ≤ devAsked.now - devAsked.core.st.askedAt ∧ (∀ a ∈ devAsked.core.st.answers, a.status ≠ 9)
    ∧ Claims.boundary (devSt (fun t => { t with deferred := [⟨0x0F, 5, 1⟩] })).core.st ∧ (devSt (fun t => { t with deferred := [⟨0x0F, 5, 1⟩] })).core.st.deferred = [⟨0x0F, 5, 1⟩] ∧ dev.core.st.status = .running ∧ dev.core.st.wait = .none
    ∧ dev.core.st.kstatus.getLsbD 0 = false ∧ dev.core.st.kstatus.getLsbD 2 = false ∧ dev.core.st.resFirst = none ∧ dev.core.st.resN = 0 ∧ ({ dev.core.st with checked := true }).checked = true := by
  refine ⟨runnable2 _ rfl (by simp [devIdle]), placed2 _ rfl _ rfl, wanted2 _ rfl rfl (by decide +kernel), wanted2 _ rfl rfl (by decide +kernel), wanted2 _ rfl rfl (by decide +kernel), ?_⟩
  refine ⟨rfl, rfl, rfl, by decide +kernel, rfl, by decide +kernel, by decide +kernel, ⟨_, rfl, rfl, rfl, rfl⟩, ?_⟩
  unfold Claims.boundary
  decide +kernel

/-- A message for token 3; a strand that waits for its count 9, and one that waits for 90. -/
def msg3 : TokMsg := ⟨1, BitVec.ofNat 32 (5 * 2 ^ 23 + 3 * 2 ^ 6), 4, false, none, false, 0, 0, none⟩
def sleeper (n : Nat) : Strand := { strand1 with status := .waiting, wait := .token 3 n }
def devWake : State := { devTok tok3 with tokMsgs := [msg3], core := { (devTok tok3).core with rest := [sleeper 9, sleeper 90] } }
def reply10 (st : Nat) (p : Bool) : Reply := ⟨1, 0, 10, st, p, 77, 5, 1009, 0⟩
/-- Register s10 awaits that reply. -/
def devReply (st : Nat) (p : Bool) : State := { devSt (fun t => { t with marks := t.marks.set 10 .pending }) with replies := [reply10 st p] }
theorem slot0 (f : Strand → Strand) (r : List Reply) (h1 : (f strand0).gang = 1) (h2 : (f strand0).rank = 0) (h3 : (f strand0).status ≠ .none) : Claims.slotIs { devSt f with replies := r } 1 0 :=
  ⟨⟨gang1, rfl, rfl⟩, h1, h2, h3, fun _ hu => absurd hu (List.not_mem_nil)⟩
def line5 : Line := 5
theorem witness_CoreTraffic :
    (∀ st p, Claims.slotIs (devReply st p) (reply10 st p).gang (reply10 st p).rank) ∧ Claims.slotIs { devSt id with replies := [reply10 0 false] } 1 0
    ∧ (∀ x, (sleeper 90).wait = .token 3 x → min (tok3.count + msg3.amount) 0xFFFFFFFF < x)
    ∧ devWake.pick = 0 ∧ devWake.tokMsgs = [msg3] ∧ (msg3.handle.extractLsb' 14 9).toNat = devWake.core.id ∧ Claims.tok devWake (msg3.handle.extractLsb' 6 8).toNat = some tok3 ∧ tok3.bad = false ∧ tok3.arm = none ∧ tok3.gang ≠ 0 ∧ msg3.source = none ∧ devWake.foremost msg3.unit 0 msg3.seq = true ∧ (devReply 0 false).foremost (reply10 0 false).unit 0 (reply10 0 false).seq = true ∧ (sleeper 9).held = .none
    ∧ sleeper 9 ∈ devWake.core.rest ∧ (sleeper 9).wait = .token 3 9 ∧ (sleeper 9).status = .waiting ∧ (sleeper 9).inPlace = false ∧ (sleeper 9).saving = false ∧ 9 ≤ min (tok3.count + msg3.amount) 0xFFFFFFFF
    ∧ (10 : Fin 32).val = (reply10 0 false).reg ∧ (devReply 0 false).core.st.queue = [] ∧ (devReply 0 true).core.st.marks[(10 : Fin 32)] = .pending ∧ (reply10 0 true).psn = true ∧ (reply10 1 false).status ≠ 0 ∧ dev.core.st.marks[(10 : Fin 32)] ≠ .pending
    ∧ ({ dev with l1Fills := [⟨0, false, 0x400, line5⟩] }).l1Fills = [⟨dev.core.id, false, 0x400, line5⟩] ∧ ({ dev with l1Fills := [⟨0, true, 0x400, line5⟩] }).l1Fills = [⟨dev.core.id, true, 0x400, line5⟩]
    ∧ ({ dev with invals := [⟨0x400, [0], 1, 0, 2⟩, ⟨0x401, [0, 1], 1, 0, 2⟩] }).invals = [⟨0x400, [dev.core.id], 1, 0, 2⟩, ⟨0x401, dev.core.id :: [1], 1, 0, 2⟩] ∧ ({ dev with walks := [(0, page0)] }).walks = (dev.core.id, page0) :: [] := by
  refine ⟨fun st p => slot0 (fun t => { t with marks := t.marks.set 10 .pending }) _ rfl rfl (fun h => Status.noConfusion h), slot0 id _ rfl rfl (fun h => Status.noConfusion h), ?_, ?_⟩
  · intro x h
    cases h
    decide
  · decide +kernel

/-- A buffered store of 8 bytes at the end of a line of HBM, to control space, and to the own scratchpad. -/
def entry (k a : Nat) : SbEntry := ⟨1, 0, k, 0, a, 0, 8, 0x1122334455667788, false, 3⟩
def devSb (e : SbEntry) : State := { dev with core := { dev.core with sb := [e] } }
theorem strandMine (e : SbEntry) : (devSb e).strand? 1 0 = some (0, strand0) := rfl
theorem witness_StoreSendWrites :
    (∀ c t, (devSb (entry 0 0x10038)).strand? 1 0 = some (c, t) → ∀ q : Fin 32, t.marks[q] ≠ .pending)
    ∧ (devSb (entry 0 0x10038)).pick = 0 ∧ (devSb (entry 0 0x10038)).core.sb = [entry 0 0x10038] ∧ (devSb (entry 0 0x10038)).core.st.out = [] ∧ Claims.inLine dev 0x10038 8 ∧ (entry 0 0x10038).n < 64
    ∧ (entry 1 0xFF0000830008).kind = 1 ∧ (devSb (entry 2 56)).peerIn gang1.open 0 56 8 = .at 1 0 0 56 ∧ 56 % 64 + 8 ≤ 64 := by
  refine ⟨fun c t h => by rw [strandMine] at h; cases h; exact quiet_dev.marks, ?_⟩
  unfold Claims.inLine; decide +kernel

/-- A queued copy of 64 bytes from offset 0 to offset 256 of the own allotment; an accepted one. -/
def entryCopy : VqEntry := ⟨0x1000, 0, 0x70000000000000, 0x70000000000100, 64, 0, none, 0⟩
def devCopy : State := devSt (fun t => { t with vq := some entryCopy })
def xfer9 (l : List Seg) (h : Option (BitVec 32)) : Xfer :=
  { id := 9, kind := 0, gang := 1, rank := 0, segs := l, total := 64, done := 0, handle := h, mf := 0, hasPeer := false, filling := false, group := 0, waiting := 0, fbits := 0, failed := false, cut := false, late := false, xlats := [], packet := 0, asid := 3
    landed := [], base := 0, va := 0x70000000000100 }
def seg0 : Seg := ⟨.pad 1 0 0, .pad 1 0 256, 0x70000000000100, 64⟩
def devXfer (l : List Seg) (h : Option (BitVec 32)) : State := { dev with xfers := [xfer9 l h] }
theorem witness_CopyEvents :
    Claims.Quiet devCopy ∧ (∀ h, (devXfer [seg0] none).gang? 1 = some h → h.state = .placed)
    ∧ devCopy.core.phase = .run ∧ devCopy.core.st.status = .running ∧ devCopy.core.st.vq = some entryCopy ∧ Claims.padCopy devCopy entryCopy 0 256 64
    ∧ (devXfer [seg0] none).xfers = [xfer9 [seg0] none] ∧ (xfer9 [seg0] none).waiting = 0 ∧ (devXfer [seg0] none).pieces = [] ∧ (devXfer [seg0] none).contains = [] ∧ (devXfer [seg0] none).gang? 1 = some gang1 ∧ gang1.state = .placed
    ∧ (devXfer [seg0] none).peerIn gang1 0 0 64 = .at 1 0 0 0 ∧ (devXfer [seg0] none).strand? 1 0 = some (0, strand0) ∧ 0 < seg0.len ∧ (xfer9 [] (some 0x2800000)).segs = [] ∧ (devXfer [] (some 0x2800000)).invals = []
    ∧ ((0x2800000 : BitVec 32).extractLsb' 23 9).toNat = dev.kdev ∧ seg0.va.toNat / 2 ^ 44 ≠ 0x600 ∧ dev.tokMsgs = [] ∧ dev.replies = [] ∧ dev.fills = [] ∧ dev.combines = [] := by
  refine ⟨⟨by constructor <;> decide +kernel, rfl⟩, fun h hh => by cases hh; rfl, ?_⟩
  unfold Claims.padCopy; decide +kernel

/-- A fill, and a contribution, for tile 1 of rank 0 of gang 1. -/
def arrival (c : Bool) : Arrival :=
  { combine := c, gang := 1, rank := 0, off := 256, mask := BitVec.allOnes 256, data := 5, psn := 0, last := true, slot := 1, absent := false, xfer := 0, toDev := 0, peer := 0, va := 0, also := [], fromDev := 0, fromTag := 0, tries := 0, due := 0, asid := 3, rest := [], unit := 0, seq := 0 }
def devFill : State := { dev with fills := [arrival false] }
def devRetry : State := { dev with retries := [arrival false] }
def devCombine (c : Nat) : State := { devTiles [{ tile0 1 with armed := true, cnt0 := 2, cnt := c }] with combines := [arrival true] }
def devEnd : State := { devTiles [{ tile0 1 with owner := some (4, 7) }] with fillEnds := [(4, 7)] }
theorem witness_TileArrivals :
    (∀ x ∈ ((devCombine 2).core.tile 1).slots, x.k ≠ (arrival true).slot)
    ∧ (arrival false).toDev = 0 ∧ (arrival false).fromDev = 0 ∧ (arrival false).also = [] ∧ (arrival false).rest = [] ∧ (arrival false).combine = false ∧ (arrival false).mask = BitVec.allOnes 256 ∧ (arrival false).last = true
    ∧ (devFill.core.tile 1).armed = false ∧ (devFill.core.tile 1).full = false ∧ (devFill.core.tile 1).owner = none ∧ devFill.fills = [arrival false] ∧ devFill.targetOf (arrival false) = .tile devFill.core.id 1
    ∧ devRetry.retries = [arrival false] ∧ (arrival false).due ≤ devRetry.now ∧ devRetry.targetOf (arrival false) = .tile devRetry.core.id 1 ∧ (devCombine 2).combines = [arrival true] ∧ (devCombine 2).targetOf (arrival true) = .tile 0 1 ∧ ((devCombine 2).core.tile 1).armed = true
    ∧ devFill.foremost 0 0 0 = true ∧ (devCombine 2).foremost 0 0 0 = true ∧ ((arrival false).peer.extractLsb' 32 16).toNat < 0xFE00 ∧ (arrival true).slot < ((devCombine 2).core.tile 1).cnt0 ∧ 1 < ((devCombine 2).core.tile 1).cnt ∧ ((devCombine 1).core.tile 1).cnt = 1
    ∧ devEnd.fillEnds = [(4, 7)] ∧ devEnd.others = [] ∧ devEnd.core.overrun = [] ∧ devEnd.core.tiles = [devEnd.core.tile 1] ∧ (devEnd.core.tile 1).idx = 1 ∧ (devEnd.core.tile 1).owner = some (4, 7) := by
  decide +kernel

/-- A piece of group 3, its entry, and the strand's requests to join and leave it. -/
def piece3 : Piece := ⟨9, 1, 0, 3, .mem 0x10000 0, 256, 512⟩
def porch3 (r : Bool) : Porch := ⟨0, 3, .mem 0x10000 0, 256, 512, [(1, 0, 9)], 4096, r⟩
def devPorch : State := { devXfer [] none with porch := [porch3 false], now := 4096 }
def group3 (l : List (Nat × Nat)) : Group := ⟨3, 3, l⟩
def devAsk (j : Bool) (l : List Group) : State := { devSt (fun t => { t with asked := true }) with groupReqs := [⟨j, 3, 1, 0⟩], groups := l }
theorem askSlot (j : Bool) (l : List Group) : Claims.slotIs (devAsk j l) 1 0 := ⟨⟨gang1, rfl, rfl⟩, rfl, rfl, fun h => Status.noConfusion h, fun _ hu => absurd hu List.not_mem_nil⟩
theorem witness_PorchAndGroups :
    Claims.slotIs (devAsk true []) 1 0 ∧ Claims.slotIs (devAsk false [group3 [(1, 0)]]) 1 0 ∧ (∀ g, (devAsk false [{ group3 [(1, 0)] with asid := gang1.kasid }]).gang? 1 = some g → gang1.kasid = g.kasid)
    ∧ (group3 [(1, 0), (1, 1)]).g = piece3.group ∧ (1, 1) ∈ (group3 [(1, 0), (1, 1)]).members ∧ (1, 1) ≠ (piece3.gang, piece3.rank)
    ∧ devPorch.porch = [porch3 false] ∧ (porch3 false).released = false ∧ (porch3 false).expiry ≤ devPorch.now ∧ (porch3 false).src = .mem 0x10000 0 ∧ devPorch.invals = [] ∧ (porch3 false).members = [(1, 0, 9)] ∧ (porch3 false).len = 256
    ∧ devPorch.xfers.find? (fun z => z.id == 9) = some (xfer9 [] none) ∧ (xfer9 [] none).failed = false ∧ (porch3 true).released = true
    ∧ (devAsk true []).core.st.asked = true ∧ (devAsk false [group3 [(1, 0)]]).groups = [group3 [(1, 0)]] ∧ (group3 [(1, 0)]).g = 3 := by
  refine ⟨askSlot _ _, askSlot _ _, fun g h => by cases h; rfl, ?_⟩
  decide +kernel

/-- A containment of rank 0 asked for; a gang whose rank has exited. -/
def contain0 : Contain := ⟨1, 0, 0x0B, 4, 0, 0, none⟩
def gangIso : Gang := { gang1 with task := { task0 with isolate := true } }
def gangOut : Gang := { gang1 with exited := [⟨0, 0x1000, false, false⟩] }
def devOut : State := { dev with gangs := [gangOut], core := { dev.core with phase := .idle, st := Strand.empty, rest := [{ strand0 with status := .exited }], tokens := [tok3] } }
theorem witness_GangsEnd :
    (∀ k ∈ devOut.core :: devOut.others, ∀ y ∈ k.tokens, y.gang = gangOut.id → y.pend = 0)
    ∧ ({ dev with contains := [contain0] }).contains = [contain0] ∧ (∀ k ∈ dev.core :: dev.others, k.st.queue.length ≤ 32) ∧ contain0.gang = gang1.id ∧ gang1.task.isolate = false ∧ gangIso.task.isolate = true ∧ contain0.gang = gangIso.id
    ∧ gangOut.state = .placed ∧ gangOut.status = 0 ∧ devOut.porch = [] ∧ (∀ r, r < gangOut.task.c * gangOut.task.s → ∃ e ∈ gangOut.exited, e.rank = r) ∧ devOut.core.id ∈ gangOut.cores := by
  decide +kernel

/-- A queue with a record pool; a gang that waits; a gang parked, and being parked; a core whose grant is being reduced. -/
def queue0 : Queue := { Queue.fresh 0 with en := true, priv := true, asid := 3, ptbase := 0x200000, base := 0x8000, qsize := 4, maxPrio := 5, frbase := 0x100000, frsize := 4096 }
def gangNew (sp : Bool) : Gang := { Gang.fresh 65541 0 { task0 with spawned := sp } with state := .waiting, cores := [] }
def devNew (sp : Bool) : State := { State.reset with boot := .full, kdev := 5, gangs := [gangNew sp], waiting := [65541], queues := [queue0] }
def parked0 : Strand := { strand0 with status := .parked, held := .runnable }
def devParked : State := { State.reset with boot := .full, kdev := 5, gangs := [{ gang1 with state := .parked }], waiting := [1], core := { Core.fresh 0 with rest := [parked0] } }
def gangGoing : Gang := { gang1 with state := .parking }
def devParking : State := { dev with cellarKiB := 256, gangs := [gangGoing], core := { Core.fresh 0 with rest := [{ strand0 with status := .runnable }] } }
def reduction0 : Reduction := ⟨2, [0], [1], 0, false⟩
def devReduce (c : Nat) : State := { dev with cellarKiB := c, now := 262144, reductions := [reduction0], core := { dev.core with grant := 3, reduceTo := some 2, st := { strand0 with grant := 3 } } }
theorem witness_SchedulerEvents :
    (∀ u ∈ dev.core.st :: dev.core.rest, u.status = .none ∨ u.status = .parked ∨ u.status = .exited ∨ u.grant ≤ 2)
    ∧ (devNew false).placement (gangNew false) = some (0, [(devNew false).core.id]) ∧ (devNew true).placement (gangNew true) = some (0, [(devNew true).core.id]) ∧ 65536 ≤ (gangNew true).id ∧ (devNew true).notified = [] ∧ (gangNew true).task.spawned = true ∧ (gangNew false).task.spawned = false
    ∧ devParked.placement { gang1 with state := .parked } = some (gang1.grant, [devParked.core.id]) ∧ gang1.cores = [devParked.core.id] ∧ parked0.gang = gang1.id ∧ parked0.rank < gang1.task.c * gang1.task.s ∧ parked0.status = .parked
    ∧ dev.core.st.gang = gang1.id ∧ dev.core.st.inPlace = false ∧ Claims.boundary dev.core.st ∧ dev.core.st.turn = 0
    ∧ devParking.core.st.status = .none ∧ devParking.core.tiles = [] ∧ devParking.xfers = [] ∧ devParking.waiting = [] ∧ devParking.core.sb = [] ∧ devParking.contains = [] ∧ devParking.gangDone gangGoing = false
    ∧ (∃ w ∈ devParking.parkGang gangGoing, ∀ x ∈ w.core.rest, x.image.saveKiB = 0) ∧ (∃ v ∈ devParking.core.rest, v.gang = gangGoing.id ∧ v.status = .runnable ∧ v.inPlace = false ∧ v.saving = false)
    ∧ ({ dev with core := { dev.core with reduceTo := some 2 } }).core.reduceTo = some 2 ∧ gang1.id ∈ reduction0.gangs ∧ ({ dev with reductions := [reduction0] }).core.reduceTo = none
    ∧ reduction0.since + 262144 ≤ (devReduce 64).now ∧ reduction0.late = false ∧ reduction0.gangs = [gang1.id] ∧ 2 < (devReduce 64).core.st.grant ∧ (devReduce 64).core.st.deferred = [] ∧ (devReduce 64).core.st.rank = 0 ∧ 0 < gang1.task.s
    ∧ (({ devReduce 256 with reductions := [{ reduction0 with late := true }] }).parkGang gang1).isSome = true ∧ (({ devReduce 64 with reductions := [{ reduction0 with late := true }] }).parkGang gang1).isNone = true := by
  unfold Claims.boundary
  refine ⟨by decide +kernel, by decide +kernel, by decide +kernel, ?_⟩
  decide +kernel

/-- Page tables at 0x200000: the first 512 MiB of every address space lie at themselves, with every permission. -/
def tables : Memory := writeNat (writeNat [] 0x200000 8 0x210001) 0x210000 8 0x1F
def pkt0 (phase : Nat) (d : List Word) : Pkt := ⟨7, 0, false, d, phase, 0, none, none, 0⟩
def devCp (ps : List Pkt) : State := { State.reset with boot := .full, kdev := 5, queues := [queue0], mem := tables, pkts := ps }
def named (d : List Word) : Option Named := match Claims.checks (devCp []) (pkt0 0 d) with | some (.ok n) => some n | _ => none
/-- The packet in the slot that queue 0 reads next. -/
def devSlot : State := { devCp [] with mem := writeNat tables 0x8000 64 0x201 }
theorem mayRead0 : Claims.mayRead devSlot queue0 0x8000 := by
  unfold Claims.mayRead Claims.slotAt Claims.inLine
  exact ⟨⟨rfl, rfl, rfl, rfl, rfl, rfl, rfl, by decide +kernel, ⟨3, 0, true, 0, 0, false, 0, true, true, true, true⟩, 0, by decide +kernel⟩, by decide +kernel⟩
/-- The same with an empty slot. -/
theorem slotAt0 : Claims.slotAt (devCp []) queue0 0x8000 := by
  unfold Claims.slotAt Claims.inLine
  exact ⟨rfl, rfl, rfl, rfl, rfl, rfl, rfl, by decide +kernel, ⟨3, 0, true, 0, 0, false, 0, true, true, true, true⟩, 0, by decide +kernel⟩
theorem witness_CommandProcessorEvents :
    (∃ x pa, Claims.mayRead devSlot x pa) ∧ (∀ l, (devCp []).holders l = [])
    ∧ ¬ (2 ≤ Claims.pktType (pkt0 0 [1]) ∧ Claims.pktType (pkt0 0 [1]) ≤ 5) ∧ Claims.checks (devCp [pkt0 0 [1]]) (pkt0 0 [1]) = some (.error 2)
    ∧ Claims.pktType (pkt0 0 [0x0201000000000101, 0x1000, 77, 4096, 0x30008, 0x40000, 0, 0]) = 1 ∧ (named [0x0201000000000101, 0x1000, 77, 4096, 0x30008, 0x40000, 0, 0]).isSome = true
    ∧ (named [0x201, 0, 5, 0, 0, 0, 0, 0]).map (·.target) = some none ∧ (named [0x201, 0x30000, 5, 0, 0, 0, 0, 0]).map (·.target) = some (some (0x30000, 0)) ∧ Claims.signalAt (devCp []) 0x30000
    ∧ (named [0x301, 0x30000, 4, 0, 0, 0, 0, 0]).map (·.target) = some (some (0x30000, 0)) ∧ (named [0x301, 0, 4, 0, 0, 0, 0, 0]).map (·.target) = some none ∧ 4 < readNat (writeNat tables 0x30000 8 5) 0x30000 8 ∧ readNat (writeNat tables 0x30000 8 5) 0x30000 8 < 2 ^ 63
    ∧ (named [0x401, 0x30000, 0x50000, 100, 0, 0, 0, 0]).map (fun n => (n.src, n.dst)) = some ([(0x30000, 0, 100)], [(0x50000, 0, 100)])
    ∧ (named [0x501, 511, 0, 0x30000, 0, 0, 0, 0]).map (·.image) = some [(0x30000, 0, 64)] ∧ (named [0x501, 511, 0, 0, 0, 0, 0, 0]).isSome = true ∧ Claims.inLine (devCp []) 0x30000 64
    ∧ Claims.pktType (pkt0 1 [0x501]) = 5 ∧ Claims.pktType (pkt0 4 [0x501]) = 5 ∧ Claims.pktType { pkt0 1 [0x301] with target := some (0x30000, 0) } = 3 ∧ (pkt0 2 [0x401]).gang = 0 ∧ (devCp []).meEn = false
    ∧ ((pkt0 2 [0x401]).dwords.getD 0 0).getLsbD 2 = false ∧ (devCp []).boot = .full ∧ (devCp []).quiesce = false ∧ (devCp []).fabricLost = false ∧ (devCp []).switchAcks < 36 ∧ 36 ≤ ({ devCp [] with switchAcks := 40 }).switchAcks := by
  refine ⟨⟨_, _, mayRead0⟩, fun _ => rfl, ?_⟩
  unfold Claims.pktType Claims.signalAt Claims.inLine
  repeat' apply And.intro
  all_goals decide +kernel

/-- A write of v to offset off of control space that is the only one waiting. -/
def devCtl (off : Nat) (v : Word) (host : Nat) (s : State) : State := { s with ctlWrites := [Claims.ctlW s off v host] }
def queueOff : Queue := { queue0 with en := false, err := true }
def frame0 : Frame := ⟨0, 0, 0, true, 0, false, 0⟩
theorem witness_ControlWrites :
    (∃ u pa, Claims.slotAt u queue0 pa ∧ readNat u.mem pa 64 % 2 = 1) ∧ (∃ u pa, Claims.slotAt u queue0 pa ∧ readNat u.mem pa 64 % 2 = 0) ∧ (devCp []).boot = .full ∧ ({ queueOff with err := false }).err = false ∧
        (devCtl 0x3000 5 0 dev).ctlWrites = [Claims.ctlW (devCtl 0x3000 5 0 dev) (0x1000 * 3) 5 0] ∧ State.reset.boot ≠ .full ∧ queue0.q = 0 ∧ queueOff.en = false ∧ queueOff.err = true
    ∧ (0x430005 : Word).getLsbD 0 = true ∧ ((0x430005 : Word).extractLsb' 20 4).toNat = 4 ∧ queue0.en = true ∧ (0x430006 : Word).getLsbD 0 = false ∧ (0x430006 : Word).getLsbD 1 = true
    ∧ dev.hmEn = false ∧ dev.meEn = false ∧ ((0x51 : Word).extractLsb' 4 5).toNat = 5 ∧ dev.reqs = [] ∧ (2 : Word).getLsbD 1 ≠ dev.quiesce ∧ (1 : Word).getLsbD 1 = dev.quiesce
    ∧ (devCtl 0x8201D0 7 3 { dev with gangs := [] }).gangs = [] ∧ ({ dev with frames := [frame0] }).portUp (({ dev with frames := [frame0] }).frameLine frame0) = true ∧ (0x103 : Word).getLsbD 8 = true ∧ (3 : Word).getLsbD 8 = false := by
  refine ⟨⟨devSlot, _, mayRead0⟩, ⟨_, _, slotAt0, by decide +kernel⟩, rfl, rfl, rfl, fun h => Boot.noConfusion h, ?_⟩
  decide +kernel

def flit0 (seq : Nat) : Flit := ⟨5, false, 1, 1, BitVec.ofNat 32 seq, none⟩
/-- What R350's example sends: unicast to device 5 on channel 2. -/
def flit52 : Flit := ⟨5, false, 2, 0, 0, none⟩
theorem witness_SentBlocks :
    0 < 4 ∧ 5 < 512 ∧ 7 < 8 ∧ 35 < 36 ∧ 31 < 32 ∧ (List.replicate 600 (0 : BitVec 72)).length = 600 ∧ ({ dev with txFlits := List.replicate 14 flit52 }).txFlits.length = 14 := by decide +kernel
def pair9 : Pair := ⟨9, 4095, 4095, 4095, [flit0 6], 16, 0, 2, 0, true, false⟩
def devLink : State := { dev with now := 300000, pairs := [pair9], rxFlits := [Claims.whole (flit0 0) 9] }
def plane0 : Plane := ⟨5000, 8191, 7, 1, 2 ^ 24 + 5, 3⟩
theorem witness_LinkEvents :
    pair9.goBack ≠ [] ∧ devLink.pick = 0 ∧ devLink.boot = .full ∧ devLink.quiesce = false ∧ devLink.fabricLost = false ∧ devLink.kdev ≠ 0 ∧ devLink.rxFlits = [Claims.whole (flit0 0) 9] ∧ (∀ p ∈ devLink.planes, p.state ≠ 2) ∧ Claims.nextFlit devLink (flit0 0) 9
    ∧ devLink.fence.getLsbD 9 = false ∧ (flit0 0).vc < 4 ∧ (flit0 0).dest < 512 ∧ 9 ≠ devLink.kdev ∧ devLink.pairs = [pair9] ∧ pair9.dev < 512 ∧ pair9.sinceAck ≠ 0 ∧ 600 ≤ devLink.now - pair9.lastAckAt ∧ 16 ≤ pair9.resends ∧ 300000 ≤ devLink.now - pair9.heldSince ∧ devLink.reqs = [] ∧ (∀ x ∈ devLink.joins, x.1 ≠ pair9.dev)
    ∧ 2 ^ 24 ≤ plane0.blocks ∧ plane0.state ≤ 1 ∧ plane0.score1 < 16384 ∧ plane0.score0 < 16384 := by
  refine ⟨fun h => List.cons_ne_nil _ _ h, ?_⟩
  unfold Claims.nextFlit; decide +kernel

/-- A packet from device 9. -/
def packet9 (typ len : Nat) (d1 : Word) (v : Nat) : Packet := { typ := typ, dec := false, len := len, asid := 3, tag := 44, dst := 5, src := 9, mc := false, vc := 0, d1 := d1, payload := BitVec.ofNat 2048 v, key := 0, alloc := false, xfer := none }
def devRx (p : Packet) : State := { dev with gangs := [], queues := [queue0], rx := [p] }
theorem arrived9 (p : Packet) (h : p.src = 9) : Claims.arrived (devRx p) p := ⟨rfl, (by decide : (5 : Nat) ≠ 0), rfl, by rw [h]; exact (by decide +kernel : (0 : BitVec 512).getLsbD 9 = false), by rw [h]; exact (by decide : (9 : Nat) ≠ 5)⟩
theorem witness_RemoteRequests :
    Claims.arrived (devRx (packet9 1 4 0x1003C 0)) (packet9 1 4 0x1003C 0) ∧ dev.holders (0x1003C / 64) = [] ∧ .lineBuffer ∉ dev.errors ∧ Claims.targets (packet9 1 4 0x1003C 0) 0x1003C ∧ Claims.inLine dev 0x1003C 4 ∧ dev.linePsn (0x1003C / 64) = false ∧ dev.l2At (0x1003C / 64) = none
    ∧ (packet9 2 4 0x1003C 5).d1.extractLsb' 48 4 = 0 ∧ (packet9 3 8 0x5000000010008 5).d1.extractLsb' 48 10 = 5 ∧ Claims.targets (packet9 3 8 0x5000000010008 5) 0x10008 ∧ 0x10000 % 256 = 0 ∧ 0x10000 + 256 ≤ dev.hbmQ * 192 * 2 ^ 30
    ∧ ((devRx (packet9 0x15 64 0x50000 5)).queue 0).en = true ∧ ((devRx (packet9 0x15 64 0x50000 5)).queue 0).asid = (packet9 0x15 64 0x50000 5).asid ∧ ((devRx (packet9 0x15 64 0x50001 5)).queue 1).en = false
    ∧ dev.fbridge.getLsbD 3 = false ∧ dev.hmKept = [] ∧ (13 : BitVec 4).getLsbD 3 = true ∧ ((13 : BitVec 4).extractLsb' 0 3).toNat = dev.kdev % 8 ∧ 31 - 16 < 2 ^ 4
    ∧ ({ dev with fence := 1 <<< 9 }).fence.getLsbD 9 = true ∧ ((packet9 2 8 0xFF00008201C8 9).payload.extractLsb' 0 64).toNat = 9 := by
  refine ⟨arrived9 _ rfl, ?_⟩
  unfold Claims.targets Claims.inLine; decide +kernel
theorem witness_RemoteAnswers :
    (packet9 4 8 0 5).d1.extractLsb' 0 8 = 0 ∧ (⟨44, 9, 1, 0, .load 3 8 false 0x10, 0⟩ : Req).tag = (packet9 4 8 0 5).tag ∧ (⟨44, 9, 1, 0, .load 3 8 false 0x10, 0⟩ : Req).dst = (packet9 4 8 0 5).src ∧ 8 ∈ [1, 2, 4, 8]
    ∧ ((packet9 0x10 0 0x4028000C0 0).d1.extractLsb' 0 32).extractLsb' 23 9 = 5 ∧ ((packet9 0x10 0 0x4028000C0 0).d1.extractLsb' 0 32).extractLsb' 0 6 = 0 ∧ (packet9 0x10 0 0x4028000C0 0).dec = false
    ∧ Claims.tok (devTok tok3) (((packet9 0x10 0 0x4028000C0 0).d1.extractLsb' 0 32).extractLsb' 6 8).toNat = some tok3 ∧ tok3.source = none ∧ tok3.multi = false ∧ tok3.pend < 65535
    ∧ sleeper 9 ∈ devWake.core.rest ∧ (sleeper 9).saving = false ∧ (sleeper 9).held = .none := by
  decide +kernel
def hostReq (w : Bool) (a : Word) (len : Nat) (st : Bool) (svc : Nat) (at_ : Option Nat) : HostReq := ⟨6, w, a, len, 5, st, svc, at_⟩
theorem witness_HostRequests :
    (hostReq false 0x5000000010000 64 false 0 none).addr.extractLsb' 51 13 = 0 ∧ ((hostReq false 0x5000000010000 64 false 0 none).addr.extractLsb' 48 3).toNat = dev.kdev % 8 ∧ (13 : BitVec 4).getLsbD 3 = true ∧ ((13 : BitVec 4).extractLsb' 0 3).toNat = dev.kdev % 8
    ∧ Claims.inLine dev 0x10000 64 ∧ Claims.inLine dev 0x10000 8 ∧ dev.linePsn 0x400 = false ∧ dev.l2At 0x400 = none ∧ .lineBuffer ∉ dev.errors ∧ (hostReq false 0x5000000010000 8 false 0 (some 8)).atomic = some 8 ∧ (hostReq false 0x5000000010000 8 true 0 none).started = true
    ∧ (hostReq true 0x8FF0000830008 8 false 1 none).addr.getLsbD 51 = true ∧ ((hostReq true 0x8FF0000830008 8 false 1 none).addr.extractLsb' 0 48).toNat = 0xFF0000830008 ∧ 0xFF0000830008 % 8 = 0 := by
  unfold Claims.inLine; decide +kernel
theorem witness_ErrorEvents :
    Claims.slotIs { devSt id with replies := [] } 1 0 ∧ (∀ i, dev.core.st.marks[(9 : Fin 32)] ≠ .queued i) ∧ dev.meEn = false ∧ hbmPa 1 0x43 < dev.hbmQ * 192 * 2 ^ 30 ∧ hbmPa 1 0x43 / 4096 ∉ dev.dead ∧ 383 < 384 ∧ (9 : Fin 32) ≠ 0 ∧ dev.core.st.marks[(9 : Fin 32)] ≠ .pending
    ∧ (dev.core.offsetAt 3 511).isSome = true ∧ dev.ports = Port.fresh :: List.replicate 7 Port.fresh ∧ 1 ≤ dev.portsW ∧ Port.fresh.up = true ∧ Port.fresh.down = false ∧ 300000000 ≤ ({ dev with now := 300000003 }).now - 3 := by
  refine ⟨slot0 _ _ rfl rfl (fun h => Status.noConfusion h), fun i h => RegMark.noConfusion h, ?_⟩
  decide +kernel

/-- An element-wise addition and a count of mask bits in the queue, the count last; alone; a window of two in its first row; and s3 written behind 63 others. -/
def qAdd : QEntry := queued0 (.vaddVV 3 1 2 0) strand0 0
def qPop : QEntry := ⟨5, .mpopc 3 1 0, { strand0.ctx with pc := 0x1004 }, [], 0⟩
def devQ (l : List QEntry) : State := Claims.withSt dev { strand0 with pc := 0x1008, queue := l }
def devWin : State := Claims.withSt dev { strand0 with pc := 0x1008, queue := [qAdd, qAdd], win := 2, row := 1, hist := some (strand0.toHist 0x10) }
theorem witness_VectorQueue :
    dev.core.st.deferred = [] ∧ ((devQ [qAdd]).enqueue (.mpopc 3 1 0)).isSome = true ∧ scalarDest (.mpopc 3 1 0) = some 3 ∧ scalarDest (.vaddVV 3 1 2 0) = none
    ∧ (devQ (List.replicate 32 qAdd)).core.st.queue.length = 32 ∧ inQueue (.vaddVV 3 1 2 0) = true ∧ (devQ [qAdd]).core.st.queue ≠ [] ∧ Claims.Clean (devQ [qAdd]) [3, 4, 5]
    ∧ (devQ [{ qAdd with ahead := 63 }]).core.st.ahead < 64 ∧ 64 ≤ (devQ [{ qAdd with ahead := 64 }]).core.st.ahead
    ∧ (match exec qAdd.instr ((devQ [qAdd]).modSt (fun t => t.issue qAdd.ctx)) with
       | .next w => !w.left (devQ [qAdd]).core.st && w.core.st.wait == .none && w.core.st.vq == none && w.core.st.pc == qAdd.ctx.pc + 4
       | _ => false) = true ∧ (devQ [qAdd]).overtakable qAdd = none
    ∧ devWin.core.st.queue = [qAdd, qAdd] ∧ 2 ≤ devWin.core.st.win ∧ devWin.core.st.hist = some (strand0.toHist 0x10) := by
  unfold Claims.Clean
  decide +kernel

theorem witness_DecodeEncode : WellFormed (.add 3 4 5) = true ∧ encode (.add 3 4 5) = some 0x02321400 ∧ decodeWord 0x02321400 = .instr (.add 3 4 5) := by decide +kernel

/-- The device of devAdd with its strand's next instruction the next move; and with a vector instruction in its place. -/
def devRun : State := { devAdd with agenda := [.run 0] }
def devVec : State := { devIll with mem := writeNat [] 0x10000 4 0x42311000, agenda := [.queue 0] }
/-- The core in turn for a move of s. -/
def atTurn (s : State) : State := ({ s with now := s.now + 1, agenda := [] }).turnTo 0
theorem witness_StepRunsTheMove :
    devRun.agenda = [.run 0] ∧ (atTurn devRun).canIssue = true ∧ isWord (atTurn devRun).fetch (fun w => decide (decodeWord w = .instr (.addi 3 4 1))) = true
    ∧ devRun.core.st.queue = [] ∧ devRun.core.st.out = [] ∧ devRun.core.st.resN = 0 ∧ devRun.core.st.deferred = [] ∧ ({ devRun.core.st with deferred := [⟨0x0F, 5, 1⟩] }).mayDefer = true ∧ devRun.failsEarly (.addi 3 4 1) = false ∧ devRun.core.st.begun = false ∧ ({ devRun.core.st with asked := true }).begun = true
    ∧ devVec.agenda = [.queue 0] ∧ (atTurn devVec).canIssue = true ∧ isWord (atTurn devVec).fetch (fun w => decide (decodeWord w = .instr (.vaddVV 3 2 4 0))) = true ∧ inQueue (.vaddVV 3 2 4 0) = true ∧ ((atTurn devVec).enqueue (.vaddVV 3 2 4 0)).isSome = true
    ∧ encode .ageing = none ∧ (encode (.add 3 4 5)).isSome = true := by
  decide +kernel
theorem witness_NeverStops : (∀ c n l, devRun.agenda = .run c :: l ∨ devRun.agenda = .queue c :: l ∨ devRun.agenda = .vector c n :: l → c < 288) ∧ (∀ i k l, devRun.agenda = .event i k :: l → encode i = none) :=
  ⟨fun c n l h => by rcases h with h | h | h <;> cases h; decide, fun i k l h => by cases h⟩
theorem inv_reset : State.reset.Inv := ⟨rfl, rfl, rfl, fun _ h => absurd h List.not_mem_nil⟩
theorem witness_StepKeepsMemoryForm : State.reset.Inv ∧ ∃ t, step { State.reset with agenda := [.pass 3] } = .next t ∧ ({ State.reset with agenda := [.pass 3] } : State).Inv := ⟨inv_reset, _, rfl, rfl, rfl, rfl, fun _ h => absurd h List.not_mem_nil⟩
theorem witness_BringUpAndPower :
    State.reset.boot = .powerGood ∧ State.reset.record.sigKey = State.reset.vendorKey ∧ State.reset.record.sigDigest = sm3 12 (4 * 2 ^ 24 + 64 * 2 ^ 16 + 1) ∧ ({ BootRecord.default with sigKey := 1 }).sigKey ≠ State.reset.vendorKey ∧ State.reset.fuseVersion ≤ State.reset.record.version ∧ ({ BootRecord.default with version := 0 }).version < ({ State.reset with fuseVersion := 1 }).fuseVersion
    ∧ State.reset.record.q ≤ 4 ∧ State.reset.record.cs ∈ [64, 128, 192, 256] ∧ State.reset.record.w ∈ [1, 2, 4, 8] ∧ dev.core.id < 288 ∧ dev.boot = .full ∧ 110 ≤ ({ dev with tmax := 110 }).tmax
    ∧ ¬ (true = true ∧ (dev.upBlocked = true ∨ dev.hot = true ∨ dev.plim < dev.pwr)) ∧ (∀ g ∈ dev.gangs, g.task.c < 2) ∧ ({ dev with nonces := [5] }).nonces = [5] ∧ dev.fail ≠ 4 ∧ dev.core.homing = false ∧ (∀ k ∈ dev.others, k.homing = false) ∧ ({ dev.core with homing := true }).homing = true := by
  decide +kernel
theorem witness_PlaneCorrection : 35 < 36 ∧ 3 < 4 := by decide

/-! ## Decoding: for every encoded row, a word put together from the table's match value and field places, and the instruction with those field values -/

theorem test_decode_scalar_integer : ([
  (0x02E36800, .add 0xE 6 0x1A), (0x033EE001, .sub 0x13 0x1D 0x18), (0x038A5802, .and 0x18 0x14 0x16), (0x03D65003, .or 0x1D 0xC 0x14),
  (0x0221C804, .xor 2 3 0x12), (0x027D4405, .sll 7 0x1A 0x11), (0x02C93C06, .srl 0xC 0x12 0xF), (0x0314B407, .sra 0x11 9 0xD),
  (0x035FAC08, .mul 0x15 0x1F 0xB), (0x03AC2409, .mulh 0x1A 0x18 9), (0x03F79C0A, .mulhn 0x1F 0xF 7), (0x0243940B, .div 4 7 5),
  (0x029F0C0C, .divn 9 0x1E 3), (0x02EA880D, .rem 0xE 0x15 2), (0x0336FC0E, .remn 0x13 0xD 0x1F), (0x0382780F, .slt 0x18 4 0x1E),
  (0x03DDF010, .sltn 0x1D 0x1B 0x1C), (0x0229E811, .min 2 0x13 0x1A), (0x02756012, .max 7 0xA 0x18), (0x02B0D813, .minn 0xB 1 0x16),
  (0x030CD414, .maxn 0x10 0x19 0x15), (0x03580015, .clz 0x15 0x10), (0x03A38016, .ctz 0x1A 7), (0x03FF8017, .popc 0x1F 0x1F),
  (0x024B3418, .clmul 4 0x16 0xD), (0x02972C19, .clmulh 9 0xE 0xB), (0x04E2C329, .addi 0xE 5 0x4329), (0x073E7607, .andi 0x13 0x1C 0x7607),
  (0x098A28E6, .ori 0x18 0x14 0x28E6), (0x0BD5DBC4, .xori 0x1D 0xB 0x5BC4), (0x0C110022, .slli 1 2 0x22), (0x0C6D007F, .srli 6 0x1A 0x3F),
  (0x0CB8809E, .srai 0xB 0x11 0x1E), (0x0F04273C, .slti 0x10 8 0x273C), (0x115FDA1A, .sltni 0x15 0x1F 0x5A1A), (0x13AF75F7, .movw 0x1A 0xF75F7),
  (0x15FC7FCF, .adrp 0x1F 0xC7FCF), (0x1648F2B5, .movk 4 2 0xF2B5)] : List (IWord × Instr)).all (fun p => decide (decodeWord p.1 = .instr p.2)) = true := by decide +kernel
theorem test_decode_scalar_fp : ([
  (0x189ECC40, .fadd 9 0x1D 0x13 1), (0x18EAC441, .fsub 0xE 0x15 0x11 1), (0x19263C42, .fmul 0x12 0xC 0xF 1), (0x1971B443, .fdiv 0x17 3 0xD 1),
  (0x19CD8044, .fsqrt 0x1C 0x1B 1), (0x18192845, .fma 1 0x12 0xA 1), (0x1864A046, .fmin 6 9 8 1), (0x18B09847, .fmax 0xB 1 6 1),
  (0x190C1048, .fcvt 0x10 0x18 4 1), (0x19578049, .fclass 0x15 0xF 1), (0x19A3FD4A, .fcmp 0x1A 7 0x1F 2 1)] : List (IWord × Instr)).all (fun p => decide (decodeWord p.1 = .instr p.2)) = true := by decide +kernel
theorem test_decode_control : ([
  (0x21FF051E, .beq 0x1F 0x1E 0x51E), (0x204B17FD, .bne 4 0x16 0x7FD), (0x2086AADB, .blt 8 0xD 0xADB), (0x20D23DB9, .bge 0xD 4 0xDB9),
  (0x212E4097, .bltn 0x12 0x1C 0x97), (0x2179D375, .bgen 0x17 0x13 0x375), (0x25E2D1DC, .jal 0x1E2D1DC), (0x26113931, .jalr 1 2 0x3931)] : List (IWord × Instr)).all (fun p => decide (decodeWord p.1 = .instr p.2)) = true := by decide +kernel
theorem test_decode_memory : ([
  (0x306C8C0F, .ldb 6 0x19 0xC0F), (0x30B81EEE, .ldh 0xB 0x10 0xEEE), (0x310421CC, .ldw 0x10 8 0x1CC), (0x315FB4AA, .ldd 0x15 0x1F 0x4AA),
  (0x31ABC788, .ldbn 0x1A 0x17 0x788), (0x31E75A66, .ldhn 0x1E 0xE 0xA66), (0x3032ED44, .ldwn 3 5 0xD44), (0x328E8022, .stb 8 0x1D 0x22),
  (0x32DA1301, .sth 0xD 0x14 0x301), (0x3325A5DF, .stw 0x12 0xB 0x5DF), (0x3371B8BD, .std 0x17 3 0x8BD), (0x35CD6C1D, .ldx 0x1C 0x1A 0x1B 3 5),
  (0x3618E40A, .stx 1 0x11 0x19 1 2), (0x3864DF90, .amoadd 6 9 0x17 1 1 1 1), (0x38BFD7A1, .amoand 0xB 0x1F 0x15 1 1 1 2), (0x38FBCFB2, .amoor 0xF 0x17 0x13 1 1 1 3),
  (0x3947CB83, .amoxor 0x14 0xF 0x12 1 1 1 0), (0x399343A4, .amomin 0x19 6 0x10 1 1 1 2), (0x39EF3BA5, .amomax 0x1E 0x1E 0xE 1 1 1 2), (0x383AB386, .amominn 3 0x15 0xC 1 1 1 0),
  (0x38862BA7, .amomaxn 8 0xC 0xA 1 1 1 2), (0x38D223A8, .amoswp 0xD 4 8 1 1 1 2), (0x392D9BC9, .amocas 0x12 0x1B 6 1 1 1 4), (0x3A001790, .fence 0x17 0x12 0)] : List (IWord × Instr)).all (fun p => decide (decodeWord p.1 = .instr p.2)) = true := by decide +kernel
theorem test_decode_vector_0 : ([
  (0x41C50C00, .setvl 0x1C 0xA 3), (0x40008002, .live 1), (0x405C37B5, .setvli 5 0x18 1 1 1 7 6 2), (0x42A87480, .vaddVV 0xA 0x10 0x1D 1),
  (0x434F6501, .vsubVV 0x14 0x1E 0x19 2), (0x43E6D902, .vmulVV 0x1E 0xD 0x16 2), (0x428E4983, .vmulhVV 8 0x1C 0x12 3), (0x4325B984, .vmulhnVV 0x12 0xB 0xE 3),
  (0x43BCAA05, .vandVV 0x1B 0x19 0xA 4), (0x42541E86, .vorVV 5 8 7 5), (0x42FB8E87, .vxorVV 0xF 0x17 3 5), (0x43937F08, .vsllVV 0x19 6 0x1F 6),
  (0x423A6F09, .vsrlVV 3 0x14 0x1B 6), (0x42C1E38A, .vsraVV 0xC 3 0x18 7), (0x4369538B, .vminVV 0x16 0x12 0x14 7), (0x43FFC38C, .vmaxVV 0x1F 0x1F 0x10 7),
  (0x42A7B48D, .vminnVV 0xA 0xF 0xD 1), (0x434F248E, .vmaxnVV 0x14 0x1E 9 1), (0x43E6950F, .vsaddVV 0x1E 0xD 5 2), (0x427D8510, .vssubVV 7 0x1B 1 2),
  (0x43157991, .vmergeVV 0x11 0xA 0x1E 3), (0x44F3EC80, .vaddVS 0xF 7 0x1B 1), (0x459B5D01, .vsubVS 0x19 0x16 0x17 2), (0x4432D102, .vmulVS 3 5 0x14 2),
  (0x44D9C183, .vmulhVS 0xD 0x13 0x10 3), (0x45713204, .vmulhnVS 0x17 2 0xC 4), (0x45F8A605, .vandVS 0x1F 0x11 9 4), (0x44AF9686, .vorVS 0xA 0x1F 5 5),
  (0x45470687, .vxorVS 0x14 0xE 1 5), (0x45EEF708, .vsllVS 0x1E 0x1D 0x1D 6), (0x44866B89, .vsrlVS 8 0xC 0x1A 7), (0x451D5B8A, .vsraVS 0x11 0x1A 0x16 7),
  (0x45B4CB8B, .vminVS 0x1B 9 0x12 7), (0x445C3B8C, .vmaxVS 5 0x18 0xE 7), (0x44F32C8D, .vminnVS 0xF 6 0xB 1), (0x459A9C8E, .vmaxnVS 0x19 0x15 7 1),
  (0x44220D0F, .vsaddVS 2 4 3 2), (0x44C9FD90, .vssubVS 0xC 0x13 0x1F 3), (0x4560F191, .vmergeVS 0x16 1 0x1C 3), (0x47BCEA00, .vfaddVV 0x1B 0x19 0x1A 4)] : List (IWord × Instr)).all (fun p => decide (decodeWord p.1 = .instr p.2)) = true := by decide +kernel
theorem test_decode_vector_1 : ([
  (0x4653DA01, .vfsubVV 5 7 0x16 4), (0x46FB4A82, .vfmulVV 0xF 0x16 0x12 5), (0x4782BE83, .vfdivVV 0x18 5 0xF 5), (0x462A0184, .vfsqrt 2 0x14 3),
  (0x4675A705, .vfmaVV 7 0xB 9 6), (0x471D1786, .vfnmsVV 0x11 0x1A 5 7), (0x47B40B87, .vfminVV 0x1B 8 2 7), (0x465BFB88, .vfmaxVV 5 0x17 0x1E 7),
  (0x46E30489, .vfcvt 0xE 6 1 1), (0x473E838A, .vfexp2 0x13 0x1D 7), (0x49F86200, .vfaddVS 0x1F 0x10 0x18 4), (0x48AFD201, .vfsubVS 0xA 0x1F 0x14 4),
  (0x49474682, .vfmulVS 0x14 0xE 0x11 5), (0x49DE3703, .vfdivVS 0x1D 0x1C 0xD 6), (0x48C11F05, .vfmaVS 0xC 2 7 6), (0x49688F86, .vfnmsVS 0x16 0x11 3 7),
  (0x49FFFF87, .vfminVS 0x1F 0x1F 0x1F 7), (0x48977388, .vfmaxVS 9 0xE 0x1C 7), (0x4A7AD883, .vcmpVV 7 0x15 0x16 1 3), (0x4A5650C4, .vcmpVS 5 0xC 0x14 1 4),
  (0x4A21CD25, .vfcmpVV 2 3 0x13 2 5), (0x4A7DC560, .vfcmpVS 7 0x1B 0x11 2 0), (0x4C411D00, .mand 4 2 7 2), (0x4C109581, .mor 1 1 5 3),
  (0x4C608D82, .mxor 6 1 3 3), (0x4DB38083, .mpopc 0x1B 7 1), (0x4DF38384, .mfirst 0x1F 7 7), (0x4C438305, .mtov 4 7 6),
  (0x4C1F0206, .vtom 1 0x1E 4), (0x4EEA8A00, .vslup 0xE 0x15 2 4), (0x4F36FE81, .vsldn 0x13 0xD 0x1F 5), (0x4F827A82, .vrgath 0x18 4 0x1E 5),
  (0x4FDE0203, .vcomp 0x1D 0x1C 4), (0x4E218104, .viota 2 3 2), (0x4E756305, .vext 7 0xA 0x18 6), (0x4EC15F06, .vins 0xC 2 0x17 6),
  (0x4F1C8287, .vbcst 0x11 0x19 5)] : List (IWord × Instr)).all (fun p => decide (decodeWord p.1 = .instr p.2)) = true := by decide +kernel
theorem test_decode_vector2 : ([
  (0x51580187, .vred 0x15 0x10 3 7), (0x51A400C7, .vscan 0x1A 8 1 7), (0x53FFBF80, .vclmulVV 0x1F 0x1F 0xF 7), (0x524B37C0, .vclmulVS 4 0x16 0xD 7),
  (0x52972F81, .vclmulhVV 9 0xE 0xB 7), (0x52E2ABC1, .vclmulhVS 0xE 5 0xA 7)] : List (IWord × Instr)).all (fun p => decide (decodeWord p.1 = .instr p.2)) = true := by decide +kernel
theorem test_decode_vector_memory : ([
  (0x613E8388, .vld 0x13 0x1D 7 1), (0x618A1889, .vlds 0x18 0x14 6 1 1), (0x61D5908A, .vldx 0x1D 0xB 4 1 1), (0x6021810B, .vldff 2 3 2 1),
  (0x606D7D1C, .vldxp 6 0x1A 0x1F 2 1 1), (0x62B88308, .vst 0xB 0x11 6 1), (0x6304F109, .vsts 0x10 9 0x1C 2 1), (0x635FED0A, .vstx 0x15 0x1F 0x1B 2 1),
  (0x63ABE58B, .vstxo 0x1A 0x17 0x19 3 1), (0x63F7DDDC, .vstxp 0x1F 0xF 0x17 3 5 1), (0x64435582, .vsca 4 6 0x15 3 2), (0x669E8180, .tldf 9 0x1D 3),
  (0x66EA80C1, .tstf 0xE 0x15 1 4), (0x66098002, .twait 0x13), (0x67820003, .tstat 0x18 4), (0x660E6C04, .tset 0x1C 0x1B),
  (0x6600C805, .tarm 1 0x12), (0x666522B6, .tcmb 6 0xA 8 5 3)] : List (IWord × Instr)).all (fun p => decide (decodeWord p.1 = .instr p.2)) = true := by decide +kernel
theorem test_decode_rest : ([
  (0x70B08000, .tknew 0xB 1), (0x70080001, .tkfree 0x10), (0x700AC002, .tkarm 0x15 0x10), (0x700D1C03, .tksig 0x1A 7),
  (0x71FF0004, .tkrd 0x1F 0x1E), (0x724B7400, .await 4 0x16 0x1D), (0x72900001, .yield 9), (0x76E2E4F1, .cpy 0xE 5 0x19 7 0x11),
  (0x772E5DE2, .cpy2d 0x12 0x1C 0x17 7 2), (0x7779D608, .cpyg 0x17 0x13 0x15 8), (0x780E0F0B, .gjoin 0x1C 0xF0B), (0x780098E2, .gleave 1 0x8E2),
  (0x7A030000, .bar 6), (0x7CB88000, .spawn 0xB 0x11), (0x7C001000, .sexit), (0x7D502000, .sid 0x15 0),
  (0x808BA170, .mopa 2 0x17 8 2 7), (0x81C71991, .mops 7 0xE 6 3 1), (0x80C002C2, .mzero 3 5 4), (0x81D1ED43, .mrd 7 1 3 0x1B 2 4),
  (0x815091A4, .mwr 5 1 1 4 3 2), (0x809FB215, .mldt 2 1 0x1F 0xC 4 1), (0x81DED2F6, .mstt 7 1 0x1D 0x14 5 7), (0x811DF367, .mpatch 4 1 0x1B 0x1C 6 6),
  (0x90190000, .wset 1 0x12), (0x90601000, .wclr 6), (0x90002DAB, .brk 0xDAB), (0xA0000990, .callk 0x990),
  (0xA0001000, .eret), (0xA1902A06, .krd 0x19 0xA06), (0xA00F33DE, .kwr 0x1E 0x3DE), (0xA0004000, .tlbinvAll),
  (0xA0804001, .tlbinvAsid 8), (0xA0D24002, .tlbinvPage 0xD 4), (0xA12DD000, .mdead 0x12 0x1B), (0xA00BE000, .sflush 0x17)] : List (IWord × Instr)).all (fun p => decide (decodeWord p.1 = .instr p.2)) = true := by decide +kernel

/-- Words that the spec itself writes out for instructions of every format. -/
theorem test_decode_spec_words : ([
  (0x0232140B, .div 3 4 5), (0x48209C05, .vfmaVS 2 1 7 0), (0x2084C00A, .bltn 8 9 0xA), (0x12500008, .movw 5 8), (0x16580020, .movk 5 2 0x20),
  (0x80819480, .mopa 2 3 5 1 0), (0x0C948003, .slli 9 9 3), (0x18321403, .fdiv 3 4 5 0), (0x26008000, .jalr 0 1 0),
  (0x30A4B002, .ldd 0xA 9 2), (0x34C2141B, .ldx 0xC 4 5 3 3), (0x3A000360, .fence 3 0xC 0), (0x3A000221, .fence 2 4 1),
  (0x40820117, .setvli 8 4 0 0 0 2 2 3), (0x4A20A440, .vcmpVS 2 1 9 0 0), (0x50718080, .vred 7 3 1 0), (0x50818047, .vscan 8 3 0 7),
  (0x60128000, .vld 1 5 0 0), (0x60128008, .vld 1 5 0 1), (0x60231C81, .vlds 2 6 7 1 0), (0x60322002, .vldx 3 4 8 0 0), (0x60428003, .vldff 4 5 0 0),
  (0x62230008, .vst 2 6 0 1), (0x62232003, .vstxo 2 6 8 0 0), (0x64522000, .vsca 5 4 8 0 0), (0x66648000, .tldf 6 9 0), (0x66250061, .tstf 2 10 0 6),
  (0x66048002, .twait 9), (0x66B48003, .tstat 11 9), (0x6604B004, .tset 9 12), (0x6604B005, .tarm 9 12), (0x78028003, .gjoin 5 3), (0x7A050000, .bar 10),
  (0x80000002, .mzero 0 0 0), (0x80529805, .mldt 1 1 5 6 0 0), (0x8093B037, .mpatch 2 1 7 12 0 3)] : List (IWord × Instr)).all (fun p => decide (decodeWord p.1 = .instr p.2)) = true := by decide +kernel

/-! ## WellFormed: for each check, a term that it refuses -/

theorem test_ill_formed : [Instr.fcvt 1 2 5 0, .fcmp 1 2 3 4 0, .ldx 1 2 3 0 7, .amoadd 1 2 3 0 0 0 5, .amoand 1 2 3 0 0 0 6, .amoor 1 2 3 0 0 0 7, .amoxor 1 2 3 0 0 0 5, .amomin 1 2 3 0 0 0 5, .amomax 1 2 3 0 0 0 5,
    .amominn 1 2 3 0 0 0 5, .amomaxn 1 2 3 0 0 0 5, .amoswp 1 2 3 0 0 0 5, .amocas 1 2 3 0 0 0 5, .fence 1 1 5, .vfcvt 1 2 9 0, .vcmpVV 1 2 3 0 6, .vcmpVS 1 2 3 0 6, .vfcmpVV 1 2 3 0 6, .vfcmpVS 1 2 3 0 7,
    .vred 1 2 0 8, .vscan 1 2 0 15, .vsca 1 2 3 0 3, .cpy2d 31 2 3 0 0, .sid 1 5, .wset 1 29].all (fun i => !WellFormed i) = true := by decide +kernel
/-- Words with an unassigned field value, with a field that must be zero, of an unassigned function, and of an unassigned major opcode (R400). -/
theorem test_illegal_words : decodeWord 0x1A0200C0 ≠ .instr (.fcvt 0 4 0 0) ∧ decodeWord 0x0232141A = .illegal 0x01 ∧ decodeWord 0x02321480 = .illegal 0x02 ∧ decodeWord 0 = .illegal 0x01 := by decide +kernel

/-! ## Single steps on small states; the expected values come from the rules' tables by hand -/

/-- s4 = x and s5 = y. -/
def regs45 (x y : Word) : State := devSt (fun t => { t with regs := (t.regs.set 4 x).set 5 y })
/-- What an instruction leaves in s3. -/
def s3 (i : Instr) (s : State) : Option Word := match exec i s with | .next t => some (t.reg 3) | _ => none
def after {α : Type} (i : Instr) (s : State) (f : State → α) : Option α := match exec i s with | .next t => some (f t) | _ => none

theorem test_add_wraps : s3 (.add 3 4 5) (regs45 0xFFFFFFFFFFFFFFFF 2) = some 1 := by decide +kernel
theorem test_mulh_signs : s3 (.mulh 3 4 5) (regs45 0xFFFFFFFFFFFFFFFF 5) = some 0xFFFFFFFFFFFFFFFF ∧ s3 (.mulhn 3 4 5) (regs45 0xFFFFFFFFFFFFFFFF 5) = some 4 := by decide +kernel
theorem test_div_truncates : s3 (.div 3 4 5) (regs45 (-7) 2) = some (-3) ∧ s3 (.rem 3 4 5) (regs45 (-7) 2) = some (-1) := by decide +kernel
theorem test_div_corners : s3 (.div 3 4 5) (regs45 9 0) = some (-1) ∧ s3 (.rem 3 4 5) (regs45 9 0) = some 9 ∧ s3 (.div 3 4 5) (regs45 0x8000000000000000 (-1)) = some 0x8000000000000000 ∧ s3 (.rem 3 4 5) (regs45 0x8000000000000000 (-1)) = some 0 := by decide +kernel
theorem test_sra_mod_64 : s3 (.sra 3 4 5) (regs45 0x8000000000000000 67) = some 0xF000000000000000 := by decide +kernel
theorem test_clz_zero : s3 (.clz 3 4) (regs45 0 0) = some 64 ∧ s3 (.ctz 3 4) (regs45 8 0) = some 3 ∧ s3 (.popc 3 4) (regs45 0xFF 0) = some 8 := by decide +kernel
theorem test_clmul : s3 (.clmul 3 4 5) (regs45 7 5) = some 0x1B := by decide +kernel
theorem test_addi_negative : s3 (.addi 3 4 0x7FFF) (regs45 5 0) = some 4 := by decide +kernel
theorem test_movk_keeps : s3 (.movk 3 1 0xABCD) (devSt (fun t => { t with regs := t.regs.set 3 0x1111222233334444 })) = some 0x11112222ABCD4444 := by decide +kernel
theorem test_s0_discards : after (.addi 0 4 1) dev (fun t => t.core.st.regs[0]) = some 0 := by decide +kernel
theorem test_fadd_one_two : s3 (.fadd 3 4 5 0) (regs45 0x3FF0000000000000 0x4000000000000000) = some 0x4008000000000000 := by decide +kernel
theorem test_fdiv_by_zero : after (.fdiv 3 4 5 0) (regs45 0x3FF0000000000000 0) (fun t => (t.reg 3, t.core.st.kfctl)) = some (0x7FF0000000000000, 0x20) := by decide +kernel
theorem test_fcmp_quiet_nan : after (.fcmp 3 4 5 1 0) (regs45 0x7FF8000000000000 0) (fun t => (t.reg 3, t.core.st.kfctl)) = some (0, 0x10) := by decide +kernel
theorem test_beq_back : after (.beq 4 4 0xFFD) dev (fun t => t.core.st.pc) = some 0xFF4 ∧ after (.beq 4 5 0xFFD) dev (fun t => t.core.st.pc) = some 0x1004 := by decide +kernel
theorem test_jal_links : after (.jal 0x1FFFFC0) dev (fun t => (t.core.st.pc, t.reg 1)) = some (0xF00, 0x1004) := by decide +kernel
theorem test_load_sign : s3 (.ldb 3 6 1) { dev with core := { dev.core with pad := writeNat [] 257 1 0x80 } } = some 0xFFFFFFFFFFFFFF80 ∧ s3 (.ldbn 3 6 1) { dev with core := { dev.core with pad := writeNat [] 257 1 0x80 } } = some 0x80 := by decide +kernel
theorem test_store_goes_to_buffer : after (.stw 5 6 0xFFF) dev (fun t => t.core.sb) = some [⟨1, 0, 2, 0, 252, 0, 4, 7, false, dev.asid⟩] := by decide +kernel
theorem test_amoadd_returns_old : after (.amoadd 3 6 5 0 0 0 0) { dev with core := { dev.core with pad := writeNat [] 256 8 100 } } (fun t => (t.reg 3, readNat t.core.pad 256 8)) = some (100, 107) := by decide +kernel
theorem test_misaligned : after (.ldh 3 7 0) dev (fun t => (t.core.st.super.cause, t.core.st.super.eval, t.core.st.pc)) = some (0x05, 0x70000000000003, 0x2000) := by decide +kernel
theorem test_setvli_group : after (.setvli 3 0 0 0 0 1 0 2) (devSt (fun t => { t with grant := 1 })) (fun t => (t.reg 3, t.core.st.vl)) = some (128, 128) := by decide +kernel
theorem test_vadd_bytes : after (.vaddVV 3 1 2 0) (devSt (fun t => { t with kvtype := 0, v := (t.v.set 1 0xFF01).set 2 0x0201 })) (fun t => vGet t.core.st.v[3] 0 4) = some 0x0102 := by decide +kernel
theorem test_vred_min : after (.vred 3 1 0 1) (devSt (fun t => { t with kvtype := 0, v := t.v.set 1 0x05FE0701 })) (fun t => vGet t.core.st.v[3] 0 1) = some 0xFE := by decide +kernel
theorem test_vred_tree : after (.vred 7 3 1 0) (devSt (fun t => { t with kvtype := 0x1A, masks := t.masks.set 1 15, v := t.v.set 3 0xCB8000003F8000003F8000004B800000 })) (fun t => vGet t.core.st.v[7] 0 4) = some 0x3F800000
    ∧ after (.vscan 8 3 1 0) (devSt (fun t => { t with kvtype := 0x1A, masks := t.masks.set 1 15, v := t.v.set 3 0xCB8000003F8000003F8000004B800000 })) (fun t => vGet t.core.st.v[8] 8 8) = some 0x4B800000 := by decide +kernel
theorem test_mopa_cell : after (.mopa 2 1 3 0 0) (devSt (fun t => { t with kvtype := 0, v := (t.v.set 1 0x0302).set 3 0xFF04 })) (fun t => t.cell 2 0 0) = some 5 := by decide +kernel
theorem test_tset_fills : after (.tset 6 5) (devR5 1 dev) (fun t => (t.core.tile 1).full) = some true := by decide +kernel
theorem test_callk_enters_k_mode : after (.callk 9) dev (fun t => (t.core.st.pc, t.core.st.kstatus, t.core.st.super.cause, t.core.st.super.eval, t.core.st.super.epc)) = some (0x2000, 1, 0x20, 9, 0x1000) := by decide +kernel
theorem test_brk_user_handler : after (.brk 5) dev (fun t => (t.core.st.pc, t.core.st.kstatus, t.core.st.user.cause, t.core.st.user.eval)) = some (0x3000, 4, 0x0B, 5) := by decide +kernel
theorem test_eret_leaves_handler : after .eret (devSt (fun t => { t with kstatus := 4, user := { t.user with epc := 0x1236 } })) (fun t => (t.core.st.pc, t.core.st.kstatus)) = some (0x1234, 0) := by decide +kernel
theorem test_sid_device : s3 (.sid 3 3) dev = some 5 := by decide +kernel
theorem test_fence_note : after (.fence 2 0 0) (devSt (fun t => { t with notes := 2 })) (fun t => t.contains.map (fun c => c.cause)) = some [0x11] := by decide +kernel
theorem test_step_runs_placed_word : (match step (State.reset.withFetchWord 32 0x04320001) with | .next t => some (t.reg 3 - t.reg 4) | _ => none) = some 1 := by decide +kernel
theorem test_reset_first_stage : (match step State.reset with | .next t => some t.boot | _ => none) = some .seedling := by decide +kernel
theorem test_preamble_symbols : (List.range 8).map (fun k => (flit52.word k).toNat % 4) = [1, 1, 0, 0, 0, 2, 1, 3] ∧ flit52.word 0 = 0x555555555555555555 := by decide +kernel
theorem test_slice_and_channel : sliceOf 0x643210 = 67 ∧ sliceLocal 0x643210 = 0x8210 ∧ hbmPa 134 0x4110 = 0x643210 := by decide +kernel
/-- The window of R392's example at its third group: 64-bit FP elements, four groups, VL 128. -/
def strandWin : Strand := { strand0 with pc := 0x1010, kvtype := 0x113, vl := 128, grant := 2, regs := strand0.regs.set 5 0x100000FE00 }
def entryWin (i : Instr) (pc : Pc) : QEntry := ⟨4, i, { strandWin.ctx with pc := pc }, [], 0⟩
def devChain : State := Claims.withSt dev { strandWin with
  regs := strandWin.regs.set 7 1, queue := [entryWin (.vld 1 5 0 0) 0x1000, entryWin (.vfaddVV 2 2 1 0) 0x1008, entryWin (.vsca 2 6 3 0 0) 0x100C], win := 3, row := 2, hist := some (strandWin.toHist 0) }
theorem test_window_fault : (match devChain.runVector 4 (fun _ => true) with
    | .next t => some (t.core.st.super.cause, t.core.st.super.egrp, t.core.st.super.eval, t.core.st.super.depth, t.core.st.super.epc, t.reg 7)
    | _ => none) = some (0x07, 2, 0x1000010000, 2, 0x1000, dev.reg 7) := by decide +kernel
/-- A scalar addition commits ahead of a queued instruction, and an exit waits for it (R390). -/
theorem test_ahead_of_queue : (match (devQ [qAdd]).issueOne false (.addi 3 5 1) with | .next t => some (t.reg 3, t.core.st.queue.length, t.core.st.ahead) | _ => none) = some (8, 1, 1)
    ∧ (match (devQ [qAdd]).issueOne false .sexit with | .next t => t == devQ [qAdd] | _ => false) = true := by decide +kernel

end Sys2Proof.Tests
end

section
/-!
PROOFS. The step keeps the memories' form (log 2): every row of the table, the vector queue and its window, the issue of an instruction, each kind of move.
-/
namespace Sys2Proof.Machine

variable {P : Prop}

/-- Every row of the table goes on and keeps the form, each by the lemma of its own meaning. With a P that does not hold it says that the row goes on. -/
theorem exec_good (i : Instr) {s : State} (hK : Keep P s) : Good P (exec i s) :=
  match i with
  | .add d a b => execAdd_good d a b s hK
  | .sub d a b => execSub_good d a b s hK
  | .and d a b => execAnd_good d a b s hK
  | .or d a b => execOr_good d a b s hK
  | .xor d a b => execXor_good d a b s hK
  | .sll d a b => execSll_good d a b s hK
  | .srl d a b => execSrl_good d a b s hK
  | .sra d a b => execSra_good d a b s hK
  | .mul d a b => execMul_good d a b s hK
  | .mulh d a b => execMulh_good d a b s hK
  | .mulhn d a b => execMulhn_good d a b s hK
  | .div d a b => execDiv_good d a b s hK
  | .divn d a b => execDivn_good d a b s hK
  | .rem d a b => execRem_good d a b s hK
  | .remn d a b => execRemn_good d a b s hK
  | .slt d a b => execSlt_good d a b s hK
  | .sltn d a b => execSltn_good d a b s hK
  | .min d a b => execMin_good d a b s hK
  | .max d a b => execMax_good d a b s hK
  | .minn d a b => execMinn_good d a b s hK
  | .maxn d a b => execMaxn_good d a b s hK
  | .clz d a => execClz_good d a s hK
  | .ctz d a => execCtz_good d a s hK
  | .popc d a => execPopc_good d a s hK
  | .clmul d a b => execClmul_good d a b s hK
  | .clmulh d a b => execClmulh_good d a b s hK
  | .addi d a imm => execAddi_good d a imm s hK
  | .andi d a imm => execAndi_good d a imm s hK
  | .ori d a imm => execOri_good d a imm s hK
  | .xori d a imm => execXori_good d a imm s hK
  | .slli d a sr => execSlli_good d a sr s hK
  | .srli d a sr => execSrli_good d a sr s hK
  | .srai d a sr => execSrai_good d a sr s hK
  | .slti d a imm => execSlti_good d a imm s hK
  | .sltni d a imm => execSltni_good d a imm s hK
  | .movw d imm => execMovw_good d imm s hK
  | .adrp d imm => execAdrp_good d imm s hK
  | .movk d p v => execMovk_good d p v s hK
  | .fadd d a b f => execFadd_good d a b f s hK
  | .fsub d a b f => execFsub_good d a b f s hK
  | .fmul d a b f => execFmul_good d a b f s hK
  | .fdiv d a b f => execFdiv_good d a b f s hK
  | .fsqrt d a f => execFsqrt_good d a f s hK
  | .fma d a b f => execFma_good d a b f s hK
  | .fmin d a b f => execFmin_good d a b f s hK
  | .fmax d a b f => execFmax_good d a b f s hK
  | .fcvt d a c f => execFcvt_good d a c f s hK
  | .fclass d a f => execFclass_good d a f s hK
  | .fcmp d a b c f => execFcmp_good d a b c f s hK
  | .beq a b o => execBeq_good a b o s hK
  | .bne a b o => execBne_good a b o s hK
  | .blt a b o => execBlt_good a b o s hK
  | .bge a b o => execBge_good a b o s hK
  | .bltn a b o => execBltn_good a b o s hK
  | .bgen a b o => execBgen_good a b o s hK
  | .jal o => execJal_good o s hK
  | .jalr d a imm => execJalr_good d a imm s hK
  | .ldb d b o => execLdb_good d b o s hK
  | .ldh d b o => execLdh_good d b o s hK
  | .ldw d b o => execLdw_good d b o s hK
  | .ldd d b o => execLdd_good d b o s hK
  | .ldbn d b o => execLdbn_good d b o s hK
  | .ldhn d b o => execLdhn_good d b o s hK
  | .ldwn d b o => execLdwn_good d b o s hK
  | .stb sr b o => execStb_good sr b o s hK
  | .sth sr b o => execSth_good sr b o s hK
  | .stw sr b o => execStw_good sr b o s hK
  | .std sr b o => execStd_good sr b o s hK
  | .ldx d a b sr z => execLdx_good d a b sr z s hK
  | .stx d a b sr z => execStx_good d a b sr z s hK
  | .amoadd d a b w q r sr => execAmoadd_good d a b w q r sr s hK
  | .amoand d a b w q r sr => execAmoand_good d a b w q r sr s hK
  | .amoor d a b w q r sr => execAmoor_good d a b w q r sr s hK
  | .amoxor d a b w q r sr => execAmoxor_good d a b w q r sr s hK
  | .amomin d a b w q r sr => execAmomin_good d a b w q r sr s hK
  | .amomax d a b w q r sr => execAmomax_good d a b w q r sr s hK
  | .amominn d a b w q r sr => execAmominn_good d a b w q r sr s hK
  | .amomaxn d a b w q r sr => execAmomaxn_good d a b w q r sr s hK
  | .amoswp d a b w q r sr => execAmoswp_good d a b w q r sr s hK
  | .amocas d a b w q r sr => execAmocas_good d a b w q r sr s hK
  | .fence p sr c => execFence_good p sr c s hK
  | .setvl d a b => execSetvl_good d a b s hK
  | .live a => execLive_good a s hK
  | .setvli d a x sr r g t w => execSetvli_good d a x sr r g t w s hK
  | .vaddVV d a b m => execVaddVV_good d a b m s hK
  | .vaddVS d a b m => execVaddVS_good d a b m s hK
  | .vsubVV d a b m => execVsubVV_good d a b m s hK
  | .vsubVS d a b m => execVsubVS_good d a b m s hK
  | .vmulVV d a b m => execVmulVV_good d a b m s hK
  | .vmulVS d a b m => execVmulVS_good d a b m s hK
  | .vmulhVV d a b m => execVmulhVV_good d a b m s hK
  | .vmulhVS d a b m => execVmulhVS_good d a b m s hK
  | .vmulhnVV d a b m => execVmulhnVV_good d a b m s hK
  | .vmulhnVS d a b m => execVmulhnVS_good d a b m s hK
  | .vandVV d a b m => execVandVV_good d a b m s hK
  | .vandVS d a b m => execVandVS_good d a b m s hK
  | .vorVV d a b m => execVorVV_good d a b m s hK
  | .vorVS d a b m => execVorVS_good d a b m s hK
  | .vxorVV d a b m => execVxorVV_good d a b m s hK
  | .vxorVS d a b m => execVxorVS_good d a b m s hK
  | .vsllVV d a b m => execVsllVV_good d a b m s hK
  | .vsllVS d a b m => execVsllVS_good d a b m s hK
  | .vsrlVV d a b m => execVsrlVV_good d a b m s hK
  | .vsrlVS d a b m => execVsrlVS_good d a b m s hK
  | .vsraVV d a b m => execVsraVV_good d a b m s hK
  | .vsraVS d a b m => execVsraVS_good d a b m s hK
  | .vminVV d a b m => execVminVV_good d a b m s hK
  | .vminVS d a b m => execVminVS_good d a b m s hK
  | .vmaxVV d a b m => execVmaxVV_good d a b m s hK
  | .vmaxVS d a b m => execVmaxVS_good d a b m s hK
  | .vminnVV d a b m => execVminnVV_good d a b m s hK
  | .vminnVS d a b m => execVminnVS_good d a b m s hK
  | .vmaxnVV d a b m => execVmaxnVV_good d a b m s hK
  | .vmaxnVS d a b m => execVmaxnVS_good d a b m s hK
  | .vsaddVV d a b m => execVsaddVV_good d a b m s hK
  | .vsaddVS d a b m => execVsaddVS_good d a b m s hK
  | .vssubVV d a b m => execVssubVV_good d a b m s hK
  | .vssubVS d a b m => execVssubVS_good d a b m s hK
  | .vmergeVV d a b m => execVmergeVV_good d a b m s hK
  | .vmergeVS d a b m => execVmergeVS_good d a b m s hK
  | .vfaddVV d a b m => execVfaddVV_good d a b m s hK
  | .vfaddVS d a b m => execVfaddVS_good d a b m s hK
  | .vfsubVV d a b m => execVfsubVV_good d a b m s hK
  | .vfsubVS d a b m => execVfsubVS_good d a b m s hK
  | .vfmulVV d a b m => execVfmulVV_good d a b m s hK
  | .vfmulVS d a b m => execVfmulVS_good d a b m s hK
  | .vfdivVV d a b m => execVfdivVV_good d a b m s hK
  | .vfdivVS d a b m => execVfdivVS_good d a b m s hK
  | .vfsqrt d a m => execVfsqrt_good d a m s hK
  | .vfmaVV d a b m => execVfmaVV_good d a b m s hK
  | .vfmaVS d a b m => execVfmaVS_good d a b m s hK
  | .vfnmsVV d a b m => execVfnmsVV_good d a b m s hK
  | .vfnmsVS d a b m => execVfnmsVS_good d a b m s hK
  | .vfminVV d a b m => execVfminVV_good d a b m s hK
  | .vfminVS d a b m => execVfminVS_good d a b m s hK
  | .vfmaxVV d a b m => execVfmaxVV_good d a b m s hK
  | .vfmaxVS d a b m => execVfmaxVS_good d a b m s hK
  | .vfcvt d a t m => execVfcvt_good d a t m s hK
  | .vfexp2 d a m => execVfexp2_good d a m s hK
  | .vcmpVV d a b m c => execVcmpVV_good d a b m c s hK
  | .vcmpVS d a b m c => execVcmpVS_good d a b m c s hK
  | .vfcmpVV d a b m c => execVfcmpVV_good d a b m c s hK
  | .vfcmpVS d a b m c => execVfcmpVS_good d a b m c s hK
  | .mand d a b m => execMand_good d a b m s hK
  | .mor d a b m => execMor_good d a b m s hK
  | .mxor d a b m => execMxor_good d a b m s hK
  | .mpopc d a m => execMpopc_good d a m s hK
  | .mfirst d a m => execMfirst_good d a m s hK
  | .mtov d a m => execMtov_good d a m s hK
  | .vtom d a m => execVtom_good d a m s hK
  | .vslup d a b m => execVslup_good d a b m s hK
  | .vsldn d a b m => execVsldn_good d a b m s hK
  | .vrgath d a b m => execVrgath_good d a b m s hK
  | .vcomp d a m => execVcomp_good d a m s hK
  | .viota d a m => execViota_good d a m s hK
  | .vext d a b m => execVext_good d a b m s hK
  | .vins d a b m => execVins_good d a b m s hK
  | .vbcst d a m => execVbcst_good d a m s hK
  | .vred d a m o => execVred_good d a m o s hK
  | .vscan d a m o => execVscan_good d a m o s hK
  | .vclmulVV d a b m => execVclmulVV_good d a b m s hK
  | .vclmulVS d a b m => execVclmulVS_good d a b m s hK
  | .vclmulhVV d a b m => execVclmulhVV_good d a b m s hK
  | .vclmulhVS d a b m => execVclmulhVS_good d a b m s hK
  | .vld d a m h => execVld_good d a m h s hK
  | .vlds d a b m h => execVlds_good d a b m h s hK
  | .vldx d a b m h => execVldx_good d a b m h s hK
  | .vldff d a m h => execVldff_good d a m h s hK
  | .vldxp d a b m f h => execVldxp_good d a b m f h s hK
  | .vst d a m h => execVst_good d a m h s hK
  | .vsts d a b m h => execVsts_good d a b m h s hK
  | .vstx d a b m h => execVstx_good d a b m h s hK
  | .vstxo d a b m h => execVstxo_good d a b m h s hK
  | .vstxp d a b m f h => execVstxp_good d a b m f h s hK
  | .vsca d a b m o => execVsca_good d a b m o s hK
  | .tldf d a m => execTldf_good d a m s hK
  | .tstf d a m f => execTstf_good d a m f s hK
  | .twait a => execTwait_good a s hK
  | .tstat d a => execTstat_good d a s hK
  | .tset a b => execTset_good a b s hK
  | .tarm a b => execTarm_good a b s hK
  | .tcmb d a b m f => execTcmb_good d a b m f s hK
  | .tknew d a => execTknew_good d a s hK
  | .tkfree a => execTkfree_good a s hK
  | .tkarm a b => execTkarm_good a b s hK
  | .tksig a b => execTksig_good a b s hK
  | .tkrd d a => execTkrd_good d a s hK
  | .await d a b => execAwait_good d a b s hK
  | .yield d => execYield_good d s hK
  | .cpy d a b f t => execCpy_good d a b f t s hK
  | .cpy2d d a b f t => execCpy2d_good d a b f t s hK
  | .cpyg d a b t => execCpyg_good d a b t s hK
  | .gjoin a imm => execGjoin_good a imm s hK
  | .gleave a imm => execGleave_good a imm s hK
  | .bar a => execBar_good a s hK
  | .spawn d a => execSpawn_good d a s hK
  | .sexit => execSexit_good s hK
  | .sid d sr => execSid_good d sr s hK
  | .mopa c a b r k => execMopa_good c a b r k s hK
  | .mops c a b r k => execMops_good c a b r k s hK
  | .mzero c r k => execMzero_good c r k s hK
  | .mrd c o a b r k => execMrd_good c o a b r k s hK
  | .mwr c o a b r k => execMwr_good c o a b r k s hK
  | .mldt c o a b r k => execMldt_good c o a b r k s hK
  | .mstt c o a b r k => execMstt_good c o a b r k s hK
  | .mpatch c o a b r k => execMpatch_good c o a b r k s hK
  | .wset n a => execWset_good n a s hK
  | .wclr n => execWclr_good n s hK
  | .brk c => execBrk_good c s hK
  | .callk n => execCallk_good n s hK
  | .eret => execEret_good s hK
  | .krd d k => execKrd_good d k s hK
  | .kwr a k => execKwr_good a k s hK
  | .tlbinvAll => execTlbinvAll_good s hK
  | .tlbinvAsid d => execTlbinvAsid_good d s hK
  | .tlbinvPage d a => execTlbinvPage_good d a s hK
  | .mdead d a => execMdead_good d a s hK
  | .sflush a => execSflush_good a s hK
  | .deferredTrap => execDeferredTrap_good s hK
  | .containment => execContainment_good s hK
  | .issueRotation => execIssueRotation_good s hK
  | .ageing => execAgeing_good s hK
  | .contextSaveEnd => execContextSaveEnd_good s hK
  | .contextRestoreEnd => execContextRestoreEnd_good s hK
  | .tokenCompletion => execTokenCompletion_good s hK
  | .remoteReply => execRemoteReply_good s hK
  | .storeSend => execStoreSend_good s hK
  | .l1Fill => execL1Fill_good s hK
  | .invalidationAck => execInvalidationAck_good s hK
  | .pageWalk => execPageWalk_good s hK
  | .copyAccept => execCopyAccept_good s hK
  | .copyComplete => execCopyComplete_good s hK
  | .fill => execFill_good s hK
  | .fillRetry => execFillRetry_good s hK
  | .fillEnd => execFillEnd_good s hK
  | .combine => execCombine_good s hK
  | .porchRequest => execPorchRequest_good s hK
  | .holdExpiry => execHoldExpiry_good s hK
  | .releasedEntryExpiry => execReleasedEntryExpiry_good s hK
  | .groupChangeAck => execGroupChangeAck_good s hK
  | .gangComplete => execGangComplete_good s hK
  | .packetComplete => execPacketComplete_good s hK
  | .notify => execNotify_good s hK
  | .queueScan => execQueueScan_good s hK
  | .queueEnable => execQueueEnable_good s hK
  | .queueDisable => execQueueDisable_good s hK
  | .errClear => execErrClear_good s hK
  | .launch => execLaunch_good s hK
  | .signalPacket => execSignalPacket_good s hK
  | .waitPacket => execWaitPacket_good s hK
  | .waitPacketPoll => execWaitPacketPoll_good s hK
  | .copyPacket => execCopyPacket_good s hK
  | .tablePacket => execTablePacket_good s hK
  | .gangPlace => execGangPlace_good s hK
  | .gangReplace => execGangReplace_good s hK
  | .preempt => execPreempt_good s hK
  | .preemptSave => execPreemptSave_good s hK
  | .grantReduction => execGrantReduction_good s hK
  | .grantReductionTimeout => execGrantReductionTimeout_good s hK
  | .flitReceive => execFlitReceive_good s hK
  | .ackTimer => execAckTimer_good s hK
  | .replayLimit => execReplayLimit_good s hK
  | .scoreHalving => execScoreHalving_good s hK
  | .read => execRead_good s hK
  | .write => execWrite_good s hK
  | .atomic => execAtomic_good s hK
  | .readData => execReadData_good s hK
  | .done => execDone_good s hK
  | .atomicData => execAtomicData_good s hK
  | .signal => execSignal_good s hK
  | .increment => execIncrement_good s hK
  | .gforward => execGforward_good s hK
  | .spawnRequest => execSpawnRequest_good s hK
  | .hostmsg => execHostmsg_good s hK
  | .hostRequest => execHostRequest_good s hK
  | .managementRequest => execManagementRequest_good s hK
  | .hmctlEnable => execHmctlEnable_good s hK
  | .mectlEnable => execMectlEnable_good s hK
  | .ffset => execFfset_good s hK
  | .fjoin => execFjoin_good s hK
  | .joinResend => execJoinResend_good s hK
  | .fdevid => execFdevid_good s hK
  | .fbridge => execFbridge_good s hK
  | .quiesce => execQuiesce_good s hK
  | .fctlClr => execFctlClr_good s hK
  | .hflush => execHflush_good s hK
  | .keyLoad => execKeyLoad_good s hK
  | .keyClear => execKeyClear_good s hK
  | .registerWrite => execRegisterWrite_good s hK
  | .uncorrectableError => execUncorrectableError_good s hK
  | .patrolRead => execPatrolRead_good s hK
  | .capacityLinkLoss => execCapacityLinkLoss_good s hK
  | .capacityPortDown => execCapacityPortDown_good s hK
  | .capacityPortRestored => execCapacityPortRestored_good s hK
  | .powerGood => execPowerGood_good s hK
  | .configuration => execConfiguration_good s hK
  | .memoryTraining => execMemoryTraining_good s hK
  | .fullMode => execFullMode_good s hK
  | .quote => execQuote_good s hK
  | .operatingPointMove => execOperatingPointMove_good s hK
  | .powerWindow => execPowerWindow_good s hK
  | .thermalThrottle => execThermalThrottle_good s hK
  | .thermalTrip => execThermalTrip_good s hK
  | .illegalEncoding => execIllegalEncoding_good s hK
  | .fetchFault => execFetchFault_good s hK
  | .correctableError => execCorrectableError_good s hK
  | .capacityLinkRetrained => execCapacityLinkRetrained_good s hK
  | .powerLoss => execPowerLoss_good s hK
  | .groupRollback => execGroupRollback_good s hK

/-- What a move's outcome says of the state it ends in. -/
theorem Good.keep {o : Out} {t : State} (h : Good P o) (e : o = .next t) : Keep P t := by
  obtain ⟨u, hu, hK⟩ := h
  cases hu.symm.trans e
  exact hK

theorem Good.ite {c : Prop} [Decidable c] {a b : Out} (ha : Good P a) (hb : Good P b) : Good P (if c then a else b) := by
  split
  · exact ha
  · exact hb

theorem State.enqueue_keepO (s : State) (i : Instr) (h : Keep P s) : KeepO P (s.enqueue i) := by
  intro t e
  have hs : ∀ f n, Keep P { s.modSt f with nextId := n } := fun f _ =>
    (State.modSt_keep s f h).ofParts rfl rfl rfl rfl
  unfold State.enqueue at e
  dsimp only at e
  split at e
  · cases e
  · split at e
    · split at e
      · cases e
      · cases e
        exact hs _ _
    · cases e

theorem State.provisional_good (s : State) (i : Instr) (h : Keep P s) : Good P (s.provisional i) := by
  have hg := exec_good i (State.modSt_keep s (fun t => { t with prog := none, answers := [], asked := false }) h)
  unfold State.provisional
  extract_lets t v
  refine Good.ite (Good.next h) ?_
  split
  · rename_i w hw
    exact Good.ite (Good.next h) (Good.next (State.modSt_keep w _ (hg.keep hw)))
  · exact hg

theorem State.runAlone_good (s : State) (e : QEntry) (h : Keep P s) : Good P (s.runAlone e) := by
  have hg := exec_good e.instr (State.modSt_keep s (fun t => t.issue e.ctx) h)
  unfold State.runAlone
  extract_lets t
  split
  · rename_i w hw
    extract_lets u x done
    have hu : Keep P u := by
      unfold u
      split
      · exact KeepO.getD (State.tryCopy_keepO w _ (hg.keep hw)) (hg.keep hw)
      · exact hg.keep hw
    have hdone : ∀ v, Keep P v → Good P (done v) := fun v hv =>
      Good.next (State.takeOut_keep _ (State.modSt_keep v _ hv))
    refine Good.ite (Good.next hu) (Good.ite (Good.next h) (Good.ite ?_ (Good.next (State.modSt_keep u _ hu))))
    split
    · exact hdone u hu
    · exact Good.ite (Good.next (State.overtaken_keep _ e _ (State.choose_keepP s 2 h))) (hdone _ (State.choose_keepP u 2 hu))
  · exact hg

theorem State.windowTrap_good (s v : State) (i : Instr) (h : Keep P s) : Good P (s.windowTrap v i) := by
  unfold State.windowTrap
  split
  · split
    · exact Good.next (State.trapAt_keep _ _ _ _ _ _ (State.modSt_keep _ _ (Keep.ite (State.walkFault_keep s _ h) h)))
    · exact Good.next h
  · exact Good.next h

theorem State.runTurn_good (s : State) (h : Keep P s) : Good P s.runTurn := by
  unfold State.runTurn
  extract_lets t
  split
  · exact Good.next h
  · rename_i e _
    extract_lets v
    have hg := exec_good e.instr (s := v) (State.modSt_keep s _ h)
    split
    · rename_i w hw
      exact Good.ite (State.windowTrap_good s v _ h)
        (Good.ite (Good.next (State.takeOut_keep _ (State.modSt_keep w _ (hg.keep hw)))) (Good.next (State.modSt_keep w _ (hg.keep hw))))
    · exact hg

theorem State.runRow_good (s : State) (h : Keep P s) : Good P s.runRow := by
  unfold State.runRow
  extract_lets t
  split
  · exact State.runTurn_good _ (State.modSt_keep s _ h)
  · exact State.runTurn_good s h

theorem State.runVector_good (s : State) (n : Nat) (scalar : State → Bool) (h : Keep P s) : Good P (s.runVector n scalar) := by
  have hs := State.takeOut_keep s h
  unfold State.runVector
  extract_lets s' t
  split
  · exact Good.next hs
  · rename_i e _ _
    exact Good.ite (Good.next hs) (Good.ite (State.runRow_good _ hs) (Good.ite (State.runAlone_good _ e hs) (Good.ite (Good.next hs)
      (Good.ite (State.runAlone_good _ e hs) (State.runRow_good _ (State.modSt_keep _ _ hs))))))

theorem State.commit_good (s : State) (i : Instr) (h : Keep P s) : Good P (s.commit i) :=
  Good.ite (Good.ite (exec_good .deferredTrap (State.modSt_keep s _ h)) (Good.next h)) (exec_good i h)

theorem State.issueOne_good (s : State) (stay : Bool) (i : Instr) (h : Keep P s) : Good P (s.issueOne stay i) := by
  unfold State.issueOne
  refine Good.ite (Good.ite (Good.next h) (Good.ite ?_ (State.commit_good s i h)))
    (Good.ite (Good.next h) (Good.ite (Good.next (KeepO.getD (State.enqueue_keepO s i h) h)) (State.provisional_good s i h)))
  split
  · rename_i u hu
    exact Good.next (State.enqueue_keepO s i h u hu)
  · exact State.commit_good s i h

theorem State.runStrand_good (s : State) (stay : Bool) (h : Keep P s) : Good P (s.runStrand stay) := by
  unfold State.runStrand
  refine Good.ite (Good.next h) ?_
  split
  · exact Good.next h
  · exact exec_good .fetchFault h
  · exact Good.next (State.askCode_keep s _ _ _ h)
  · rename_i w x pa key miss _
    have hu := State.useCode_keep s x pa key miss h
    split
    · exact exec_good .illegalEncoding hu
    · exact State.issueOne_good _ stay _ hu

theorem State.moveCore_good (s : State) (c : Nat) (h : Keep P s) : Good P (s.moveCore c) :=
  settle_good (State.runStrand_good _ false (State.turnTo_keep s c h))

theorem State.moveQueue_good (s : State) (c : Nat) (h : Keep P s) : Good P (s.moveQueue c) :=
  settle_good (State.runStrand_good _ true (State.turnTo_keep s c h))

theorem State.moveVector_good (s : State) (c n : Nat) (h : Keep P s) : Good P (s.moveVector c n) :=
  settle_good (State.runVector_good _ n _ (State.turnTo_keep s c h))

theorem State.moveEvent_good (s : State) (i : Instr) (k : Nat) (h : Keep P s) : Good P (s.moveEvent i k) :=
  settle_good (exec_good i (h.ofParts rfl rfl rfl rfl))

theorem State.autoCore_good (s : State) (c : Nat) (h : Keep P s) : Good P (s.autoCore c) := by
  unfold State.autoCore
  extract_lets t
  refine Good.ite (State.moveVector_good s c _ h) ?_
  have hc := State.moveCore_good s c h
  split
  · rename_i w hw
    exact Good.ite (State.moveQueue_good s c h) (Good.next (hc.keep hw))
  · exact hc

theorem State.autoEvent_keepO (s : State) (h : Keep P s) : KeepO P s.autoEvent := by
  intro t e
  obtain ⟨f, hf, hft⟩ := List.exists_of_findSome?_eq_some e
  exact policy_keepO hf (s := { s with pick := 0 }) (h.ofParts rfl rfl rfl rfl) t hft

/-- An event that the policy chooses is the one that autoEvent finds. -/
theorem State.autoEvent_of_auto {s t : State} (e : s.auto = .event t) : s.autoEvent = some t := by
  unfold State.auto at e
  split at e
  · split at e
    · rename_i hu
      cases e
      exact hu
    · cases e
  · extract_lets at e
    split at e
    · cases e
    · split at e
      · rename_i hu
        cases e
        exact hu
      · cases e

theorem State.moveAuto_good (s : State) (h : Keep P s) : Good P s.moveAuto := by
  unfold State.moveAuto
  split
  · rename_i t e
    exact settle_good (Good.next (State.autoEvent_keepO s h t (State.autoEvent_of_auto e)))
  · exact State.autoCore_good s _ h
  · exact Good.next h

/-- Where the move does not exist, the step goes to no state. -/
theorem Good.keep_guarded {c : Prop} [Decidable c] {f : Fault} {o : Out} {t : State} (h : Good P o) (e : (if c then .fault f else o) = .next t) : Keep P t := by
  split at e
  · cases e
  · exact h.keep e

theorem step_keep {s t : State} (h : Keep P s) (e : step s = .next t) : Keep P t := by
  have ha : ∀ r n, Keep P { s with now := n, agenda := r } := fun _ _ => h.ofParts rfl rfl rfl rfl
  unfold step at e
  extract_lets u at e
  split at e
  · exact (State.moveAuto_good u (ha _ _)).keep e
  · exact (State.moveCore_good _ _ (ha _ _)).keep_guarded e
  · exact (State.moveQueue_good _ _ (ha _ _)).keep_guarded e
  · exact (State.moveVector_good _ _ _ (ha _ _)).keep_guarded e
  · exact (State.moveEvent_good _ _ _ (ha _ _)).keep_guarded e
  · cases e
    exact ha _ _

/-- Settles O59: every kind of move keeps the form, under the form of the state before. -/
theorem stepKeepsMemoryForm : Obligations.StepKeepsMemoryForm :=
  fun _ _ hs e => step_keep (P := True) (fun _ => hs) e trivial

end Sys2Proof.Machine
end

section
/-!
PROOFS. SchedulerEvents fails: R440's laggard is looked for among the residents of a core, and the statement does not ask that the Running strand is one.
-/
namespace Sys2Proof.Machine

/-- A task of one core with one strand. -/
def smallTask : Task :=
  { queue := 0, pkt := 0, spawned := false, c := 1, s := 1, grp := 1, gmin := 0, prio := 0, isolate := false,
    code := 0, arg := 0, spad := 0, farea := [], save := 0, saveAt := [], asid := 0, ptbase := 0, stvec := 0 }

/-- The gang of the counterexample: one strand on core 0, placed. -/
def laggingGang : Gang := { Gang.fresh 1 0 smallTask with state := .placed, cores := [0] }

/-- Its strand runs above the grant that the core is reduced to, yet is marked to return to Runnable from parking, so that it counts as away. -/
def laggingStrand : Strand := { Strand.empty with status := .running, gang := 1, grant := 1, held := .runnable }

/-- A reduction of core 0 whose time has run out. -/
def overdueReduction : Reduction := ⟨0, [0], [1], 0, false⟩

/-- The counterexample: nothing of the reduction has been applied after 262,144 cycles. -/
def overdue : State :=
  { State.reset with
    now := 262144, gangs := [laggingGang], reductions := [overdueReduction]
    core := { Core.fresh 0 with phase := .run, reduceTo := some 0, grant := 1, st := laggingStrand } }

/-- The state after the time limit was noted. -/
def overdueNoted : State := { overdue with reductions := [{ overdueReduction with late := true }] }

/-- A strand that counts as away is no resident, so the time limit finds no laggard and does no more than note itself. -/
theorem overdue_timeout : exec .grantReductionTimeout overdue = .next overdueNoted := rfl

/-- Refutes O43: a Running strand whose `held` is set is no resident of its core, so that GRANT_REDUCTION_TIMEOUT neither parks its gang nor defers cause 0x12 to it. -/
theorem not_schedulerEvents : ¬ Obligations.SchedulerEvents := by
  intro h
  obtain ⟨-, -, -, -, -, -, timeout⟩ := h overdue laggingGang rfl rfl rfl
  obtain ⟨parks, defers⟩ := timeout overdueReduction 0 rfl rfl (Nat.le_refl _) rfl rfl rfl rfl rfl rfl rfl (by decide) rfl (by decide) rfl
  rw [overdue_timeout] at parks defers
  cases hp : overdueNoted.parkGang laggingGang with
  | some w =>
    have e := Host.Outcome.next.inj (parks (Option.isSome_of_eq_some hp))
    exact absurd (congrArg State.gangs e) (by decide)
  | none =>
    have e := Host.Outcome.next.inj (defers hp)
    exact absurd (congrArg (fun t => t.core.st.deferred) e) (by decide)

end Sys2Proof.Machine
end

section
/-!
PROOFS. Rules about the operations that events share: the first occurrence of an event, a record of a list, the core in turn among all cores, the fields of a handle, a token's entry when a message reaches it.
-/
namespace Sys2Proof.Machine

theorem mapIf_eq_self {α : Type} {p : α → Bool} {f : α → α} {l : List α} (h : ∀ x ∈ l, p x = false) : mapIf p f l = l := by
  rw [mapIf, List.map_congr_left (g := id) (fun x hx => by simp [h x hx]), List.map_id]

theorem State.choose_snd (s : State) (n : Nat) : ∃ cs m, (s.choose n).2 = { s with choices := cs, freeCtr := m } := by
  unfold State.choose
  split
  · exact ⟨_, _, rfl⟩
  · split <;> exact ⟨_, _, rfl⟩

theorem State.choose_lt (s : State) {n : Nat} (h : 0 < n) : (s.choose n).1 < n := by
  unfold State.choose
  split
  · exact h
  · split <;> exact Nat.mod_lt _ h

theorem takeNth_head {α : Type} {p : α → Bool} {a : α} {l : List α} (h : p a = true) : takeNth p (a :: l) 0 = some (a, l) := by
  simp [takeNth, takeNth.go, h]

theorem State.arriving_head {α : Type} {s : State} {p : α → Bool} {a : α} {l : List α} (hs : s.pick = 0) (h : p a = true) : s.arriving p (a :: l) = some (a, l) := by
  rw [State.arriving, hs, Nat.zero_mod, takeNth_head h]

/-- The first of the things that happen in any order. -/
theorem State.pickFirst {α : Type} {s : State} {a : α} {l r : List α} (hs : s.pick = 0) (h : l = a :: r) : takeNth (fun _ => true) l (s.pick % max 1 l.length) = some (a, r) := by
  rw [h, hs, Nat.zero_mod, takeNth_head rfl]

theorem nth_head {α : Type} {f : α → Option State} {n : Nat} {a : α} {l : List α} {t : State} (hn : n = 0) (h : f a = some t) : nth f n (a :: l) = some t := by
  subst hn
  simp [nth, h]

theorem find?_mapIf {α : Type} {p q : α → Bool} {f : α → α} (h : ∀ x, p (if q x then f x else x) = p x) (l : List α) :
    (mapIf q f l).find? p = (l.find? p).map (fun x => if q x then f x else x) := by
  rw [mapIf, List.find?_map]
  congr 2
  exact funext h

/-- A filter that keeps the record found first leaves it the first. -/
theorem find?_filter_of_some {α : Type} {p q : α → Bool} {l : List α} {a : α} (h : l.find? p = some a) (ha : q a = true) : (l.filter q).find? p = some a := by
  induction l with
  | nil => simp at h
  | cons x r ih =>
    by_cases hp : p x = true
    · obtain rfl : x = a := by simpa [List.find?_cons, hp] using h
      simp [ha, hp]
    · have hr : r.find? p = some a := by simpa [List.find?_cons, hp] using h
      by_cases hq : q x = true <;> simp [hq, hp, ih hr]

/-- A filter that leaves every record of some kind leaves the first of the kind. -/
theorem find?_filter_eq {α : Type} {p q : α → Bool} {l : List α} (h : ∀ x, p x = true → q x = true) : (l.filter q).find? p = l.find? p := by
  rw [List.find?_filter]
  congr 1
  funext x
  cases hp : p x <;> simp [h x, hp]

@[simp] theorem State.coreAt_self (s : State) : s.coreAt s.core.id = s.core := if_pos rfl

theorem State.coreAt_modCore {s : State} {c : Nat} {f : Core → Core} (h : (f s.core).id = c) : (s.modCore f).coreAt c = f s.core := if_pos h

theorem State.modCoreAt_self {s : State} {c : Nat} {f : Core → Core} (hc : s.core.id = c) (hf : (f s.core).id = s.core.id) : s.modCoreAt c f = s.modCore f := by
  subst hc
  rw [State.modCoreAt, State.coreAt_self, State.putCore, if_pos hf.symm]
  rfl

theorem hCore_eq (h : BitVec 32) : hCore h = (h.extractLsb' 14 9).toNat := by simp [hCore, BitVec.extractLsb'_toNat]
theorem hDev_eq (h : BitVec 32) : hDev h = (h.extractLsb' 23 9).toNat := by simp [hDev, BitVec.extractLsb'_toNat]
theorem hSlot_eq (h : BitVec 32) : hSlot h = (h.extractLsb' 6 8).toNat := by simp [hSlot, BitVec.extractLsb'_toNat]

/-- Bits hi to lo of a word are its field of that width. -/
theorem bits_eq_extractLsb' {w : Nat} (x : BitVec w) (hi lo : Nat) : bits x.toNat hi lo = (x.extractLsb' lo (hi + 1 - lo)).toNat := by
  simp [bits, BitVec.extractLsb'_toNat, Nat.shiftRight_eq_div_pow]

/-- R34: a value is a handle exactly when its low six bits are 0 and it names one of the 288 cores. -/
theorem isHandle_iff (h : BitVec 32) : isHandle h = true ↔ h.extractLsb' 0 6 = 0 ∧ (h.extractLsb' 14 9).toNat < 288 := by
  rw [isHandle, hCore_eq, Bool.and_eq_true, beq_iff_eq, decide_eq_true_iff, ← BitVec.toNat_inj, BitVec.extractLsb'_toNat]
  simp

theorem Claims.tok_slot {s : State} {i : Nat} {k : Token} (h : Claims.tok s i = some k) : k.slot = i := by
  simpa using List.find?_some h

/-- The slots that a waiting strand looks at, as R39 has the count meet its threshold. -/
def Strand.met (i n : Nat) (x : Strand) : Bool := match x.wait with | .token j thr => j == i && decide (thr ≤ n) | _ => false

theorem Token.apply_slot (k : Token) (m : TokMsg) : (k.apply m).slot = k.slot := by
  unfold Token.apply
  dsimp only
  split
  · rfl
  · split <;> rfl

theorem Token.apply_gang (k : Token) (m : TokMsg) : (k.apply m).gang = k.gang := by
  unfold Token.apply
  dsimp only
  split
  · rfl
  · split <;> rfl

theorem Token.apply_arm (k : Token) (m : TokMsg) : (k.apply m).arm = k.arm := by
  unfold Token.apply
  dsimp only
  split
  · rfl
  · split <;> rfl

/-- R36: what a message without a source does to an entry. -/
theorem Token.apply_local (k : Token) {m : TokMsg} (h : m.source = none) :
    k.apply m = { k with count := min (k.count + m.amount) 0xFFFFFFFF, late := k.late || m.late, pend := if m.kind = 1 then k.pend - 1 else k.pend } := by
  unfold Token.apply
  by_cases hk : m.kind = 1 <;> simp [hk, h]

/-- The first entry of a slot, once the entries of a slot have changed. -/
theorem Core.token?_modToken {k : Core} {i j : Nat} {f : Token → Token} (hf : ∀ t, (f t).slot = t.slot) :
    (k.modToken i f).token? j = (k.token? j).map (fun t => if t.slot == i then f t else t) := by
  rw [Core.token?, Core.modToken, find?_mapIf]
  · rfl
  · intro x
    split <;> simp [hf]

theorem Core.token?_modToken_same {k : Core} {i : Nat} {f : Token → Token} {t : Token} (hf : ∀ t, (f t).slot = t.slot) (h : k.token? i = some t) :
    (k.modToken i f).token? i = some (f t) := by
  have hs : t.slot = i := by simpa using List.find?_some h
  rw [Core.token?_modToken hf, h]
  simp [hs]

theorem Core.token?_modToken_other {k : Core} {i j : Nat} {f : Token → Token} (hf : ∀ t, (f t).slot = t.slot) (hj : j ≠ i) :
    (k.modToken i f).token? j = k.token? j := by
  rw [Core.token?_modToken hf]
  cases h : k.token? j with
  | none => rfl
  | some t =>
    have hs : t.slot = j := by simpa using List.find?_some h
    simp [hs, hj]

/-- The core after a message has reached slot i: the entry changed, the waits that its count n now meets ended, an entry without a gang freed. -/
def Core.heard (k : Core) (now i n : Nat) (m : TokMsg) : Core := ((k.modToken i (fun t => t.apply m)).wakeIf now (Strand.met i n)).freeOrphan i

theorem State.wakeTokens_eq {s : State} {c i : Nat} {k : Token} (h : (s.coreAt c).token? i = some k) : s.wakeTokens c i = s.wakeIf c (Strand.met i k.count) := by
  unfold State.wakeTokens
  rw [h]
  rfl

/-- R225: an entry that nothing arms forwards nothing. -/
theorem State.forwardToken_unarmed {s : State} {c i : Nat} {k : Token} (h : (s.coreAt c).token? i = some k) (ha : k.arm = none) : s.forwardToken c i = s := by
  simp only [State.forwardToken, h, ha]

/-- R36, R37, R39: a message to an entry of the core in turn that nothing arms. -/
theorem State.applyToken_self {s : State} {m : TokMsg} {i : Nat} {k : Token} (hc : hCore m.handle = s.core.id) (hi : hSlot m.handle = i) (hk : Claims.tok s i = some k)
    (hb : k.bad = false) (ha : k.arm = none) : s.applyToken m = s.modCore (fun c => c.heard s.now i (k.apply m).count m) := by
  let heard := fun (c : Core) => c.modToken i (fun t => t.apply m)
  let woken := fun (c : Core) => c.wakeIf s.now (Strand.met i (k.apply m).count)
  have ht : (s.coreAt s.core.id).token? i = some k := by rwa [State.coreAt_self]
  have hh : (heard s.core).token? i = some (k.apply m) := Core.token?_modToken_same (fun t => t.apply_slot m) hk
  have h1 : ((s.modCore heard).coreAt s.core.id).token? i = some (k.apply m) := (congrArg (Core.token? · i) (State.coreAt_modCore rfl)).trans hh
  have h2 : (((s.modCore heard).modCore woken).coreAt s.core.id).token? i = some (k.apply m) := (congrArg (Core.token? · i) (State.coreAt_modCore rfl)).trans hh
  unfold State.applyToken
  simp only [hc, hi, ht, hb, Bool.false_eq_true, if_false]
  rw [State.modCoreAt_self (s := s) (c := s.core.id) rfl rfl, State.wakeTokens_eq h1, State.wakeIf, State.modCoreAt_self (s := s.modCore heard) (c := s.core.id) rfl rfl]
  change (((s.modCore heard).modCore woken).forwardToken s.core.id i).modCoreAt s.core.id _ = _
  rw [State.forwardToken_unarmed h2 ((k.apply_arm m).trans ha)]
  exact State.modCoreAt_self rfl rfl

/-- What a strand that does not wait for the slot, or not for so few, keeps. -/
theorem Core.mem_heard_of_not_met {k : Core} {now i n : Nat} {m : TokMsg} {u : Strand} (hu : u ∈ k.rest) (h : u.met i n = false) : u ∈ (k.heard now i n m).rest :=
  List.mem_map.mpr ⟨u, hu, by simp [h]⟩

/-- R39: a strand that waits out of place, its save ended, is Runnable from now. -/
theorem Core.mem_heard_of_met {k : Core} {now i n x : Nat} {m : TokMsg} {u : Strand} (hu : u ∈ k.rest) (hw : u.wait = .token i x) (hx : x ≤ n)
    (hs : u.status = .waiting) (hh : u.held = .none) (hp : u.inPlace = false) (hv : u.saving = false) :
    { u with wait := .none, status := .runnable, boost := 0, readyAt := now, agedAt := now } ∈ (k.heard now i n m).rest := by
  refine List.mem_map.mpr ⟨u, hu, ?_⟩
  simp [Strand.met, hw, hx, Strand.woken, hp, Strand.away, hs, hh, hv, Strand.ready]

/-- The entry of the slot once its message has come: it stays where a gang holds it. -/
theorem Claims.tok_heard {s : State} {now i n : Nat} {m : TokMsg} {k : Token} (hk : Claims.tok s i = some k) (hg : k.gang ≠ 0) :
    Claims.tok (s.modCore (fun c => c.heard now i n m)) i = some (k.apply m) := by
  refine find?_filter_of_some (Core.token?_modToken_same (fun t => t.apply_slot m) hk) ?_
  simp [Token.apply_gang, hg]

end Sys2Proof.Machine
end

section
/-!
PROOFS. CoreTraffic: the messages, replies, lines, acknowledgements and translations that reach the core in turn.
-/
namespace Sys2Proof.Machine

/-- R36, R37: the message that comes first, at an entry of the core in turn. -/
theorem tokenCompletion_self {s : State} {m : TokMsg} {r : List TokMsg} {k : Token} (hs : s.pick = 0) (hm : s.tokMsgs = m :: r) (hf : s.foremost m.unit s.core.id m.seq = true)
    (hc : hCore m.handle = s.core.id) (hk : Claims.tok s (hSlot m.handle) = some k) (hb : k.bad = false) (ha : k.arm = none) :
    exec .tokenCompletion s = .next ({ s with tokMsgs := r }.modCore (fun c => c.heard s.now (hSlot m.handle) (k.apply m).count m)) := by
  have hfirst : s.arriving (fun (m : TokMsg) => s.foremost m.unit (hCore m.handle) m.seq) s.tokMsgs = some (m, r) := by
    rw [hm]
    exact State.arriving_head hs (by rwa [hc])
  change s.event s.evToken = _
  rw [State.evToken, hfirst]
  exact congrArg Host.Outcome.next (State.applyToken_self (s := { s with tokMsgs := r }) hc rfl hk hb ha)

/-- R42: the strand in the slot, found by its gang and rank, is changed and nothing else. -/
theorem State.modStrand_slot {s : State} {gi r : Nat} (h : Claims.slotIs s gi r) (f : Strand → Strand) : s.modStrand gi r f = s.modSt f := by
  obtain ⟨⟨g, hg, hc⟩, hgi, hr, hst, hrest⟩ := h
  have hstay : ∀ u ∈ s.core.rest, (u.gang == gi && u.rank == r && u.status != .none) = false := by
    intro u hu
    have := hrest u hu
    by_cases h1 : u.gang = gi <;> simp_all
  rw [State.modStrand, hg]
  dsimp only
  rw [hc]
  dsimp only
  rw [State.modCoreAt_self rfl rfl]
  unfold State.modCore Core.modStrand State.modSt
  simp only [mapIf_eq_self hstay, hgi, hr, bne_iff_ne.mpr hst, beq_self_eq_true, Bool.and_self, if_true]

theorem State.strand?_slot {s : State} {gi r : Nat} (h : Claims.slotIs s gi r) : s.strand? gi r = some (s.core.id, s.core.st) := by
  obtain ⟨⟨g, hg, hc⟩, hgi, hr, hst, -⟩ := h
  simp [State.strand?, hg, hc, Core.strand?, hgi, hr, hst]

/-- A reply's strand without queued instructions. -/
theorem Strand.reply_empty {t : Strand} (h : t.queue = []) (r : Reply) : t.reply r = { t.replyOne r with queue := [] } := by
  simp [Strand.reply, h]

/-- R42: the reply that comes first, to the strand in the slot. -/
theorem remoteReply_slot {s : State} {r : Reply} {l : List Reply} (hs : s.pick = 0) (hr : s.replies = r :: l) (hslot : Claims.slotIs s r.gang r.rank)
    (hf : s.foremost r.unit s.core.id r.seq = true) : exec .remoteReply s = .next ({ s with replies := l }.modSt (fun t => t.reply r)) := by
  have hfirst : s.arriving (fun (r : Reply) => s.foremost r.unit (((s.strand? r.gang r.rank).map (·.1)).getD Config.cores) r.seq) s.replies = some (r, l) := by
    rw [hr]
    exact State.arriving_head hs (by rwa [State.strand?_slot hslot])
  change s.event s.evReply = _
  rw [State.evReply, hfirst]
  exact congrArg Host.Outcome.next (State.modStrand_slot (s := { s with replies := l }) hslot _)

theorem setIfInBounds_eq_set {α : Type} {n : Nat} (v : Vector α n) (q : Fin n) (x : α) : v.setIfInBounds q x = v.set q x := by
  ext i hi
  simp [Vector.getElem_set, Vector.getElem_setIfInBounds]

/-- R42, R80, R430: what a reply does to its register, and that it leaves one that awaits none. -/
theorem Strand.replyOne_pending {t : Strand} {r : Reply} {q : Fin 32} (hq : r.reg = q.val) (h0 : q.val ≠ 0) (h : t.marks[q] = .pending) :
    t.replyOne r = if r.status ≠ 0 then { t with marks := t.marks.set q (.lost r.status r.addr) }
      else if r.psn then { t with marks := t.marks.set q .poisoned } else { t with regs := t.regs.set q r.value, marks := t.marks.set q .ok } := by
  have hm : t.marks[q.val]? = some .pending := by
    rw [Vector.getElem?_eq_getElem q.isLt]
    exact congrArg some h
  simp only [Strand.replyOne, hq, hm, bne_iff_ne, ne_eq, not_true_eq_false, if_false, Strand.setMark, Strand.setReg, h0, setIfInBounds_eq_set]

theorem Strand.replyOne_other {t : Strand} {r : Reply} {q : Fin 32} (hq : r.reg = q.val) (h : t.marks[q] ≠ .pending) : t.replyOne r = t := by
  have hm : t.marks[q.val]? ≠ some .pending := by
    rw [Vector.getElem?_eq_getElem q.isLt]
    exact fun e => h (Option.some.inj e)
  rw [Strand.replyOne, hq]
  exact if_pos (bne_iff_ne.mpr hm)

/-- R280, R281: a line enters its cache first, the other lines of the cache being of those that stood there. -/
theorem mem_tail_fillSet {l : List L1Line} {x y : L1Line} (h : y ∈ (fillSet l x).tail) : y ∈ l ∧ y.line ≠ x.line := by
  have hrest : ∀ z, z ∈ l.filter (fun y => y.line != x.line) → z ∈ l ∧ z.line ≠ x.line := fun z hz => by simpa using hz
  unfold fillSet at h
  extract_lets rest same at h
  split at h
  · exact hrest y h
  · split at h
    · exact hrest y (List.mem_of_mem_filter h)
    · exact hrest y h

theorem head?_fillSet (l : List L1Line) (x : L1Line) : (fillSet l x).head? = some x := by
  unfold fillSet
  extract_lets rest same
  split
  · rfl
  · split <;> rfl

theorem mem_tail_fillI {l : List L1Line} {x y : L1Line} (h : y ∈ (fillI l x).tail) : y ∈ l ∧ y.line ≠ x.line := by
  simpa using List.mem_of_mem_take h

/-- L1_FILL for the core in turn. -/
theorem l1Fill_self {s : State} {f : L1Fill} {r : List L1Fill} (hs : s.pick = 0) (hf : s.l1Fills = f :: r) (hc : f.core = s.core.id) :
    exec .l1Fill s = .next ({ s with l1Fills := r }.modCore (fun k =>
      if f.instr then { k with icache := fillI k.icache ⟨f.line, f.data⟩ } else { k with l1 := fillSet k.l1 ⟨f.line, f.data⟩ })) := by
  change s.event s.evL1Fill = _
  rw [State.evL1Fill, State.pickFirst hs hf]
  dsimp only
  rw [State.modCoreAt_self (s := { s with l1Fills := r }) hc.symm (by split <;> rfl)]
  rfl

/-- INVALIDATION_ACK of the core in turn, for a line that no fault record waits for. -/
theorem invalidationAck_self {s : State} {v : Inval} {r : List Inval} {cs : List Nat} (hs : s.pick = 0) (hv : s.invals = v :: r) (hl : v.left = s.core.id :: cs)
    (hn : v.cls ≠ 0 ∨ v.gang = 0) :
    exec .invalidationAck s = .next { s.modCore (fun k => { k with
        l1 := k.l1.filter (fun l => l.line % 2 ^ 48 != v.line), icache := k.icache.filter (fun l => l.line % 2 ^ 48 != v.line) }) with
      l1Fills := s.l1Fills.filter (fun f => f.core != s.core.id || f.line % 2 ^ 48 != v.line)
      invals := if cs = [] then r else { v with left := cs } :: r.map (fun y => if y == v then { v with left := cs } else y) } := by
  have hcond : ¬ ((decide (v.cls = 0) && v.gang != 0) = true) := by
    rcases hn with h | h <;> simp [h]
  change s.event s.evInvalAck = _
  simp only [State.evInvalAck, hs, hv, Nat.zero_mod, List.flatMap_cons, hl, List.map_cons, List.cons_append, List.getElem?_cons_zero, State.ackInval]
  rw [State.modCoreAt_self (s := s) (c := s.core.id) rfl rfl, if_neg hcond]
  refine congrArg Host.Outcome.next ?_
  simp only [List.erase_cons_head, beq_self_eq_true, if_true, List.isEmpty_iff, Option.getD_some]

/-- A translation put first in a cache of n. -/
def Xlat.first (x : Xlat) (n : Nat) (l : List Xlat) : List Xlat := (x :: l.filter (· != x)).take n

theorem Xlat.head?_first (x : Xlat) {n : Nat} (l : List Xlat) (hn : 0 < n) : (x.first n l).head? = some x := by
  obtain ⟨k, rfl⟩ := Nat.exists_eq_succ_of_ne_zero hn.ne'
  rfl

/-- PAGE_WALK for the core in turn. -/
theorem pageWalk_self {s : State} {x : Xlat} {r : List (Nat × Xlat)} (hs : s.pick = 0) (hw : s.walks = (s.core.id, x) :: r) :
    exec .pageWalk s = .next (if (if x.big then x.page % 2 else x.page / 2 ^ 13 % 2) = 1
      then { { s with walks := r }.modCore (fun k => { k with tlb := x.first 128 k.tlb }) with hub1 := x.first Config.hubEntries s.hub1 }
      else { { s with walks := r }.modCore (fun k => { k with tlb := x.first 128 k.tlb }) with hub0 := x.first Config.hubEntries s.hub0 }) := by
  have hodd : ((if x.big then x.page % 2 == 1 else x.page / 8192 % 2 == 1) = true) = ((if x.big then x.page % 2 else x.page / 2 ^ 13 % 2) = 1) := by
    cases x.big <;> simp
  change s.event s.evPageWalk = _
  rw [State.evPageWalk, State.pickFirst hs hw]
  dsimp only
  rw [State.modCoreAt_self (s := { s with walks := r }) (c := s.core.id) rfl rfl]
  exact congrArg Host.Outcome.next (if_congr hodd.to_iff rfl rfl)

/-- Settles O37: each event by its rule for the core in turn. -/
theorem coreTraffic : Obligations.CoreTraffic := by
  unfold Obligations.CoreTraffic
  intro s hs
  refine ⟨?token, ?reply, ?fill, ?ack, ?walk⟩
  case token =>
    intro m r k hm hc hk hb ha hg hsrc hf
    rw [← hCore_eq] at hc
    rw [← hSlot_eq] at hk
    have hslot := Claims.tok_slot hk
    have happ := Token.apply_local k hsrc
    refine ⟨_, tokenCompletion_self hs hm hf hc hk hb ha, rfl, rfl, ?_, ?_, ?_⟩
    · rw [← happ, hslot]
      exact Claims.tok_heard hk hg
    · intro u hu x hw hst hh hp hv hx
      rw [hslot] at hw
      exact Core.mem_heard_of_met hu hw (by rwa [happ]) hst hh hp hv
    · intro u hu hlow
      refine Core.mem_heard_of_not_met hu ?_
      unfold Strand.met
      split
      next j thr hw =>
        by_cases hj : j = hSlot m.handle
        · have : ¬ thr ≤ (k.apply m).count := by
            rw [happ]
            exact Nat.not_le.mpr (hlow thr (by rw [hw, hj, hslot]))
          simp [this]
        · simp [hj]
      next => rfl
  case reply =>
    intro r l q hr hq h0 hslot hqueue hf
    rw [remoteReply_slot hs hr hslot hf]
    simp only [State.modSt, Strand.reply_empty hqueue]
    have hkeep : ({ s.core.st with queue := [] } : Strand) = s.core.st := by rw [← hqueue]
    by_cases hm : s.core.st.marks[q] = .pending
    · rw [Strand.replyOne_pending hq h0 hm]
      refine ⟨fun _ h1 h2 => ?_, fun _ h1 h2 => ?_, fun _ h1 => ?_, fun h => absurd hm h⟩ <;> simp_all [Claims.withSt]
    · rw [Strand.replyOne_other hq hm, hkeep]
      exact ⟨fun h => absurd h hm, fun h => absurd h hm, fun h => absurd h hm, fun _ => rfl⟩
  case fill =>
    intro f r hf hc
    refine ⟨_, l1Fill_self hs hf hc, rfl, rfl, ?_, ?_, ?_⟩
    · rw [State.modCore_core]
      split <;> rfl
    · intro hi
      rw [State.modCore_core, hi]
      exact ⟨rfl, head?_fillSet _ _, fun y hy => mem_tail_fillSet hy⟩
    · intro hi
      rw [State.modCore_core, hi]
      exact ⟨rfl, rfl, fun y hy => mem_tail_fillI hy⟩
  case ack =>
    intro v r cs hv hl hn
    refine ⟨_, invalidationAck_self hs hv hl hn, rfl, rfl, ?_, ?_, ?_, ?_⟩
    · intro y hy
      have : y.line % 2 ^ 48 != v.line := by
        rcases List.mem_append.mp hy with h | h <;> exact (List.mem_filter.mp h).2
      exact bne_iff_ne.mp this
    · intro y hy hne
      exact List.mem_filter.mpr ⟨hy, bne_iff_ne.mpr hne⟩
    · exact fun h => if_pos h
    · intro h
      simp [h]
  case walk =>
    intro x r hw
    have hwalk := pageWalk_self hs hw
    have hhub : 0 < Config.hubEntries := by decide
    by_cases h : (if x.big then x.page % 2 else x.page / 2 ^ 13 % 2) = 1
    · rw [if_pos h] at hwalk
      simp only [if_pos h]
      exact ⟨_, hwalk, rfl, rfl, rfl, x.head?_first _ (by decide), List.length_take_le _ _, x.head?_first _ hhub, rfl⟩
    · rw [if_neg h] at hwalk
      simp only [if_neg h]
      exact ⟨_, hwalk, rfl, rfl, rfl, x.head?_first _ (by decide), List.length_take_le _ _, x.head?_first _ hhub, rfl⟩

end Sys2Proof.Machine
end

section
/-!
PROOFS. RemoteAnswers: a response ends the request of its tag, SIGNAL and INCREMENT reach an entry of the core in turn.
-/
namespace Sys2Proof.Machine

/-- The only packet that has arrived may be performed. -/
theorem State.ready_single (s : State) (p : Packet) : s.ready [p] [] = [p] := by
  by_cases h : 0x100 ≤ p.typ <;> simp [State.ready, h]

/-- An event of packets performs the only packet, where it is of one of the event's types. -/
theorem State.evPacket_single {s t : State} {p : Packet} {types : List Nat} {act : State → Packet → Option State} (hs : s.pick = 0) (hrx : s.rx = [p])
    (ht : types.contains p.typ = true) (ha : act { s with rx := [] } p = some t) : s.evPacket types act = some t := by
  have he : s.rx.erase p = [] := by rw [hrx, List.erase_cons_head]
  have hr : s.ready s.rx [] = [p] := by rw [hrx, s.ready_single]
  have hact : (if types.contains p.typ then act { s with rx := s.rx.erase p } p else none) = some t := by rw [he, if_pos ht, ha]
  rw [State.evPacket, hr]
  exact nth_head hs hact

/-- R361: a response with STATUS 0 to the only request outstanding. -/
theorem State.rxResponse_single {s : State} {p : Packet} {r : Req} (hr : s.reqs = [r]) (htag : r.tag = p.tag) (hdst : r.dst = p.src) (h0 : p.d1.extractLsb' 0 8 = 0) :
    s.rxResponse p = s.answerReq r 0 0 p.payload.toNat p.d1.toNat := by
  have hd : p.d1.toNat % 256 = 0 := by simpa [BitVec.extractLsb'_toNat] using congrArg BitVec.toNat h0
  have hst : bits p.d1.toNat 7 4 = 0 := by unfold bits; omega
  have hpsn : bits p.d1.toNat 3 0 = 0 := by unfold bits; omega
  have hf : s.reqs.find? (fun r => r.tag == p.tag && r.dst == p.src) = some r := by simp [hr, htag, hdst]
  rw [State.rxResponse, hf]
  dsimp only
  rw [hst, hpsn, ite_self]

/-- A datum of n bytes in the low 8 bytes of a payload. -/
theorem payload_word {n : Nat} (hn : n ≤ 8) (x : Nat) : x % 2 ^ 64 % 256 ^ n = x % 256 ^ n := by
  have h : (256 : Nat) ^ n ∣ 2 ^ 64 := (Nat.pow_dvd_pow 256 hn).trans (by norm_num)
  exact Nat.mod_mod_of_dvd x h

/-- The handle of a token message (R34). -/
theorem packetHandle (x : Word) : BitVec.ofNat 32 (x.toNat % 2 ^ 32) = x.extractLsb' 0 32 := by
  apply BitVec.eq_of_toNat_eq
  simp [BitVec.extractLsb'_toNat]

/-- R361: SIGNAL with DEC 0 to an entry of the core in turn that nothing arms. -/
theorem State.rxSignal_self {s : State} {p : Packet} {h : BitVec 32} {i : Nat} {k : Token} (hh : p.d1.extractLsb' 0 32 = h) (hdev : hDev h = s.kdev) (hc : hCore h = s.core.id)
    (hv : isHandle h = true) (hi : hSlot h = i) (hk : Claims.tok s i = some k) (hb : k.bad = false) (ha : k.arm = none) (hdec : p.dec = false) :
    s.rxSignal p = some (s.modCore (fun c => c.heard s.now i (min (k.count + (p.d1.extractLsb' 32 32).toNat) 0xFFFFFFFF)
      ⟨2, h, (p.d1.extractLsb' 32 32).toNat, false, none, false, 1000 + p.src, 0, none⟩)) := by
  rw [State.rxSignal]
  simp only [packetHandle, hh, hdev, hv, hdec, bits_eq_extractLsb', beq_self_eq_true, Bool.and_self, if_true, Bool.false_eq_true, if_false]
  exact congrArg some (State.applyToken_self hc hi hk hb ha)

/-- R36, R361: INCREMENT of an entry of the core in turn whose pending is below its limit. -/
theorem State.rxIncrement_self {s : State} {p : Packet} {h : BitVec 32} {i : Nat} {k : Token} (hh : p.d1.extractLsb' 0 32 = h) (hdev : hDev h = s.kdev) (hc : hCore h = s.core.id)
    (hv : isHandle h = true) (hi : hSlot h = i) (hk : Claims.tok s i = some k) (hp : k.pend < 65535) :
    s.rxIncrement p = some (s.modCore (fun c => c.modToken i (fun t => t.incr (some p.src)))) := by
  have hfull : s.tokenFull h = false := by
    have ht : s.core.token? i = some k := hk
    simp only [State.tokenFull, hdev, hc, hi, State.coreAt_self, ht, beq_self_eq_true, Bool.true_and]
    exact decide_eq_false (Nat.not_le.mpr hp)
  rw [State.rxIncrement]
  simp only [packetHandle, hh, hdev, hv, hfull, hc, hi, beq_self_eq_true, Bool.and_self, Bool.not_true, Bool.false_eq_true, if_false]
  exact congrArg some (State.modCoreAt_self rfl rfl)

theorem Token.incr_slot (k : Token) (d : Option Nat) : (k.incr d).slot = k.slot := by
  unfold Token.incr
  split
  · rfl
  · split <;> rfl

/-- Settles O50: each response, and the two token messages. -/
theorem remoteAnswers : Obligations.RemoteAnswers := by
  unfold Obligations.RemoteAnswers
  intro s p hs hrx
  refine ⟨?response, ?message⟩
  case response =>
    intro r hr htag hdst h0
    have he : s.reqs.erase r = [] := by rw [hr, List.erase_cons_head]
    have hresp := State.rxResponse_single (s := { s with rx := [] }) hr htag hdst h0
    have hanswer : ∀ (typ : Nat) (t : State), p.typ = typ → { s with rx := [] }.answerReq r 0 0 p.payload.toNat p.d1.toNat = some t →
        s.evPacket [typ] State.rxResponse = some t := fun typ t ht h => State.evPacket_single hs hrx (by simp [ht]) (hresp.trans h)
    refine ⟨?_, ?_, ?_⟩
    · intro reg n sgn ad ht hk hn
      have hword := payload_word (n := n) (by revert hn; simp; omega) p.payload.toNat
      refine congrArg (fun r => State.event s r) (hanswer _ _ ht ?_)
      simp only [State.answerReq, hk, he, hword]
      rfl
    · intro reg n ad ht hk hn
      have hword := payload_word (n := n) (by revert hn; simp; omega) p.payload.toNat
      refine congrArg (fun r => State.event s r) (hanswer _ _ ht ?_)
      simp only [State.answerReq, hk, he, hword]
      rfl
    · intro cls ht hk
      refine congrArg (fun r => State.event s r) (hanswer _ _ ht ?_)
      simp only [State.answerReq, hk, he]
      rfl
  case message =>
    intro k h hdev hcore hlt hlow hk hb ha hg
    rw [← hCore_eq] at hcore
    rw [← hDev_eq] at hdev
    rw [← hSlot_eq] at hk
    have hslot := Claims.tok_slot hk
    have hv : isHandle h = true := (isHandle_iff _).mpr ⟨hlow, by rwa [← hCore_eq, hcore]⟩
    refine ⟨?_, ?_⟩
    · intro ht hdec
      have hsig := State.rxSignal_self (s := { s with rx := [] }) rfl hdev hcore hv rfl hk hb ha hdec
      have hev := State.evPacket_single (types := [0x10]) hs hrx (by rw [ht]; rfl) hsig
      refine ⟨_, congrArg (fun r => State.event s r) hev, rfl, ?_, rfl, ?_⟩
      · have happ : k.apply ⟨2, h, (p.d1.extractLsb' 32 32).toNat, false, none, false, 1000 + p.src, 0, none⟩ =
            { k with count := min (k.count + (p.d1.extractLsb' 32 32).toNat) 0xFFFFFFFF } := by
          rw [Token.apply_local _ rfl]
          simp
        rw [← happ, hslot]
        exact Claims.tok_heard (s := { s with rx := [] }) hk hg
      · intro u hu x hw hst hh hp hsv hx
        exact Core.mem_heard_of_met hu (hslot ▸ hw) hx hst hh hp hsv
    · intro ht hp hsrc hmulti
      have hinc := State.rxIncrement_self (s := { s with rx := [] }) rfl hdev hcore hv rfl hk hp
      have hev := State.evPacket_single (types := [0x11]) hs hrx (by rw [ht]; rfl) hinc
      refine ⟨_, congrArg (fun r => State.event s r) hev, rfl, ?_, rfl, rfl⟩
      have hi : k.incr (some p.src) = { k with pend := k.pend + 1, remote := k.remote + 1, source := some p.src } := by
        simp [Token.incr, hb, hmulti, hsrc]
      rw [← hi, hslot]
      exact Core.token?_modToken_same (fun t => t.incr_slot _) hk

end Sys2Proof.Machine
end

section
/-!
PROOFS. What the slices and the memory error log never touch: everything of the device but the memory system.
-/
namespace Sys2Proof.Machine

/-- The device without its memory system, the error log's counts and the inputs that free values come from. -/
def State.sansMem (s : State) : State :=
  { s with
    mem := [], memPsn := [], dead := [], l2 := [], frames := [], port := [], portPsn := [], stale := [], invals := [],
    meWr := 0, meLost := 0, mece := 0, freeCtr := 0, choices := [] }

/-- A change of the memory system alone. -/
theorem State.sansMem_update {x s : State} {mem port : Memory} {memPsn dead portPsn stale choices : List Nat} {l2 : List L2Line} {frames : List Frame} {invals : List Inval}
    {meWr meLost freeCtr : Nat} {mece : Word} (h : x.sansMem = s.sansMem) :
    ({ x with
      mem := mem, memPsn := memPsn, dead := dead, l2 := l2, frames := frames, port := port, portPsn := portPsn, stale := stale, invals := invals,
      meWr := meWr, meLost := meLost, mece := mece, freeCtr := freeCtr, choices := choices } : State).sansMem = s.sansMem := h

theorem State.core_of_sansMem {s t : State} (h : t.sansMem = s.sansMem) : t.core = s.core := by
  change t.sansMem.core = s.sansMem.core
  rw [h]

theorem State.gangs_of_sansMem {s t : State} (h : t.sansMem = s.sansMem) : t.gangs = s.gangs := by
  change t.sansMem.gangs = s.sansMem.gangs
  rw [h]

theorem sansMem_foldl {α : Type} {f : State → α → State} (h : ∀ s a, (f s a).sansMem = s.sansMem) (l : List α) (s : State) : (l.foldl f s).sansMem = s.sansMem := by
  induction l generalizing s with
  | nil => rfl
  | cons a r ih => rw [List.foldl_cons, ih, h]

theorem sansMem_ite {c : Prop} [Decidable c] {a b s : State} (ha : a.sansMem = s.sansMem) (hb : b.sansMem = s.sansMem) : (if c then a else b).sansMem = s.sansMem := by
  split
  · exact ha
  · exact hb

@[simp] theorem State.putFrame_sansMem (s : State) (f : Frame) : (s.putFrame f).sansMem = s.sansMem := rfl
@[simp] theorem State.putLine_sansMem (s : State) (line v : Nat) : (s.putLine line v).sansMem = s.sansMem := rfl
@[simp] theorem State.touchL2_sansMem (s : State) (l : L2Line) : (s.touchL2 l).sansMem = s.sansMem := rfl

@[simp] theorem State.writeFlat_sansMem (s : State) (a n v : Nat) : (s.writeFlat a n v).sansMem = s.sansMem := by
  unfold State.writeFlat
  exact sansMem_ite rfl rfl

@[simp] theorem State.logEntry_sansMem (s : State) (a d0 rest : Nat) : (s.logEntry a d0 rest).sansMem = s.sansMem :=
  State.sansMem_update (((s.writeFlat (a + 8) 24 rest).writeFlat_sansMem a 8 d0).trans (s.writeFlat_sansMem _ _ _))

@[simp] theorem State.logErr_sansMem (s : State) (asid key holder kind d1 : Nat) : (s.logErr asid key holder kind d1).sansMem = s.sansMem := by
  unfold State.logErr
  exact sansMem_ite rfl (s.logEntry_sansMem _ _ _)

@[simp] theorem State.choose_sansMem (s : State) (n : Nat) : (s.choose n).2.sansMem = s.sansMem := by
  unfold State.choose
  split
  · rfl
  · split <;> rfl

@[simp] theorem State.portWrite_sansMem (s : State) (line key v : Nat) (psn : Bool) (writer : Nat) : (s.portWrite line key v psn writer).sansMem = s.sansMem := by
  unfold State.portWrite
  split
  · exact s.logErr_sansMem _ _ _ _ _
  · split
    · exact s.logErr_sansMem _ _ _ _ _
    · rfl

@[simp] theorem State.portReadNote_sansMem (s : State) (line key asid : Nat) : (s.portReadNote line key asid).sansMem = s.sansMem := by
  unfold State.portReadNote
  exact sansMem_ite (s.logErr_sansMem _ _ _ _ _) (sansMem_ite (State.logErr_sansMem _ _ _ _ _ _) rfl)

@[simp] theorem State.frameDrop_sansMem (s : State) (f : Frame) (wb : Bool) : (s.frameDrop f wb).sansMem = s.sansMem := by
  unfold State.frameDrop State.frameWriteBack
  extract_lets line s1 s2
  have h1 : s1.sansMem = s.sansMem := sansMem_ite (s.portWrite_sansMem _ _ _ _ _) rfl
  exact sansMem_ite (State.sansMem_update h1) (State.sansMem_update h1)

@[simp] theorem State.frameTake_sansMem (s : State) (line key : Nat) (psn : Bool) (writer : Nat) : (s.frameTake line key psn writer).sansMem = s.sansMem := by
  unfold State.frameTake
  dsimp only
  change State.sansMem (match s.frameAt line with | some f => if s.frameIs f line key then s else s.frameDrop f true | none => s) = s.sansMem
  split
  · exact sansMem_ite rfl (s.frameDrop_sansMem _ _)
  · rfl

@[simp] theorem State.putCap_sansMem (s : State) (line key v : Nat) (psn : Bool) (writer : Nat) : (s.putCap line key v psn writer).sansMem = s.sansMem :=
  sansMem_ite (State.sansMem_update (s.frameTake_sansMem line key psn writer)) (State.sansMem_update (s.portWrite_sansMem line key v psn writer))

@[simp] theorem State.dropL2_sansMem (s : State) (l : L2Line) (wb : Bool) : (s.dropL2 l wb).sansMem = s.sansMem := by
  unfold State.dropL2
  exact sansMem_ite (sansMem_ite rfl rfl) (sansMem_ite (State.putCap_sansMem _ _ _ _ _ _) (sansMem_ite rfl rfl))

@[simp] theorem State.clearWay_sansMem (s : State) (line key : Nat) : (s.clearWay line key).sansMem = s.sansMem := by
  unfold State.clearWay
  extract_lets s1
  have h1 : s1.sansMem = s.sansMem := by
    unfold s1
    split
    · exact sansMem_ite rfl (s.dropL2_sansMem _ _)
    · rfl
  refine sansMem_ite h1 ?_
  split
  · exact sansMem_ite h1 ((s1.frameDrop_sansMem _ _).trans h1)
  · exact h1

@[simp] theorem State.makeRoom_sansMem (s : State) (line : Nat) : (s.makeRoom line).sansMem = s.sansMem := by
  unfold State.makeRoom
  refine sansMem_ite rfl ?_
  split
  · exact s.dropL2_sansMem _ _
  · rfl

@[simp] theorem State.fillCap_sansMem (s : State) (line key asid : Nat) (alloc : Bool) : (s.fillCap line key asid alloc).sansMem = s.sansMem := by
  have h := s.portReadNote_sansMem line key asid
  unfold State.fillCap
  exact sansMem_ite (State.sansMem_update ((State.putLine_sansMem _ _ _).trans ((State.putFrame_sansMem _ _).trans h))) (sansMem_ite ((State.putLine_sansMem _ _ _).trans h) h)

@[simp] theorem State.readCap_sansMem (s : State) (line key : Nat) (alloc : Bool) (asid : Nat) : (s.readCap line key alloc asid).sansMem = s.sansMem := by
  unfold State.readCap
  refine sansMem_ite (s.logErr_sansMem _ _ _ _ _) (sansMem_ite rfl ?_)
  extract_lets s1 s2 p s3
  have h1 : s1.sansMem = s.sansMem := s.clearWay_sansMem line key
  have h2 : s2.sansMem = s.sansMem := sansMem_ite (((s1.makeRoom line).clearWay_sansMem line key).trans ((s1.makeRoom_sansMem line).trans h1)) h1
  have h3 : s3.sansMem = s.sansMem := sansMem_ite h2 ((s2.fillCap_sansMem _ _ _ _).trans h2)
  split
  · exact (s1.touchL2_sansMem _).trans h1
  · exact sansMem_ite h2 (sansMem_ite (State.sansMem_update h3) h3)

@[simp] theorem State.readLine_sansMem (s : State) (line key : Nat) (alloc : Bool) (asid : Nat) : (s.readLine line key alloc asid).sansMem = s.sansMem := by
  unfold State.readLine
  refine sansMem_ite (s.readCap_sansMem _ _ _ _) ?_
  split
  · rfl
  · exact sansMem_ite (State.sansMem_update (s.makeRoom_sansMem line)) rfl

@[simp] theorem State.allocLine_sansMem (s : State) (line key asid : Nat) : (s.allocLine line key asid).sansMem = s.sansMem := by
  unfold State.allocLine
  extract_lets s1 s2 s3 own
  have h1 : s1.sansMem = s.sansMem := s.readLine_sansMem _ _ _ _
  have h2 : s2.sansMem = s.sansMem := by
    unfold s2
    split
    · exact (s1.dropL2_sansMem _ _).trans h1
    · exact h1
  have h3 : s3.sansMem = s.sansMem := (s2.makeRoom_sansMem line).trans h2
  exact sansMem_ite h1 (State.sansMem_update (sansMem_ite h3 (State.sansMem_update h3)))

@[simp] theorem State.readLines_sansMem (s : State) (pa key n : Nat) (alloc : Bool) (asid : Nat) : (s.readLines pa key n alloc asid).sansMem = s.sansMem :=
  sansMem_foldl (fun s l => s.readLine_sansMem l key alloc asid) _ s

@[simp] theorem State.writeLine_sansMem (s : State) (line key mask v : Nat) (psn direct : Bool) (asid : Nat) (own : Option Nat) (gang rank cls : Nat) :
    (s.writeLine line key mask v psn direct asid own gang rank cls).sansMem = s.sansMem := by
  unfold State.writeLine
  extract_lets whole s1 s2 s3 s4 s5
  have h2 : s2.sansMem = s.sansMem := State.sansMem_update rfl
  have h3 : s3.sansMem = s.sansMem := by
    unfold s3
    split
    · exact (s2.dropL2_sansMem _ _).trans h2
    · exact h2
  have h5 : s5.sansMem = s.sansMem := (s2.allocLine_sansMem line key asid).trans h2
  exact sansMem_ite (s.logErr_sansMem _ _ _ _ _) (sansMem_ite (s.logErr_sansMem _ _ _ _ _)
    (sansMem_ite (sansMem_ite ((s3.putCap_sansMem _ _ _ _ _).trans h3) (State.sansMem_update h3)) (State.sansMem_update h5)))

@[simp] theorem State.writePa_sansMem (s : State) (pa key n v bad : Nat) (direct : Bool) (asid : Nat) (own : Option Nat) (gang rank cls : Nat) :
    (s.writePa pa key n v bad direct asid own gang rank cls).sansMem = s.sansMem :=
  sansMem_foldl (fun s _ => s.writeLine_sansMem _ _ _ _ _ _ _ _ _ _ _) _ s

/-- A context's part that goes to the save area changes memory alone (R43). -/
@[simp] theorem State.spill_sansMem (s : State) (t : Strand) (kib : Nat) : (s.spill t kib).sansMem = s.sansMem := by
  unfold State.spill
  split
  · exact sansMem_foldl (fun s _ => State.sansMem_update (s.writePa_sansMem _ _ _ _ _ _ _ _ _ _ _)) _ s
  · rfl

end Sys2Proof.Machine
end

section
/-!
PROOFS. Rules about an instruction's operands and its completion, as the claims name them: unmarked operands pass their check, sound K-registers theirs, and the strand in the slot after an instruction.
-/
namespace Sys2Proof.Machine

theorem State.chkRegs_clean {s : State} {rs : List (BitVec 5)} (h : Claims.Clean s rs) : s.chkRegs rs = .ok := by
  induction rs with
  | nil => rfl
  | cons r rs ih =>
    rw [State.chkRegs, State.chkReg_ok s r (h r (by simp)), Chk.andThen_ok]
    exact ih (fun q hq => h q (by simp [hq]))

theorem Claims.Clean.mono {s : State} {rs qs : List (BitVec 5)} (h : Claims.Clean s rs) (hsub : ∀ q ∈ qs, q ∈ rs) : Claims.Clean s qs := fun q hq => h q (hsub q hq)

/-- R70, R412: what the check of a K-register finds is whether an error has struck it. -/
theorem State.kBad_eq_struck (s : State) (k : Nat) : s.kBad k = Claims.struck s k := by
  simp [State.kBad, Claims.struck, kOfGang, kOfCore, kOfDevice]

theorem State.chkK_sound {s : State} {ks : List Nat} (h : Claims.kSound s ks) : s.chkK ks = .ok := by
  have : ks.any s.kBad = false := by
    rw [List.any_eq_false]
    intro k hk
    simp [State.kBad_eq_struck, h k hk]
  rw [State.chkK, this]
  rfl

/-- The strand after an instruction of the vector queue's order. -/
theorem State.finishQ_eq (s : State) : s.finishQ = Claims.withSt s (Claims.doneQ s.core.st) := by
  cases h : s.core.st.resFirst <;> simp [State.finishQ, State.modSt, Claims.withSt, Claims.doneQ, h]

theorem State.finish_eq (s : State) : s.finish = Claims.withSt s (Claims.stepped s.core.st) := rfl

theorem State.setReg_eq (s : State) (d : BitVec 5) (v : Word) :
    s.setReg d v = Claims.withSt s (if d = 0 then s.core.st else { s.core.st with regs := s.core.st.regs.set d.toNat v, marks := s.core.st.marks.set d.toNat .ok }) :=
  s.setReg_eq_modSt d v

theorem State.finishQ_setReg (s : State) (d : BitVec 5) (v : Word) : (s.setReg d v).finishQ = Claims.withSt s (Claims.doneQWith s.core.st d v) := by
  rw [State.finishQ_eq, State.setReg_eq]
  rfl

/-- A handle operand is the low half of its register (R221). -/
theorem State.handle_eq (s : State) (r : BitVec 5) : s.handle r = (s.reg r).extractLsb' 0 32 := by
  exact BitVec.eq_of_toNat_eq (by simp [State.handle, BitVec.extractLsb'_toNat])

end Sys2Proof.Machine
end

section
/-!
PROOFS. TokensAndWaits: the token instructions on own tokens, and the two that suspend.
-/
namespace Sys2Proof.Machine

/-- R34, R222: the fields of an own token's handle. -/
theorem ownHandle_fields {s : State} {r : BitVec 5} {k : Token} (h : Claims.ownHandle s r k) :
    isHandle (s.handle r) = true ∧ hDev (s.handle r) = s.kdev ∧ hCore (s.handle r) = s.core.id ∧ hSlot (s.handle r) = k.slot := by
  obtain ⟨hd, hc, hk, hn, -, -, -⟩ := h
  have hb : (s.handle r).toNat = s.kdev * 2 ^ 23 + s.core.id * 2 ^ 14 + k.slot * 2 ^ 6 := by rw [State.handle_eq, hn]
  have hcore : hCore (s.handle r) = s.core.id := by
    rw [hCore, BitVec.toNat_ushiftRight, Nat.shiftRight_eq_div_pow, hb]
    omega
  refine ⟨?_, ?_, hcore, ?_⟩
  · have h1 : (s.handle r).toNat % 64 = 0 := by omega
    rw [isHandle, hcore, h1, decide_eq_true hc]
    rfl
  · rw [hDev, BitVec.toNat_ushiftRight, Nat.shiftRight_eq_div_pow, hb]
    omega
  · rw [hSlot, BitVec.toNat_ushiftRight, Nat.shiftRight_eq_div_pow, hb]
    omega

theorem State.ownToken_own {s : State} {r : BitVec 5} {k : Token} (h : Claims.ownHandle s r k) : s.ownToken (s.handle r) = some k := by
  obtain ⟨hv, hdev, hcore, hslot⟩ := ownHandle_fields h
  obtain ⟨-, -, -, -, hfind, hg, hg0⟩ := h
  have ht : s.core.token? k.slot = some k := hfind
  simp only [State.ownToken, hv, hdev, hcore, hslot, ht, beq_self_eq_true, Bool.and_self, if_true, Option.bind_some]
  simp [hg, hg ▸ hg0]

theorem State.withToken_own {s : State} {r : BitVec 5} {k : Token} {errors : Bool} (h : Claims.ownHandle s r k) (hb : errors = true → k.bad = false) (f : Token → Out) :
    s.withToken (s.handle r) errors f = f k := by
  rw [State.withToken, State.ownToken_own h]
  cases errors
  · rfl
  · simp [hb rfl]

theorem Core.mem_freeTokens {k : Core} {i : Nat} : i ∈ k.freeTokens ↔ i < 256 ∧ k.token? i = none := by
  simp [Core.freeTokens, Config.tokenSlots]

/-- R223: an entry is free, and TKNEW takes one of the free entries. -/
theorem State.newToken_free {s : State} {d : BitVec 5} (h : s.core.freeTokens ≠ []) :
    ∃ i cs m, i ∈ s.core.freeTokens ∧ s.newToken d = (({ s with choices := cs, freeCtr := m }).modCore (fun k => { k with tokens := k.tokens ++ [Token.fresh i s.core.st.gang] })).setReg d
      ((handleOf s.kdev s.core.id i).setWidth 64) := by
  have hlen : 0 < s.core.freeTokens.length := List.length_pos_iff.mpr h
  obtain ⟨cs, m, hs⟩ := s.choose_snd s.core.freeTokens.length
  have hc := s.choose_lt hlen
  refine ⟨s.core.freeTokens[(s.choose s.core.freeTokens.length).1], cs, m, List.getElem_mem hc, ?_⟩
  have he : s.core.freeTokens.isEmpty = false := by simpa using h
  rw [State.newToken]
  simp only [he, hs, List.getElem?_eq_getElem hc]
  rfl

/-- A new entry is found under its slot, and the others stay. -/
theorem Core.token?_append {k : Core} {i j : Nat} {gang : Nat} (h : k.token? i = none) :
    ({ k with tokens := k.tokens ++ [Token.fresh i gang] } : Core).token? j = if j = i then some (Token.fresh i gang) else k.token? j := by
  rw [Core.token?, List.find?_append]
  change (k.token? j).or _ = _
  by_cases hj : j = i
  · rw [hj, h, if_pos rfl]
    simp [Token.fresh]
  · rw [if_neg hj]
    have : ¬ i = j := fun e => hj e.symm
    simp [Token.fresh, this]

/-- R225: an armed entry whose count is below its threshold forwards nothing. -/
theorem State.forwardToken_below {s : State} {c i n : Nat} {k : Token} {h : BitVec 32} (ht : (s.coreAt c).token? i = some k) (ha : k.arm = some (h, n)) (hn : k.count < n) :
    s.forwardToken c i = s := by
  simp only [State.forwardToken, ht, ha, if_pos hn]

/-- An entry armed (R225). -/
def Token.armed (h : BitVec 32) (n : Nat) (t : Token) : Token := { t with arm := some (h, n) }

theorem State.forwardToken_armed {s : State} {i n : Nat} {k : Token} {h : BitVec 32} (hk : Claims.tok s i = some k) (hn : k.count < n) :
    (s.modCore (fun c => c.modToken i (Token.armed h n))).forwardToken s.core.id i = s.modCore (fun c => c.modToken i (Token.armed h n)) := by
  refine State.forwardToken_below (k := k.armed h n) ?_ rfl hn
  rw [State.coreAt_modCore (c := s.core.id) rfl]
  exact Core.token?_modToken_same (f := Token.armed h n) (fun _ => rfl) hk

/-- R224: an entry freed. -/
theorem Core.token?_free {k : Core} {i j : Nat} : ({ k with tokens := k.tokens.filter (fun x => x.slot != i) } : Core).token? j = if j = i then none else k.token? j := by
  unfold Core.token?
  dsimp only
  split
  next h => simp [h, List.find?_filter]
  next h => exact find?_filter_eq (fun x hx => by simp_all)

/-- The claim on a state in which one token of the core in turn is changed and the instruction has completed. -/
theorem tokenNow_modToken {s : State} {i : Nat} {k : Token} {f : Token → Token} {u : Strand} (hf : ∀ t, (f t).slot = t.slot) (hk : Claims.tok s i = some k) :
    Claims.tokenNow s (Claims.withSt (s.modCore (fun c => c.modToken i f)) u) i (some (f k)) u :=
  ⟨Core.token?_modToken_same (k := s.core) hf hk, fun _ hj => Core.token?_modToken_other (k := s.core) hf hj, rfl⟩

theorem Strand.anyPending_false {t : Strand} (h : ∀ r : Fin 32, t.marks[r] ≠ .pending) : t.anyPending = false := by
  rw [Strand.anyPending, List.any_eq_false]
  intro m hmem
  obtain ⟨i, hi, rfl⟩ := Vector.mem_iff_getElem.mp (Vector.mem_toList_iff.mp hmem)
  simpa using h ⟨i, hi⟩

/-- R305: an AMO with AQ 1 that is not outstanding holds nothing back. -/
theorem State.acqWait_of_noAcquire {s : State} (h : Claims.noAcquire s) : s.acqWait = false := by
  unfold State.acqWait
  cases ha : s.core.st.acq with
  | false => rfl
  | true =>
    obtain ⟨hm, hi, hr, hq⟩ := h ha
    simp [State.scalarBusy, State.strandBusy, Strand.anyPending_false hm, hi, hr, hq]

theorem State.scalarBusy_quiet {s : State} (h : Claims.Calm s) : s.scalarBusy = false := by
  have hmarks : s.core.st.anyPending = false := Strand.anyPending_false h.marks
  simp [State.scalarBusy, State.strandBusy, hmarks, h.invals, h.replies, h.reqs]

/-- R304: with nothing outstanding, every earlier scalar and vector access is performed at any scope but the strand's. -/
theorem State.performed_quiet {s : State} (h : Claims.Quiet s) {scope : Nat} (hs : scope ≠ 0) : s.performed 15 scope = true := by
  obtain ⟨hq, ho⟩ := h.held
  have hbuf : s.buffered s.core.st.gang s.core.st.rank = false := by simp [State.buffered, Strand.heldOps, h.sb, hq, ho]
  have hun : ∀ cls, s.unacked s.core.st.gang s.core.st.rank cls = false := by
    intro cls
    simp [State.unacked, h.invals, h.ctl, h.reqs]
  have hb : bit 15 4 = false := by decide
  simp [State.performed, hq, State.scalarBusy_quiet h.toCalm, hbuf, hun, hs, hb]

/-- R36: a signal to a token of this device is on its way, last of all. -/
theorem State.toToken_signal {s : State} {m : TokMsg} (asid : Nat) (hd : hDev m.handle = s.kdev) (hk : m.kind = 2) : s.toToken m asid = { s with tokMsgs := s.tokMsgs ++ [{ m with seq := s.stamp }] } := by
  simp [State.toToken, hd, hk]

/-- R39, R46: a suspension whose image finds room. -/
theorem suspended_suspend {s : State} {w : Wait} {live : Word} {pc : Pc} (h : Claims.hasRoom s live) : Claims.suspended s (s.suspend w live pc s.core.st.pc) w live pc := by
  obtain ⟨im, him⟩ := Option.isSome_iff_exists.mp h
  have hroom : s.findRoom s.core { s.core.st with live := live, pc := pc, waitPc := s.core.st.pc, wait := w, zeroing := true }
      { s.core.st with live := live, pc := pc, waitPc := s.core.st.pc, wait := w, zeroing := true }.liveBytes = some im := him
  have hcore : (s.spill s.core.st im.saveKiB).core = s.core := State.core_of_sansMem (s.spill_sansMem s.core.st im.saveKiB)
  have hcycles : ∀ n, 0 < im.cycles n := fun n => by
    unfold Image.cycles
    dsimp only
    omega
  unfold State.suspend
  simp only [hroom, State.leaveSlot]
  refine ⟨rfl, ⟨_, Nat.lt_add_of_pos_right (hcycles _), rfl⟩, ?_⟩
  rw [State.modCore_core, hcore]
  refine ⟨_, rfl, ?_⟩
  cases w <;> exact ⟨rfl, rfl, rfl, rfl, rfl, rfl, rfl, rfl, rfl, rfl, rfl, rfl, rfl, rfl, rfl, rfl⟩

theorem State.chkLive_ok {s : State} {d : BitVec 5} (h : d = 0 → Claims.kSound s [3]) : s.chkLive d = .ok := by
  unfold State.chkLive
  split
  next hd => exact State.chkK_sound (h hd)
  next => rfl

/-- Only live sets whose bits 63 to 48 are zero are taken (R40). -/
theorem liveSet_reserved {s : State} {d : BitVec 5} (h : (Claims.liveOf s d).extractLsb' 48 16 = 0) : (bits (s.liveSet d).toNat 63 48 != 0) = false := by
  have hl : s.liveSet d = Claims.liveOf s d := rfl
  rw [hl, bits_eq_extractLsb', h]
  rfl

theorem inUser_of_maySuspend {t : Strand} : (t.kMode || t.uin) = true ↔ ¬ Claims.maySuspend t := by
  unfold Strand.kMode Strand.uin Claims.maySuspend
  cases t.kstatus.getLsbD 0 <;> cases t.kstatus.getLsbD 2 <;> simp

/-- R223: TKNEW with s0 where an entry is free, and where none is. -/
theorem tknew_zero (s : State) (d : BitVec 5) : exec (.tknew d 0) s = .next (s.newToken d).finishQ := rfl

theorem State.newToken_full {s : State} {d : BitVec 5} (h : s.core.freeTokens = []) : s.newToken d = s.setReg d (BitVec.allOnes 64) := by
  simp [State.newToken, h]

/-- R223 to R227. -/
theorem tokenInstructions_hold : Claims.tokenInstructions := by
  intro s d a b k hclean
  have hca : s.chkRegs [a] = .ok := State.chkRegs_clean (Claims.Clean.mono hclean (by simp))
  have hcab : s.chkRegs [a, b] = .ok := State.chkRegs_clean hclean
  have hfree : ∀ j, j ∈ s.core.freeTokens ↔ j < 256 ∧ Claims.tok s j = none := fun j => Core.mem_freeTokens
  refine ⟨?new, ?full, ?own⟩
  case new =>
    rintro ⟨j, hj⟩
    obtain ⟨i, cs, m, hi, hnew⟩ := State.newToken_free (d := d) (List.ne_nil_of_mem ((hfree j).mpr hj))
    obtain ⟨hlt, hnone⟩ := (hfree i).mp hi
    refine ⟨i, _, hlt, hnone, tknew_zero s d, ?_, ?_, ?_, ?_⟩ <;> rw [hnew, State.finishQ_setReg]
    · exact (Core.token?_append hnone).trans (if_pos rfl)
    · intro q hq
      exact (Core.token?_append hnone).trans (if_neg hq)
    · have hw : (handleOf s.kdev s.core.id i).setWidth 64 = BitVec.ofNat 64 ((s.kdev * 2 ^ 23 + s.core.id * 2 ^ 14 + i * 2 ^ 6) % 2 ^ 32) :=
        BitVec.eq_of_toNat_eq (by simp [handleOf])
      rw [hw]
      rfl
    · rfl
  case full =>
    intro hall
    have hnil : s.core.freeTokens = [] := List.eq_nil_iff_forall_not_mem.mpr (fun j hj => hall j ((hfree j).mp hj).1 ((hfree j).mp hj).2)
    rw [tknew_zero, State.newToken_full hnil, State.finishQ_setReg]
  case own =>
    intro hown
    obtain ⟨hv, hdev, hcore, hslot⟩ := ownHandle_fields hown
    have hk : Claims.tok s k.slot = some k := hown.2.2.2.2.1
    refine ⟨?_, ?_, ?_, ?_, ?_⟩
    · intro hb hacq
      have hlate : b2n k.late * 2 ^ 63 = if k.late then 2 ^ 63 else 0 := by cases k.late <;> rfl
      change s.given (s.chkRegs [a]) (s.withToken (s.handle a) true _) = _
      rw [hca, State.given_ok, State.withToken_own hown (fun _ => hb), State.acqWait_of_noAcquire hacq, hlate]
      exact congrArg Host.Outcome.next (State.finishQ_setReg _ _ _)
    · intro hb hp ha
      refine ⟨_, ?_, tokenNow_modToken (f := fun t => { t with count := 0, late := false, arm := none }) (fun _ => rfl) hk⟩
      change (if a = 0 then _ else s.given (s.chkRegs [a]) (s.withToken (s.handle a) true _)) = _
      rw [if_neg ha, hca, State.given_ok, State.withToken_own hown (fun _ => hb), hp, ← State.handle_eq]
      exact congrArg Host.Outcome.next (State.finishQ_setReg _ _ _)
    · intro hb hp hw
      have hlone : s.core.awaited k.slot = false := by
        rw [Core.awaited, List.any_eq_false]
        intro u hu
        split
        next i n hi => simpa using fun e => hw u hu n (by rw [hi, e])
        next => simp
      refine ⟨Claims.withSt (s.modCore (fun c => { c with tokens := c.tokens.filter (fun x => x.slot != k.slot) })) (Claims.doneQ s.core.st), ?_, ?_, ?_, rfl⟩
      · change s.given (s.chkRegs [a]) (s.withToken (s.handle a) true _) = _
        rw [hca, State.given_ok, State.withToken_own hown (fun _ => hb), hp, hlone]
        exact congrArg Host.Outcome.next (State.finishQ_eq _)
      · exact Core.token?_free.trans (if_pos rfl)
      · exact fun j hj => Core.token?_free.trans (if_neg hj)
    · intro hh hc
      refine ⟨_, ?_, tokenNow_modToken (f := Token.armed ((s.reg b).extractLsb' 32 32) ((s.reg b).extractLsb' 0 32).toNat) (fun _ => rfl) hk⟩
      have hlow : bits (s.reg b).toNat 31 0 = ((s.reg b).extractLsb' 0 32).toNat := bits_eq_extractLsb' _ _ _
      change s.given (s.chkRegs [a, b]) (s.withToken (s.handle a) false _) = _
      rw [hcab, State.given_ok, State.withToken_own hown (fun h => absurd h (by decide)), hlow]
      simp only [hh, Bool.not_true, Bool.false_eq_true, if_false]
      change Host.Outcome.next ((s.modCore (fun c => c.modToken k.slot (Token.armed _ _))).forwardToken s.core.id k.slot).finishQ = _
      rw [State.forwardToken_armed hk hc]
      exact congrArg Host.Outcome.next (State.finishQ_eq _)
    · intro hq
      have hsig := State.toToken_signal (s := s) (m := ⟨2, s.handle a, bits (s.reg b).toNat 31 0, false, none, false, s.core.id, 0, none⟩) s.asid hdev rfl
      change s.given (s.chkRegs [a, b]) _ = _
      rw [hcab, State.given_ok]
      simp only [hv, hdev, hcore, State.performed_quiet hq (by decide : 1 ≠ 0), beq_self_eq_true, bne_self_eq_false, Bool.false_and, Bool.not_true, Bool.false_eq_true, if_true, if_false]
      rw [hsig, State.finishQ_eq, hq.toks, State.handle_eq, bits_eq_extractLsb']
      rfl

/-- R39 and R228. -/
theorem awaitAndYield_hold : Claims.awaitAndYield := by
  intro s d a b k hclean hk3 hlive
  have hcd : (s.chkRegs [d]).andThen (s.chkLive d) = .ok := by
    rw [State.chkRegs_clean (Claims.Clean.mono hclean (by simp)), State.chkLive_ok hk3]
    rfl
  have hcabd : (s.chkRegs [a, b, d]).andThen (s.chkLive d) = .ok := by
    rw [State.chkRegs_clean hclean, State.chkLive_ok hk3]
    rfl
  have hres := liveSet_reserved hlive
  have huser : Claims.maySuspend s.core.st → (s.core.st.kMode || s.core.st.uin) = false := fun h => by
    rw [← Bool.not_eq_true, inUser_of_maySuspend, not_not]
    exact h
  have hyield : Claims.maySuspend s.core.st → exec (.yield d) s = .next (s.suspend .none (Claims.liveOf s d) (s.core.st.pc + 4) s.core.st.pc) := by
    intro h
    change s.given ((s.chkRegs [d]).andThen (s.chkLive d)) _ = _
    rw [hcd, State.given_ok, huser h, hres]
    rfl
  have hawait : ∀ h : Claims.ownHandle s a k, k.bad = false → Claims.noAcquire s → Claims.maySuspend s.core.st → exec (.await d a b) s =
      if ((s.reg b).extractLsb' 0 32).toNat ≤ k.count then .next s.finish
      else .next (s.suspend (.token k.slot ((s.reg b).extractLsb' 0 32).toNat) (Claims.liveOf s d) (s.core.st.pc + 4) s.core.st.pc) := by
    intro hown hb hacq h
    have hlow : bits (s.reg b).toNat 31 0 = ((s.reg b).extractLsb' 0 32).toNat := bits_eq_extractLsb' _ _ _
    change s.given ((s.chkRegs [a, b, d]).andThen (s.chkLive d)) _ = _
    rw [hcabd, State.given_ok]
    simp only [huser h, hres, Bool.false_eq_true, if_false]
    rw [State.withToken_own hown (fun _ => hb), State.acqWait_of_noAcquire hacq, hlow]
    rfl
  refine ⟨?_, ?_, ?_⟩
  · intro h
    have hk := inUser_of_maySuspend.mpr h
    constructor
    · change s.given ((s.chkRegs [d]).andThen (s.chkLive d)) _ = _
      rw [hcd, State.given_ok, hk]
      rfl
    · change s.given ((s.chkRegs [a, b, d]).andThen (s.chkLive d)) _ = _
      rw [hcabd, State.given_ok, ← State.handle_eq]
      simp only [hk, if_true]
  · intro h hroom
    refine ⟨⟨_, hyield h, suspended_suspend hroom⟩, fun hown hb hacq hlow => ⟨_, ?_, suspended_suspend hroom⟩⟩
    rw [hawait hown hb hacq h, if_neg (Nat.not_le.mpr hlow)]
  · intro h hown hb hacq hle
    rw [hawait hown hb hacq h, if_pos hle, State.finish_eq]

/-- Settles O34: the token instructions, and AWAIT and YIELD. -/
theorem tokensAndWaits : Obligations.TokensAndWaits := ⟨tokenInstructions_hold, awaitAndYield_hold⟩

end Sys2Proof.Machine
end

section
/-!
PROOFS. ChecksBeforeEffects, operand marks and the checks before a vector instruction.
-/
namespace Sys2Proof.Machine

/-- R138: every row of the table of three-register instructions reads its two sources, and nothing before them. -/
theorem aluTable_exec {p : (BitVec 5 → BitVec 5 → BitVec 5 → Instr) × (Word → Word → Word)} (hp : p ∈ Claims.aluTable) (s : State) (d a b : BitVec 5) :
    ∃ k, exec (p.1 d a b) s = s.given (s.chkRegs [a, b]) k := by
  simp only [Claims.aluTable, List.mem_cons, List.not_mem_nil, or_false] at hp
  rcases hp with rfl | rfl | rfl | rfl | rfl | rfl | rfl | rfl | rfl | rfl | rfl | rfl | rfl | rfl | rfl | rfl | rfl | rfl | rfl | rfl | rfl | rfl | rfl <;>
    exact ⟨_, rfl⟩

/-- R150: so does every branch. -/
theorem branchTable_exec {p : (BitVec 5 → BitVec 5 → BitVec 12 → Instr) × (Word → Word → Bool)} (hp : p ∈ Claims.branchTable) (s : State) (a b : BitVec 5) (o : BitVec 12) :
    ∃ k, exec (p.1 a b o) s = s.given (s.chkRegs [a, b]) k := by
  simp only [Claims.branchTable, List.mem_cons, List.not_mem_nil, or_false] at hp
  rcases hp with rfl | rfl | rfl | rfl | rfl | rfl <;> exact ⟨_, rfl⟩

theorem State.chkReg_mark {s : State} {r : BitVec 5} (h : r ≠ 0) : s.chkReg r = match s.core.st.marks[r.toNat] with
    | .ok => .ok
    | .pending => .stall
    | .queued _ => .stall
    | .poisoned => .trap 0x09 0 none
    | .lost st addr => .trap (if st = 1 then 0x0E else 0x07) addr none := if_neg h

/-- Of two registers the first that does not pass decides. -/
theorem State.chkRegs_first {s : State} {a b r : BitVec 5} (hr : r = a ∨ (r = b ∧ Claims.Clean s [a])) (h : s.chkReg r ≠ .ok) : s.chkRegs [a, b] = s.chkReg r := by
  have hand : ∀ c q : Chk, c ≠ .ok → c.andThen q = c := fun c q hc => by cases c <;> trivial
  rcases hr with rfl | ⟨rfl, hclean⟩
  · exact hand _ _ h
  · rw [State.chkRegs, State.chkReg_ok s a (hclean a (by simp)), Chk.andThen_ok, State.chkRegs, hand _ _ h]

/-- R80, R42 and R430. -/
theorem operandMarks_hold : Claims.operandMarks := by
  intro s d a b o i hi r h0 hr
  obtain ⟨k, hk⟩ : ∃ k, exec i s = s.given (s.chkRegs [a, b]) k := by
    rcases hi with ⟨p, hp, rfl⟩ | ⟨p, hp, rfl⟩
    · exact aluTable_exec hp s d a b
    · exact branchTable_exec hp s a b o
  rw [hk]
  refine ⟨fun hm => ?_, fun hm => ?_, fun st ad hm => ?_⟩ <;>
    · have hc := s.chkReg_mark h0
      rw [hm] at hc
      rw [State.chkRegs_first hr (by rw [hc]; simp), hc]
      rfl

/-- R164, R176: the vector-vector form of every row of the table runs behind the front checks, with the element types of its row. -/
theorem vintTable_exec {p} (hp : p ∈ Claims.vintTable) (s : State) (d a b : BitVec 5) (m : BitVec 3) :
    ∃ k, exec (p.1 d a b m) s = s.vrun [] ((if p.2.2.1 then Accepts.any else .ints).ok s.et) [m] k := by
  simp only [Claims.vintTable, List.mem_cons, List.not_mem_nil, or_false] at hp
  rcases hp with rfl | rfl | rfl | rfl | rfl | rfl | rfl | rfl | rfl | rfl | rfl | rfl | rfl | rfl | rfl | rfl | rfl <;> exact ⟨_, rfl⟩

theorem State.chkK_struck {s : State} {ks : List Nat} (h : ¬ Claims.kSound s ks) : s.chkK ks = .trap 0x09 0 none := by
  have : ks.any s.kBad = true := by
    unfold Claims.kSound at h
    push Not at h
    obtain ⟨k, hk, hs⟩ := h
    exact List.any_eq_true.mpr ⟨k, hk, by simpa [State.kBad_eq_struck] using hs⟩
  rw [State.chkK, this]
  rfl

/-- KVTYPE.ILL (R62). -/
theorem kIll_eq (k : Word) : kIll k = k.getLsbD 63 := by
  simp [kIll, bit, BitVec.getLsbD, Nat.testBit, Nat.shiftRight_eq_div_pow]

/-- R60: a governing mask without a bit below VL is all-false. -/
theorem State.allFalse_of {s : State} {m : BitVec 3} (hm : m ≠ 0) (h : ∀ i < s.core.st.vl, (s.core.st.masks[m.toNat]).getLsbD i = false) : s.allFalse m = true := by
  have hz : (s.maskOf m).toNat % 2 ^ s.vl = 0 := by
    refine Nat.eq_of_testBit_eq (fun i => ?_)
    rw [Nat.testBit_mod_two_pow, Nat.zero_testBit]
    by_cases hi : i < s.vl
    · have := h i hi
      simp only [BitVec.getLsbD] at this
      simp [State.maskOf, this]
    · simp [hi]
  rw [State.allFalse, hz, bne_iff_ne.mpr hm]
  rfl

/-- R165, R164, R60 and R412. -/
theorem vectorFrontChecks_hold : Claims.vectorFrontChecks := by
  intro s d a b m p hp
  obtain ⟨k, hk⟩ := vintTable_exec hp s d a b m
  rw [hk]
  have hfront : ∀ range, s.vfront [] range = (s.chkK [4, 5]).andThen ((Chk.unless (!s.core.st.kvtype.getLsbD 63) 0x04 0).andThen (Chk.unless range 0x01 0)) := fun range => by
    rw [State.vfront, kIll_eq]
    rfl
  unfold State.vrun
  rw [hfront]
  refine ⟨fun hs => ?_, fun hs => ?_⟩
  · rw [State.chkK_struck hs]
    rfl
  · rw [State.chkK_sound hs, Chk.andThen_ok]
    refine ⟨fun hill => ?_, fun hill hints het => ?_, fun hill hok hm hbad hall => ?_⟩
    · rw [hill]
      rfl
    · have hno : Accepts.ints.ok s.et = false := by
        simp only [Accepts.ok, Bool.or_eq_false_iff, beq_eq_false_iff_ne]
        omega
      rw [hill, hints, if_neg Bool.false_ne_true, hno]
      rfl
    · have hyes : (if p.2.2.1 then Accepts.any else .ints).ok s.et = true := by
        rcases hok with h | h
        · rw [h]
          rfl
        · split
          · rfl
          · unfold Claims.etInts at h
            simp only [Accepts.ok, Bool.or_eq_true, beq_iff_eq]
            omega
      have hgov : s.chkGov m = .ok := by
        rw [State.chkGov, if_neg hm, State.chkMask, hbad]
        rfl
      rw [hill, hyes]
      simp only [Bool.not_false, Chk.unless_true, Chk.andThen_ok, State.given_ok, List.foldl_cons, List.foldl_nil, hgov, List.any_cons, State.allFalse_of hm hall, Bool.true_or, if_true]

/-- What a scalar access asks of its page, and the cause of its misalignment, by whether it reads and writes (R155, R160). -/
def accKind (rd wr : Bool) : Acc := if rd && wr then .amo else if rd then .load else .store
def misalignCause (rd wr : Bool) : BitVec 8 := if rd && wr then 0x06 else 0x05

/-- R155: the effective address with an offset in units of the access. -/
theorem State.eaOff_eq (s : State) (b : BitVec 5) (o : BitVec 12) (n : Nat) : s.eaOff b o n = Claims.ea s b o n := by
  rw [Claims.ea, Claims.narrow, BitVec.ofInt_add, BitVec.ofInt_mul, BitVec.ofInt_toInt, BitVec.ofInt_natCast]
  rfl

/-- R155: the effective address with a scaled index. -/
theorem State.eaIdx_eq (s : State) (a b : BitVec 5) (c : BitVec 2) : s.eaIdx a b c = s.reg a + BitVec.ofNat 64 ((s.reg b).toNat * 2 ^ c.toNat) := by
  have h : s.reg b <<< c.toNat = BitVec.ofNat 64 ((s.reg b).toNat * 2 ^ c.toNat) := BitVec.eq_of_toNat_eq (by simp [Nat.shiftLeft_eq])
  rw [State.eaIdx, h]

theorem isLoad_exec {s : State} {i : Instr} {d : BitVec 5} {ea : Word} {rs : List (BitVec 5)} {n : Nat} {sgn : Bool} (h : Claims.IsLoad s i d ea rs n sgn) :
    exec i s = s.load rs d ea n sgn := by
  cases h with
  | base d b o p h =>
    simp only [Claims.loadTable, List.mem_cons, List.not_mem_nil, or_false] at h
    rcases h with rfl | rfl | rfl | rfl | rfl | rfl | rfl <;> exact congrArg (fun ea => s.load [b] d ea _ _) (s.eaOff_eq b o _)
  | idx d a b c p h =>
    simp only [Claims.ldxTable, List.mem_cons, List.not_mem_nil, or_false] at h
    rcases h with rfl | rfl | rfl | rfl | rfl | rfl | rfl <;> exact congrArg (fun ea => s.load [a, b] d ea _ _) (s.eaIdx_eq a b c)

theorem isStore_exec {s : State} {i : Instr} {r : BitVec 5} {ea : Word} {rs : List (BitVec 5)} {n : Nat} (h : Claims.IsStore s i r ea rs n) :
    exec i s = s.store rs r ea n := by
  cases h with
  | base r b o p h =>
    simp only [Claims.storeTable, List.mem_cons, List.not_mem_nil, or_false] at h
    rcases h with rfl | rfl | rfl | rfl <;> exact congrArg (fun ea => s.store [b, r] r ea _) (s.eaOff_eq b o _)
  | idx r a b c z => exact congrArg (fun ea => s.store [a, b, r] r ea _) (s.eaIdx_eq a b c)

theorem isAmo_exec {p} (hp : p ∈ Claims.amoTable) (s : State) (d a b : BitVec 5) (w q r : BitVec 1) (c : BitVec 3) : ∃ op, exec (p.1 d a b w q r c) s = s.amo d a b w q r c op := by
  simp only [Claims.amoTable, List.mem_cons, List.not_mem_nil, or_false] at hp
  rcases hp with rfl | rfl | rfl | rfl | rfl | rfl | rfl | rfl | rfl | rfl <;> exact ⟨_, rfl⟩

/-- Every scalar access checks some of its operand registers, then does the checks of R155 and R160 for its kind. -/
theorem isAccess_exec {s : State} {i : Instr} {ea : Word} {rs : List (BitVec 5)} {n : Nat} {rd wr : Bool} (h : Claims.IsAccess s i ea rs n rd wr) (hc : Claims.Clean s rs) :
    (rd || wr) = true ∧ ∃ f, exec i s = s.scalarAccess ea n (misalignCause rd wr) (accKind rd wr) ⟨rd, wr, false⟩ f := by
  cases h with
  | load i d ea rs n sgn h => exact ⟨rfl, _, by rw [isLoad_exec h, State.load, State.chkRegs_clean hc, State.given_ok]; rfl⟩
  | store i r ea rs n h => exact ⟨rfl, _, by rw [isStore_exec h, State.store, State.chkRegs_clean hc, State.given_ok]; rfl⟩
  | amo d a b w q r c p h =>
    obtain ⟨op, hop⟩ := isAmo_exec h s d a b w q r c
    have hregs : s.chkRegs (if op = 9 then [a, b, d] else [a, b]) = .ok := by
      split
      · exact State.chkRegs_clean hc
      · exact State.chkRegs_clean (Claims.Clean.mono hc (by simp))
    exact ⟨rfl, _, by rw [hop, State.amo, hregs, State.given_ok]; rfl⟩

/-- R155, R160, R420. -/
theorem scalarAccess_misaligned {s : State} {ea : Word} {n : Nat} {c : BitVec 8} {acc : Acc} {k : WKind} {f : Place → Xlat → Out} (h : ea.toNat % n ≠ 0) :
    s.scalarAccess ea n c acc k f = .next (s.trap c ea 0) := by
  rw [State.scalarAccess, beq_eq_false_iff_ne.mpr h]
  rfl

theorem misalignedTraps_hold : Claims.misalignedTraps := by
  intro s
  have htrap : ∀ {i ea rs n rd wr}, Claims.IsAccess s i ea rs n rd wr → Claims.Clean s rs → ea.toNat % n ≠ 0 → exec i s = .next (s.trap (misalignCause rd wr) ea 0) := by
    intro i ea rs n rd wr h hc hmis
    obtain ⟨-, f, hf⟩ := isAccess_exec h hc
    rw [hf, scalarAccess_misaligned hmis]
  exact ⟨fun i d ea rs n sgn h => htrap (.load i d ea rs n sgn h), fun i r ea rs n h => htrap (.store i r ea rs n h),
    fun d a b w q r c p h => htrap (.amo d a b w q r c p h)⟩

/-- An offset that has not left its period lies no nearer its start than an earlier one. -/
theorem mod_le_mod_of_same_period {x y p : Nat} (hyx : y ≤ x) (hx : x < (y / p + 1) * p) : y % p ≤ x % p := by
  have hp : 0 < p := Nat.pos_of_ne_zero (by rintro rfl; simp at hx)
  have hdiv : x / p = y / p := Nat.le_antisymm (Nat.lt_succ_iff.mp ((Nat.div_lt_iff_lt_mul hp).mpr hx)) (Nat.div_le_div_right hyx)
  have h1 := Nat.div_add_mod x p
  have h2 := Nat.div_add_mod y p
  rw [hdiv] at h1
  omega

/-- R69: some byte of an access lies in the watched range exactly where the range's own shape gives a first one. -/
theorem Watch.firstHit_isSome (x : Watch) (a n : Nat) : (x.firstHit a n).isSome = true ↔
    ∃ b, a ≤ b ∧ b < a + n ∧ x.base.toNat % 2 ^ 55 ≤ b ∧ b < x.lim.toNat % 2 ^ 55
      ∧ (x.str.toNat % 2 ^ 32 = 0 ∨ (b - x.base.toNat % 2 ^ 55) % (x.str.toNat % 2 ^ 32) < x.str.toNat / 2 ^ 32 % 2 ^ 24) := by
  have hw : bits x.str.toNat 55 32 = x.str.toNat / 2 ^ 32 % 2 ^ 24 := rfl
  unfold Watch.firstHit
  rw [hw]
  generalize x.base.toNat % 2 ^ 55 = base
  generalize x.lim.toNat % 2 ^ 55 = lim
  generalize x.str.toNat % 2 ^ 32 = stride
  generalize x.str.toNat / 2 ^ 32 % 2 ^ 24 = width
  simp only [Bool.or_eq_true, Bool.and_eq_true, decide_eq_true_eq, beq_iff_eq]
  have ha : a ≤ max a base := Nat.le_max_left a base
  have hbase : base ≤ max a base := Nat.le_max_right a base
  have hleast : ∀ b, a ≤ b → base ≤ b → max a base ≤ b := fun b h1 h2 => Nat.max_le.mpr ⟨h1, h2⟩
  generalize max a base = b0 at *
  by_cases hout : a + n ≤ b0 ∨ lim ≤ b0
  · rw [if_pos hout]
    simp only [Option.isSome_none, Bool.false_eq_true, false_iff]
    rintro ⟨b, h1, h2, h3, h4, -⟩
    have := hleast b h1 h3
    omega
  rw [if_neg hout]
  push Not at hout
  by_cases hstride : stride = 0
  · simp only [hstride, if_true, Option.isSome_some, true_iff]
    exact ⟨b0, ha, hout.1, hbase, hout.2, .inl trivial⟩
  by_cases hwidth : width = 0
  · simp [hstride, hwidth]
  simp only [hstride, hwidth, if_false]
  by_cases hin : (b0 - base) % stride < width
  · simp only [hin, if_true, Option.isSome_some, true_iff]
    exact ⟨b0, ha, hout.1, hbase, hout.2, .inr hin⟩
  simp only [hin, if_false]
  have hle : b0 - base < ((b0 - base) / stride + 1) * stride := by
    have h1 := Nat.div_add_mod (b0 - base) stride
    have h2 := Nat.mod_lt (b0 - base) (Nat.pos_of_ne_zero hstride)
    rw [Nat.add_mul, Nat.one_mul, Nat.mul_comm ((b0 - base) / stride) stride]
    omega
  by_cases hnext : base + ((b0 - base) / stride + 1) * stride < a + n ∧ base + ((b0 - base) / stride + 1) * stride < lim
  · rw [if_pos hnext]
    simp only [Option.isSome_some, true_iff]
    refine ⟨_, ?_, hnext.1, Nat.le_add_right _ _, hnext.2, .inr ?_⟩
    · omega
    · rw [Nat.add_sub_cancel_left, Nat.mul_mod_left]
      exact Nat.pos_of_ne_zero hwidth
  · rw [if_neg hnext]
    simp only [Option.isSome_none, Bool.false_eq_true, false_iff]
    rintro ⟨b, h1, h2, h3, h4, h5⟩
    have hb := hleast b h1 h3
    have := mod_le_mod_of_same_period (x := b - base) (y := b0 - base) (p := stride) (by omega) (by omega)
    rcases h5 with h | h
    · exact h
    · omega

theorem Watch.armed_hit_iff (x : Watch) (rd wr : Bool) (a n : Nat) : (x.armed ⟨rd, wr, false⟩ && (x.firstHit a n).isSome) = true ↔ Claims.watchHit x rd wr a n := by
  rw [Bool.and_eq_true, Watch.firstHit_isSome]
  simp [Watch.armed, Watch.en, Watch.rd, Watch.wr, Claims.watchHit, and_assoc]

/-- R68, R69: a watch register is among those that match. -/
theorem Strand.mem_watchers {t : Strand} (hw : t.watchPass = false) (rd wr : Bool) (a n : Nat) (k : Fin 8) :
    k.val ∈ t.watchers ⟨rd, wr, false⟩ a n ↔ Claims.watchHit t.watch[k] rd wr a n := by
  rw [Strand.watchers, hw, if_neg Bool.false_ne_true, List.mem_filterMap, ← Watch.armed_hit_iff]
  constructor
  · rintro ⟨p, hp, hf⟩
    obtain ⟨j, hj, rfl⟩ := List.mem_iff_getElem.mp hp
    split at hf
    next h =>
      obtain rfl : j = k.val := by simpa using hf
      simpa using h
    next => cases hf
  · intro h
    refine ⟨(k.val, t.watch[k]), List.mem_iff_getElem.mpr ⟨k.val, by simp, by simp⟩, ?_⟩
    rw [if_pos h]

/-- HIT in the registers named (R257). -/
theorem Strand.hit_watch (t : Strand) (ns : List Nat) (k : Fin 8) :
    (t.hit ns).watch[k] = if k.val ∈ ns then { t.watch[k] with ctl := t.watch[k].ctl ||| 16 } else t.watch[k] := by
  simp [Strand.hit]

@[simp] theorem Strand.hit_nil (t : Strand) : t.hit [] = t := by
  have h : t.watch.mapIdx (fun _ x => x) = t.watch := by
    ext i hi
    simp
  simp [Strand.hit, h]

/-- What a translation's use or a failed walk leaves: the strand in the slot, the store buffer, the scratchpad and the gangs as they were. -/
def SeesSame (s u : State) : Prop := u.core.st = s.core.st ∧ u.core.sb = s.core.sb ∧ u.core.pad = s.core.pad ∧ u.gangs = s.gangs

theorem SeesSame.of_sansMem {s u : State} (h : u.sansMem = s.sansMem) : SeesSame s u := by
  have hc := State.core_of_sansMem h
  exact ⟨by rw [hc], by rw [hc], by rw [hc], State.gangs_of_sansMem h⟩

theorem State.walkNote_sansMem (s : State) (asid ptbase va : Nat) : (s.walkNote asid ptbase va).sansMem = s.sansMem :=
  sansMem_foldl (fun s _ => sansMem_ite (s.readLine_sansMem _ _ _ _) rfl) _ s

theorem State.useXlat_same (s : State) (x : Xlat) : SeesSame s (s.useXlat x) := by
  unfold State.useXlat
  split
  · exact ⟨rfl, rfl, rfl, rfl⟩
  · split
    · exact ⟨rfl, rfl, rfl, rfl⟩
    · split
      · exact ⟨rfl, rfl, rfl, rfl⟩
      · extract_lets va s1
        exact SeesSame.of_sansMem (u := s1) (sansMem_ite rfl (s.walkNote_sansMem _ _ _))

theorem State.walkFault_same (s : State) (va : Word) : SeesSame s (s.walkFault va) := by
  unfold State.walkFault
  split
  · exact ⟨rfl, rfl, rfl, rfl⟩
  · split
    · exact SeesSame.of_sansMem (s.walkNote_sansMem _ _ _)
    · exact s.useXlat_same _
    · exact ⟨rfl, rfl, rfl, rfl⟩

/-- R275: a page permits the access. -/
theorem permits_iff (x : Xlat) {rd wr : Bool} (h : (rd || wr) = true) (k : Bool) :
    x.permits (accKind rd wr) k = true ↔ (rd = true → x.r = true) ∧ (wr = true → x.w = true) ∧ (k = true ∨ x.u = true) := by
  cases rd <;> cases wr <;> simp_all [Xlat.permits, accKind, and_assoc]

/-- R272: control space takes the access. -/
theorem ctl_refuses_iff (p : Place) {rd wr : Bool} (n : Nat) :
    (p.isCtl && (accKind rd wr == .amo || decide (n < 4))) = true ↔ ¬ (p.isCtl = true → ¬ (rd = true ∧ wr = true) ∧ 4 ≤ n) := by
  cases rd <;> cases wr <;> cases p.isCtl <;> simp [accKind]

theorem State.scalarChk_refused {s : State} {ea : Word} {n : Nat} {p : Place} {x : Xlat} {acc : Acc} {k : WKind} (hx : s.xlate ea n = .at p x)
    (h : x.permits acc s.core.st.kMode = false ∨ (p.isCtl && (acc == .amo || decide (n < 4))) = true) : s.scalarChk ea n acc k = .trap 0x08 none [] := by
  unfold State.scalarChk
  rw [hx]
  dsimp only
  by_cases hp : x.permits acc s.core.st.kMode = true
  · rw [hp, if_neg (by simp), if_pos (h.resolve_left (by simp [hp]))]
  · rw [if_pos (by simpa using hp)]

theorem State.scalarChk_watched {s : State} {ea : Word} {n : Nat} {p : Place} {x : Xlat} {acc : Acc} {k : WKind} (hx : s.xlate ea n = .at p x)
    (hp : x.permits acc s.core.st.kMode = true) (ht : (p.isCtl && (acc == .amo || decide (n < 4))) = false) (hw : s.core.st.watchers k ea.toNat n ≠ []) :
    s.scalarChk ea n acc k = .trap 0x0A none (s.core.st.watchers k ea.toNat n) := by
  unfold State.scalarChk
  rw [hx]
  dsimp only
  rw [hp, ht, if_neg (by simp), if_neg (by simp)]
  split
  next h => exact absurd h hw
  next => rfl

theorem State.scalarAccess_trap {s : State} {ea : Word} {n : Nat} {mis c : BitVec 8} {acc : Acc} {k : WKind} {f : Place → Xlat → Out} {g : Option Nat} {hs : List Nat}
    (ha : ea.toNat % n = 0) (h : s.scalarChk ea n acc k = .trap c g hs) :
    s.scalarAccess ea n mis acc k f = .next (((s.walkFault ea).modSt (fun t => t.hit hs)).trapAt c ea 0 0 g) := by
  rw [State.scalarAccess, ha, h]
  rfl

theorem State.modSt_hit_nil (s : State) : s.modSt (fun t => t.hit []) = s := by
  simp

/-- R155 checks 2 to 4, R160, R257 and R272. -/
theorem accessTraps_hold : Claims.accessTraps := by
  intro s i ea rs n rd wr hacc hal hc
  obtain ⟨hrw, f, hf⟩ := isAccess_exec hacc hc
  rw [hf]
  refine ⟨fun c g hx => ?_, fun p x hx => ⟨fun hno => ?_, fun hperm htaken hpass hhit => ?_⟩⟩
  · have hchk : s.scalarChk ea n (accKind rd wr) ⟨rd, wr, false⟩ = .trap c g [] := by rw [State.scalarChk, hx]
    rw [State.scalarAccess_trap hal hchk, State.modSt_hit_nil]
  · have hchk : s.scalarChk ea n (accKind rd wr) ⟨rd, wr, false⟩ = .trap 0x08 none [] :=
      State.scalarChk_refused hx (hno.imp (fun h => by rwa [← Bool.not_eq_true, permits_iff x hrw]) (ctl_refuses_iff p n).mpr)
    rw [State.scalarAccess_trap hal hchk, State.modSt_hit_nil]
    rfl
  · have hmem := Strand.mem_watchers hpass rd wr ea.toNat n
    obtain ⟨k, hk⟩ := hhit
    have hchk := State.scalarChk_watched (k := ⟨rd, wr, false⟩) hx ((permits_iff x hrw _).mpr hperm)
      (by rw [← Bool.not_eq_true, ctl_refuses_iff, not_not]; exact htaken) (List.ne_nil_of_mem ((hmem k).mpr hk))
    obtain ⟨hst, hsb, hpad, hgangs⟩ := s.walkFault_same ea
    refine ⟨_, State.scalarAccess_trap hal hchk, ?_, hsb, hpad, hgangs, fun j => ?_⟩
    · rw [State.modSt_st, hst]
      rfl
    · rw [State.modSt_st, hst, Strand.hit_watch, ← hmem j]
      exact ⟨fun h => if_pos h, fun h => if_neg h⟩

/-- Settles O54: marked operands, the checks before a vector instruction, and the two kinds of trap of a scalar access. -/
theorem checksBeforeEffects : Obligations.ChecksBeforeEffects := ⟨operandMarks_hold, vectorFrontChecks_hold, misalignedTraps_hold, accessTraps_hold⟩

end Sys2Proof.Machine
end

section
/-!
PROOFS. The larder's refill (R44): it moves image heads and leaves everything else of the core.
-/
namespace Sys2Proof.Machine

/-- A list of strands whose images alone have changed. -/
def Reimaged (l l' : List Strand) : Prop := List.Forall₂ (fun u v => ∃ im, v = { u with image := im }) l l'

theorem Reimaged.refl (l : List Strand) : Reimaged l l := by
  induction l with
  | nil => exact .nil
  | cons t r ih => exact .cons ⟨t.image, rfl⟩ ih

theorem Reimaged.mem_left {l l' : List Strand} (h : Reimaged l l') {u : Strand} (hu : u ∈ l) : ∃ im, { u with image := im } ∈ l' := by
  induction h with
  | nil => cases hu
  | cons hv _ ih =>
    obtain ⟨im, rfl⟩ := hv
    rcases List.mem_cons.mp hu with rfl | hu
    · exact ⟨im, List.mem_cons_self⟩
    · exact (ih hu).imp fun _ h => List.mem_cons_of_mem _ h

theorem Reimaged.mem_right {l l' : List Strand} (h : Reimaged l l') {v : Strand} (hv : v ∈ l') : ∃ u ∈ l, ∃ im, v = { u with image := im } := by
  induction h with
  | nil => cases hv
  | cons hu _ ih =>
    rcases List.mem_cons.mp hv with rfl | hv
    · exact ⟨_, List.mem_cons_self, hu⟩
    · exact (ih hv).imp fun _ h => ⟨List.mem_cons_of_mem _ h.1, h.2⟩

theorem Reimaged.trans {l l' l'' : List Strand} (h : Reimaged l l') (h' : Reimaged l' l'') : Reimaged l l'' := by
  induction h generalizing l'' with
  | nil => exact h'
  | cons hu _ ih =>
    cases h' with
    | cons hv ht =>
      obtain ⟨a, rfl⟩ := hu
      obtain ⟨b, rfl⟩ := hv
      exact .cons ⟨b, rfl⟩ (ih ht)

theorem Reimaged.mapIf (p : Strand → Bool) (f : Image → Image) (l : List Strand) : Reimaged l (Machine.mapIf p (fun x => { x with image := f x.image }) l) := by
  induction l with
  | nil => exact .nil
  | cons t r ih =>
    refine .cons ?_ ih
    dsimp only
    split
    · exact ⟨f t.image, rfl⟩
    · exact ⟨t.image, rfl⟩

/-- R44: the larder's refill moves image heads, and nothing else of the core. -/
theorem Core.refillLarder_reimaged (n : Nat) (k : Core) : ∃ l, k.refillLarder n = { k with rest := l } ∧ Reimaged k.rest l ∧ ((∀ v ∈ k.rest, v.status ≠ .runnable) → l = k.rest) := by
  induction n generalizing k with
  | zero => exact ⟨k.rest, rfl, .refl _, fun _ => rfl⟩
  | succ n ih =>
    rw [Core.refillLarder]
    split
    · exact ⟨k.rest, rfl, .refl _, fun _ => rfl⟩
    · split
      · exact ⟨k.rest, rfl, .refl _, fun _ => rfl⟩
      · next t ht =>
        obtain ⟨l, hl, hr, -⟩ := ih { k with rest := Machine.mapIf (fun x => x.same t) (fun x => { x with image := x.image.intoLarder }) k.rest }
        refine ⟨l, hl, (Reimaged.mapIf _ Image.intoLarder k.rest).trans hr, fun h => ?_⟩
        rw [List.filter_eq_nil_iff.mpr fun v hv => by simp [h v hv]] at ht
        cases ht

theorem Reimaged.map_gang {l l' : List Strand} (h : Reimaged l l') : l'.map (·.gang) = l.map (·.gang) := by
  induction h with
  | nil => rfl
  | cons hu _ ih =>
    obtain ⟨im, rfl⟩ := hu
    rw [List.map_cons, List.map_cons, ih]

end Sys2Proof.Machine
end

section
/-!
PROOFS. SlotAndSelector: the selector's order and the events of an issue slot.
-/
namespace Sys2Proof.Machine

theorem nth_tail {α : Type} {f : α → Option State} {n : Nat} {a : α} {l : List α} (h : f a = none) : nth f n (a :: l) = nth f n l := by
  rw [nth, h]

/-- An event that looks at each core finds the core in turn first. -/
theorem State.nth_allCores {s t : State} {f : Core → Option State} (hs : s.pick = 0) (h : f s.core = some t) : nth f s.pick s.allCores = some t := nth_head hs h

theorem State.putCore_self {s : State} {k : Core} (h : s.core.id = k.id) : s.putCore k = { s with core := k } := if_pos h

theorem Image.cycles_pos (i : Image) (vecs : Nat) : 0 < i.cycles vecs := by
  unfold Image.cycles
  dsimp only
  omega

/-- The selector's priority is that of the claims (R340). -/
theorem State.prioOf_eq {s : State} {k : Core} (hp : k.phase = s.core.phase) (hf : k.freeFrom = s.core.freeFrom) (t : Strand) : s.prioOf k t = Claims.prio s t := by
  unfold State.prioOf State.boostOf Claims.prio
  rw [hp, hf]
  cases s.gang? t.gang <;> simp [Nat.add_assoc]

/-- R340: one strand beats another exactly where that one does not come before it. -/
theorem State.better_iff {s : State} {k : Core} (hp : k.phase = s.core.phase) (hf : k.freeFrom = s.core.freeFrom) (a b : Strand) : s.better k a b = true ↔ ¬ Claims.before s b a := by
  unfold State.better Claims.before
  rw [State.prioOf_eq hp hf, State.prioOf_eq hp hf]
  simp only [Bool.or_eq_true, Bool.and_eq_true, decide_eq_true_eq, beq_iff_eq]
  omega

theorem Claims.before_trans {s : State} {a b c : Strand} (h1 : Claims.before s a b) (h2 : Claims.before s b c) : Claims.before s a c := by
  unfold Claims.before at *
  omega

theorem Claims.before_refl (s : State) (a : Strand) : Claims.before s a a := .inr ⟨rfl, .inr ⟨rfl, Nat.le_refl _⟩⟩

theorem Claims.before_of_not {s : State} {a b : Strand} (h : ¬ Claims.before s a b) : Claims.before s b a := by
  unfold Claims.before at *
  omega

/-- R340: the selector chooses one of the strands, than which none comes earlier. -/
theorem State.bestOf_before {s : State} {k : Core} (hp : k.phase = s.core.phase) (hf : k.freeFrom = s.core.freeFrom) {l : List Strand} {u : Strand} (h : s.bestOf k l = some u) :
    u ∈ l ∧ ∀ v ∈ l, Claims.before s u v := by
  induction l generalizing u with
  | nil => cases h
  | cons t r ih =>
    rw [State.bestOf] at h
    split at h
    next hr =>
      cases h
      have hnil : r = [] := by
        cases r with
        | nil => rfl
        | cons x r =>
          rw [State.bestOf] at hr
          split at hr <;> [cases hr; split at hr <;> cases hr]
      subst hnil
      simpa using Claims.before_refl s t
    next b hb =>
      obtain ⟨hmem, hall⟩ := ih hb
      split at h
      next hbt =>
        cases h
        rw [State.better_iff hp hf] at hbt
        exact ⟨List.mem_cons_of_mem _ hmem, List.forall_mem_cons.mpr ⟨Claims.before_of_not hbt, hall⟩⟩
      next hbt =>
        cases h
        rw [State.better_iff hp hf, not_not] at hbt
        exact ⟨List.mem_cons_self, List.forall_mem_cons.mpr ⟨Claims.before_refl s t, fun v hv => Claims.before_trans hbt (hall v hv)⟩⟩

theorem State.bestOf_some {s : State} {k : Core} {l : List Strand} (h : l ≠ []) : ∃ u, s.bestOf k l = some u := by
  cases l with
  | nil => exact absurd rfl h
  | cons t r =>
    rw [State.bestOf]
    split
    · exact ⟨_, rfl⟩
    · split <;> exact ⟨_, rfl⟩

/-- A strand whose save has not begun stays as it is (R46). -/
theorem Strand.map_saved {l : List Strand} {now : Nat} (h : ∀ v ∈ l, v.saving = false) : l.map (fun t => t.saved now) = l := by
  conv_rhs => rw [← List.map_id l]
  refine List.map_congr_left fun v hv => ?_
  rw [Strand.saved, h v hv]
  rfl

/-- The core in turn whose slot is free, its larder refilled (R44). -/
def State.refilled (s : State) (l : List Strand) : State := { s with core := { s.core with phase := .idle, rest := l } }

/-- The slot begins to restore a strand (R46). -/
def State.restoring (s : State) (l : List Strand) (u : Strand) : State :=
  { s with core := { s.core with slotFrom := s.now, st := u, rest := l.filter (fun x => !(x.same u)), phase := .restoring (s.now + u.image.cycles u.liveVecs) } }

/-- The selector on the core in turn (R340). -/
theorem State.select_refilled (s : State) (l : List Strand) :
    (s.refilled l).select s.core.id = ((s.refilled l).bestOf (s.refilled l).core ((s.refilled l).runnables (s.refilled l).core)).map (s.restoring l) := by
  have hk : (s.refilled l).coreAt s.core.id = (s.refilled l).core := State.coreAt_self (s := s.refilled l)
  rw [State.select, hk]
  cases (s.refilled l).bestOf (s.refilled l).core ((s.refilled l).runnables (s.refilled l).core) with
  | none => rfl
  | some u => exact congrArg some (State.putCore_self rfl)

/-- R46, R48: what the end of a save answers where the strands' saves leave the list l, refilled. -/
theorem State.saveEnd_go {s : State} (h : (∃ till, s.core.phase = .saving till ∧ till ≤ s.now) ∨ (s.core.phase = .idle ∧ s.core.st.status = .none)) :
    ∃ l, Reimaged (s.core.rest.map (fun t => t.saved s.now)) l ∧ ((∀ v ∈ s.core.rest.map (fun t => t.saved s.now), v.status ≠ .runnable) → l = s.core.rest.map (fun t => t.saved s.now)) ∧
      s.saveEnd s.core = ((s.refilled l).select s.core.id).or (if s.core.phase == .idle then none else some (s.refilled l)) := by
  obtain ⟨l, hl, hr, hn⟩ := Core.refillLarder_reimaged Config.larderSlots { s.core with phase := .idle, rest := s.core.rest.map (fun t => t.saved s.now) }
  refine ⟨l, hr, hn, ?_⟩
  have hgo : s.putCore (Core.refillLarder Config.larderSlots { s.core with phase := .idle, rest := s.core.rest.map (fun t => t.saved s.now) }) = s.refilled l := by
    rw [hl]
    exact State.putCore_self rfl
  unfold State.saveEnd
  dsimp only
  rw [hgo]
  rcases h with ⟨till, hp, ht⟩ | ⟨hp, hst⟩
  · rw [hp]
    refine (if_pos ht).trans ?_
    cases (s.refilled l).select s.core.id <;> rfl
  · rw [hp]
    refine (if_pos (beq_iff_eq.mpr hst)).trans ?_
    cases (s.refilled l).select s.core.id <;> rfl

theorem State.mem_runnables {s : State} {k : Core} {v : Strand} : v ∈ s.runnables k ↔ v ∈ k.rest ∧ v.status = .runnable ∧ ∀ g, s.gang? v.gang = some g → g.state ≠ .parking := by
  rw [State.runnables, List.mem_filter, Bool.and_eq_true, beq_iff_eq]
  cases s.gang? v.gang <;> simp

/-- A strand that the selector may choose is one of those it looks at, but for its image. -/
theorem State.mem_refilled_of_runnable {s : State} {l : List Strand} (hr : Reimaged s.core.rest l) {v : Strand} (h : Claims.runnable s v) :
    ∃ im, { v with image := im } ∈ (s.refilled l).runnables (s.refilled l).core := by
  obtain ⟨hv, hst, hg⟩ := h
  obtain ⟨im, him⟩ := hr.mem_left hv
  exact ⟨im, State.mem_runnables.mpr ⟨him, hst, hg⟩⟩

theorem State.runnable_of_mem_refilled {s : State} {l : List Strand} (hr : Reimaged s.core.rest l) {v : Strand} (h : v ∈ (s.refilled l).runnables (s.refilled l).core) :
    ∃ u im, Claims.runnable s u ∧ v = { u with image := im } := by
  obtain ⟨hv, hst, hg⟩ := State.mem_runnables.mp h
  obtain ⟨u, hu, im, rfl⟩ := hr.mem_right hv
  exact ⟨u, im, ⟨hu, hst, hg⟩, rfl⟩

/-- R46, R340: the end of a save, or an idle slot, begins to restore a strand than which none comes earlier. -/
theorem State.saveEnd_idle {s : State} (hi : s.core.phase = .idle) (hst : s.core.st.status = .none) (hsv : ∀ v ∈ s.core.rest, v.saving = false) (hv : ∃ v, Claims.runnable s v) :
    ∃ l u im, s.saveEnd s.core = some (s.restoring l { u with image := im }) ∧ Claims.runnable s u ∧ ∀ v, Claims.runnable s v → Claims.before s u v := by
  obtain ⟨l, hr, -, hgo⟩ := State.saveEnd_go (.inr ⟨hi, hst⟩)
  rw [Strand.map_saved hsv] at hr
  obtain ⟨v, hv⟩ := hv
  obtain ⟨_, hm⟩ := State.mem_refilled_of_runnable hr hv
  obtain ⟨u', hu'⟩ := State.bestOf_some (s := s.refilled l) (k := (s.refilled l).core) (List.ne_nil_of_mem hm)
  obtain ⟨hmem, hbest⟩ := State.bestOf_before rfl rfl hu'
  obtain ⟨u, im, hu, rfl⟩ := State.runnable_of_mem_refilled hr hmem
  refine ⟨l, u, im, ?_, hu, fun w hw => ?_⟩
  · rw [hgo, State.select_refilled, hu']
    rfl
  · obtain ⟨jm, hj⟩ := State.mem_refilled_of_runnable hr hw
    have hb := hbest _ hj
    have hprio : ∀ x : Strand, ∀ i, Claims.prio (s.refilled l) { x with image := i } = Claims.prio s x := fun x i => by
      unfold Claims.prio State.refilled
      rw [hi]
      rfl
    unfold Claims.before at hb ⊢
    rwa [hprio, hprio] at hb

/-- R46, R48: a save ends and no strand can be chosen: the slot is idle. -/
theorem State.saveEnd_none {s : State} {till : Nat} (hp : s.core.phase = .saving till) (ht : till ≤ s.now) (h : ∀ v ∈ s.core.rest, v.status ≠ .runnable ∧ v.saving = false) :
    s.saveEnd s.core = some { s with core := { s.core with phase := .idle } } := by
  obtain ⟨l, -, hl, hgo⟩ := State.saveEnd_go (.inl ⟨till, hp, ht⟩)
  rw [Strand.map_saved fun v hv => (h v hv).2] at hl
  obtain rfl := hl fun v hv => (h v hv).1
  have hnil : (s.refilled s.core.rest).runnables (s.refilled s.core.rest).core = [] :=
    List.eq_nil_iff_forall_not_mem.mpr fun v hv =>
      have ⟨hv, hst, _⟩ := State.mem_runnables.mp hv
      (h v hv).1 hst
  rw [hgo, State.select_refilled, hnil, hp]
  rfl

/-- The only strand of a core, when Runnable, is the one that the selector restores (R46). -/
theorem State.select_only {s : State} {u : Strand} (hst : u.status = .runnable) (hg : ∀ g, s.gang? u.gang = some g → g.state ≠ .parking) :
    (s.refilled [u]).select s.core.id = some (s.restoring [u] u) := by
  have hsel : (s.refilled [u]).runnables (s.refilled [u]).core = [u] :=
    List.filter_eq_self.mpr fun v hv => (List.mem_filter.mp (State.mem_runnables.mpr ⟨hv, by rw [List.mem_singleton.mp hv]; exact ⟨hst, hg⟩⟩)).2
  rw [State.select_refilled, hsel]
  rfl

/-- The slot restores the only strand: no other is left in the list. -/
theorem State.restoring_only_rest (s : State) (u : Strand) : (s.restoring [u] u).core.rest = [] := by
  simp [State.restoring, Strand.same]

/-- R39: a strand whose wait was satisfied while it was saved is Runnable from the save's end, and the only one: it is restored. -/
theorem State.saveEnd_woken {s : State} {till : Nat} {v : Strand} (hp : s.core.phase = .saving till) (ht : till ≤ s.now) (hr : s.core.rest = [v]) (hs : v.saving = true)
    (hw : v.status = .waiting) (hn : v.wait = .none) (hg : ∀ g, s.gang? v.gang = some g → g.state ≠ .parking) :
    ∃ u im, u = { ({ v with saving := false } : Strand).ready s.now with image := im } ∧ s.saveEnd s.core = some (s.restoring [u] u) := by
  obtain ⟨l, hl, -, hgo⟩ := State.saveEnd_go (.inl ⟨till, hp, ht⟩)
  have hsv : v.saved s.now = ({ v with saving := false } : Strand).ready s.now := by
    rw [Strand.saved, hs, hw, hn]
    rfl
  rw [hr, List.map_singleton, hsv] at hl
  cases hl with
  | cons him ht =>
    cases ht
    obtain ⟨im, hu⟩ := him
    refine ⟨_, im, hu, ?_⟩
    rw [hgo, State.select_only (by rw [hu]; rfl) (by rw [hu]; exact hg)]
    rfl

/-! ## Restoration (R41, R46, R415) -/

/-- What a suspension or a rotation has left of a strand (R41, R48). -/
def Strand.survived (t : Strand) : Strand := if t.zeroing && !t.inPlace then t.zeroDead else t

/-- The restored strand at work (R41, R46). -/
def Strand.resumed (t : Strand) : Strand := { t.survived with status := .running, boost := 0, image := Image.none }

theorem Strand.survived_kept {t : Strand} (h : t.zeroing = false) : t.survived = t := by
  rw [Strand.survived, h]
  rfl

theorem Strand.survived_zeroed {t : Strand} (h : t.zeroing = true) (hi : t.inPlace = false) : t.survived = t.zeroDead := by
  rw [Strand.survived, h, hi]
  rfl

theorem State.restoreEnd_good {s : State} {till : Nat} (hp : s.core.phase = .restoring till) (ht : till ≤ s.now) (hb : s.core.st.image.bad = none) :
    ∃ l, s.restoreEnd s.core = some { s with core := { s.core with
      st := s.core.st.resumed
      rest := l, phase := .run } } := by
  obtain ⟨l, hl, -⟩ := Core.refillLarder_reimaged Config.larderSlots { s.core with
    st := s.core.st.resumed
    rest := s.core.rest.map (fun (t : Strand) => if t.status == .runnable then { t with agedAt := t.agedAt + (s.now - max s.core.freeFrom t.readyAt) } else t), phase := .run }
  refine ⟨l, ?_⟩
  rw [State.restoreEnd, hp]
  dsimp only
  rw [if_neg (Nat.not_lt.mpr ht), hb]
  exact congrArg some ((congrArg s.putCore hl).trans (State.putCore_self rfl))

/-- R41: a byte below the kept length is kept, one from it on is zero. -/
theorem vGet_keepBytes (im : VImg) (n k : Nat)  : vGet (keepBytes im n) k 1 = if k < n then vGet im k 1 else 0 := by
  have hlt := Nat.lt_of_le_of_lt (Nat.mod_le im.toNat (2 ^ (8 * n))) im.isLt
  unfold vGet keepBytes
  rw [BitVec.toNat_ofNat, Nat.mod_eq_of_lt hlt]
  split
  next h =>
    obtain ⟨d, rfl⟩ : ∃ d, n = k + (1 + d) := ⟨n - k - 1, by omega⟩
    rw [Nat.mul_add 8 k, Nat.pow_add, Nat.mod_mul_right_div_self, Nat.mod_mod_of_dvd]
    exact Nat.pow_dvd_pow 2 (by omega)
  next h =>
    have hle : 2 ^ (8 * n) ≤ 2 ^ (8 * k) := Nat.pow_le_pow_right (by decide) (by omega)
    rw [Nat.div_eq_of_lt (Nat.lt_of_lt_of_le (Nat.mod_lt _ (Nat.two_pow_pos _)) hle), Nat.zero_mod]

/-- R41: a mask keeps its first VL bits. -/
theorem getLsbD_keepBits (m : BitVec 4096) (n k : Nat) : (BitVec.ofNat 4096 (m.toNat % 2 ^ n)).getLsbD k = (decide (k < n) && m.getLsbD k) := by
  rw [BitVec.getLsbD_ofNat, Nat.testBit_mod_two_pow, BitVec.testBit_toNat]
  by_cases hk : k < 4096
  · simp [hk]
  · simp [hk, BitVec.getLsbD_of_ge m k (by omega)]

theorem Strand.zeroDead_v (t : Strand) (i : Fin 32) : t.zeroDead.v[i] = if t.live.getLsbD i then keepBytes t.v[i] (t.vl * 2 ^ kSew t.kvtype) else 0 :=
  Vector.getElem_mapIdx ..

theorem Strand.zeroDead_vpsn (t : Strand) (i : Fin 32) : t.zeroDead.vpsn[i] = if t.live.getLsbD i then keepSlots t.vpsn[i] (t.vl * 2 ^ kSew t.kvtype) else 0 :=
  Vector.getElem_mapIdx ..

theorem Strand.zeroDead_masks (t : Strand) (i : Fin 8) : t.zeroDead.masks[i] = if t.live.getLsbD (32 + i) then BitVec.ofNat 4096 ((t.masks[i]).toNat % 2 ^ t.vl) else 0 :=
  Vector.getElem_mapIdx ..

theorem Strand.zeroDead_acc (t : Strand) (i : Fin 8) : t.zeroDead.acc[i] = if t.live.getLsbD (40 + i) then t.acc[i] else 0 :=
  Vector.getElem_mapIdx ..

/-- The core in turn once the strand to be restored has turned out lost (R41): it is stopped, and the slot is free. -/
def Core.headerLost (k : Core) : Core := { k with rest := k.rest ++ [{ k.st with status := .stopped }], st := Strand.empty, phase := .idle }

theorem State.restoreEnd_bad {s : State} {till off : Nat} (hp : s.core.phase = .restoring till) (ht : till ≤ s.now) (hb : s.core.st.image.bad = some off) :
    ∃ u a, s.restoreEnd s.core = some u ∧ u.core.st = Strand.empty ∧ u.core.phase = .idle ∧ u.core.rest = s.core.rest ++ [{ s.core.st with status := .stopped }]
      ∧ u.contains = s.contains ++ [⟨s.core.st.gang, s.core.st.rank, 0x09, 0, 0, 0, some a⟩] ∧ ∀ b, s.imageAddr s.core.id s.core.st off = some b → a = b := by
  rw [State.restoreEnd, hp]
  dsimp only
  rw [if_neg (Nat.not_lt.mpr ht), hb]
  dsimp only
  cases h : s.imageAddr s.core.id s.core.st off with
  | some a =>
    refine ⟨_, a, rfl, ?_⟩
    have hc := State.putCore_self (s := s) (k := s.core.headerLost) rfl
    exact ⟨congrArg (·.core.st) hc, congrArg (·.core.phase) hc, congrArg (·.core.rest) hc, rfl, fun b hb => Option.some.inj hb⟩
  | none =>
    obtain ⟨cs, m, hc⟩ := State.choose_snd s (2 ^ 48)
    refine ⟨_, (s.choose (2 ^ 48)).1, rfl, ?_⟩
    rw [hc]
    have hk := State.putCore_self (s := { s with choices := cs, freeCtr := m }) (k := s.core.headerLost) rfl
    exact ⟨congrArg (·.core.st) hk, congrArg (·.core.phase) hk, congrArg (·.core.rest) hk, rfl, fun b hb => by cases hb⟩

/-! ## Ageing (R340) -/

theorem State.strands_pair {s : State} {v : Strand} (h : s.core.st.status ≠ .none) (hr : s.core.rest = [v]) (hv : v.status ≠ .none) :
    ∃ l, s.strands = (s.core.id, s.core.st) :: (s.core.id, v) :: l := by
  refine ⟨s.others.flatMap (fun k => ((k.st :: k.rest).filter (fun t => t.status != .none)).map (fun t => (k.id, t))), ?_⟩
  rw [State.strands, State.allCores, List.flatMap_cons, hr, List.filter_eq_self.mpr]
  · rfl
  · simpa using ⟨h, hv⟩

theorem Core.modStrand_only {k : Core} {v : Strand} (hr : k.rest = [v]) (hv : v.status ≠ .none) (hne : ¬ (v.gang = k.st.gang ∧ v.rank = k.st.rank)) (f : Strand → Strand) :
    k.modStrand v.gang v.rank f = { k with rest := [f v] } := by
  have hst : (k.st.gang == v.gang && k.st.rank == v.rank && k.st.status != .none) = false := by
    refine Bool.eq_false_iff.mpr fun h => hne ?_
    rw [Bool.and_eq_true, Bool.and_eq_true, beq_iff_eq, beq_iff_eq] at h
    exact ⟨h.1.1.symm, h.1.2.symm⟩
  have hv' : (v.gang == v.gang && v.rank == v.rank && v.status != .none) = true := by
    simp [hv]
  unfold Core.modStrand
  simp only [hst, hr, Machine.mapIf, List.map_singleton, hv', if_true, Bool.false_eq_true, if_false]

theorem State.evAgeing_only {s : State} {v : Strand} (hs : s.pick = 0) (hp : s.core.phase = .run) (hst : s.core.st.status = .running) (hr : s.core.rest = [v]) (hv : v.status = .runnable)
    (hne : ¬ (v.gang = s.core.st.gang ∧ v.rank = s.core.st.rank)) (ha : 4096 ≤ s.now - v.agedAt) :
    s.evAgeing = some { s with core := { s.core with rest := [{ v with boost := v.boost + 1, agedAt := v.agedAt + 4096 }] } } := by
  have hv' : v.status ≠ .none := by rw [hv]; decide
  obtain ⟨l, hl⟩ := State.strands_pair (s := s) (by rw [hst]; decide) hr hv'
  have hno : s.age (s.core.id, s.core.st) = none := by
    simp [State.age, hst]
  have hns : s.core.st.same v = false := by
    refine Bool.eq_false_iff.mpr fun h => hne ?_
    rw [Strand.same, Bool.and_eq_true, beq_iff_eq, beq_iff_eq] at h
    exact ⟨h.1.symm, h.2.symm⟩
  have hage : s.age (s.core.id, v) = some (s.modCoreAt s.core.id (fun k => k.modStrand v.gang v.rank (fun t => { t with boost := t.boost + 1, agedAt := t.agedAt + 4096 }))) := by
    rw [State.age]
    exact if_pos (by simp [State.coreAt_self, hp, hv, hns, ha])
  have hmod := State.modCoreAt_self (s := s) (c := s.core.id) rfl (f := fun k => k.modStrand v.gang v.rank (fun t => { t with boost := t.boost + 1, agedAt := t.agedAt + 4096 })) rfl
  dsimp only [State.modCore] at hmod
  rw [Core.modStrand_only hr hv' hne] at hmod
  rw [State.evAgeing, hl, nth_tail hno]
  exact nth_head hs (hage.trans (congrArg some hmod))

/-! ## Rotation and the rollback of a group (R48, R390, R391, R439) -/

theorem Strand.unwind_nil {t : Strand} (h : t.queue = []) : t.unwind = t := by
  rw [Strand.unwind, h]

/-- R390: a strand stops at its oldest queued instruction, with the scalar state that it had there. -/
theorem Strand.unwind_cons {t : Strand} {e : QEntry} {r : List QEntry} (h : t.queue = e :: r) :
    t.unwind.queue = [] ∧ t.unwind.pc = e.ctx.pc ∧ t.unwind.regs = e.ctx.regs ∧ t.unwind.marks = e.ctx.marks ∧ t.unwind.vl = e.ctx.vl ∧ t.unwind.kvtype = e.ctx.kvtype
      ∧ t.unwind.kstatus = t.kstatus := by
  rw [Strand.unwind, h]
  dsimp only
  split
  · exact ⟨rfl, rfl, rfl, rfl, rfl, rfl, rfl⟩
  · cases t.hist <;> exact ⟨rfl, rfl, rfl, rfl, rfl, rfl, rfl⟩

theorem Strand.unwind_queue (t : Strand) : t.unwind.queue = [] := by
  cases h : t.queue with
  | nil => rw [Strand.unwind_nil h, h]
  | cons e r => exact (Strand.unwind_cons h).1

/-- R48: the model's rotation is due exactly where the claim's is wanted. -/
theorem State.rotationDue_of_wanted {s : State} (h : Claims.rotationWanted s) : s.rotationDue s.core = true := by
  obtain ⟨hp, hst, hw, hn, hr, v, hv, hle⟩ := h
  have hany : (s.runnables s.core).any (fun t => decide (s.prioOf s.core { s.core.st with boost := 0 } ≤ s.prioOf s.core t)) = true := by
    refine List.any_eq_true.mpr ⟨v, State.mem_runnables.mpr hv, decide_eq_true ?_⟩
    rwa [State.prioOf_eq rfl rfl, State.prioOf_eq rfl rfl]
  simp only [State.rotationDue, Bool.and_eq_true]
  exact ⟨⟨⟨⟨⟨beq_iff_eq.mpr hp, beq_iff_eq.mpr hst⟩, beq_iff_eq.mpr hw⟩, decide_eq_true hn⟩, hany⟩, hr⟩

theorem State.rotate_some {s : State} {im : Image} (hw : Claims.rotationWanted s) (ho : s.core.st.out = []) (hg : s.core.st.inGroup = false) (hf : s.findRoom s.core s.core.st s.core.st.fullBytes = some im) :
    s.rotate s.core = some { s.spill s.core.st im.saveKiB with core := { s.core with
      rest := s.core.rest ++ [{ s.core.st.rotated s.now with image := im }]
      st := Strand.empty, phase := .saving (s.now + im.cycles 32), freeFrom := s.now } } := by
  have hid : (s.spill s.core.st im.saveKiB).core.id = s.core.id := congrArg Core.id (State.core_of_sansMem (s.spill_sansMem _ _))
  rw [State.rotate, if_neg (by simp [State.rotationDue_of_wanted hw, ho, hg]), hf]
  exact congrArg some (State.putCore_self hid)

/-- A context that fits on its core takes nothing of the save area (R45). -/
theorem State.spill_zero (s : State) (t : Strand) : s.spill t 0 = s := by
  unfold State.spill State.saveRuns
  cases s.gang? t.gang with
  | none => rfl
  | some g =>
    have hcut : cutRuns g.task.saveAt (t.rank * g.task.partBytes) 0 = some [] := by
      cases g.task.saveAt <;> rfl
    simp [hcut]

theorem State.rollback_some {s : State} {r : Req} {i n : Nat} (hw : Claims.rotationWanted s) (hq : s.core.st.queue = []) (ha : s.core.st.asked = true) (hr : r ∈ s.reqs)
    (hg : r.gang = s.core.st.gang) (hk : r.rank = s.core.st.rank) (hv : r.kind = .vec i n) (hn : 4096 ≤ s.now - s.core.st.askedAt) (hf : ∀ a ∈ s.core.st.answers, a.status ≠ 9) :
    s.rollback s.core = some ({ s with core := { s.core with st := s.core.st.dropGroup } }.dropAsks s.core.st.gang s.core.st.rank) := by
  have hin : s.core.st.inGroup = true := by
    have hfl : s.core.st.flushing = false := List.any_eq_false.mpr fun a ha => by simpa using hf a ha
    rw [Strand.inGroup, hfl, ha]
    rfl
  have haw : s.awaited s.core.st = true := by
    rw [State.awaited, Bool.or_eq_true]
    exact .inr (List.any_eq_true.mpr ⟨r, hr, by simp [hg, hk, hv]⟩)
  rw [State.rollback]
  dsimp only
  rw [if_pos (by simp [State.rotationDue_of_wanted hw, hin, haw, hn]), Strand.unwind_nil hq]
  exact congrArg (fun u => some (State.dropAsks u s.core.st.gang s.core.st.rank)) (State.putCore_self rfl)

/-- R391: no vector request of the strand is awaited any more. -/
theorem State.dropAsks_reqs (s : State) (gi r : Nat) : (s.dropAsks gi r).reqs.length = s.reqs.length ∧ ∀ q ∈ (s.dropAsks gi r).reqs, q.gang = gi → q.rank = r → ∀ j m, q.kind ≠ .vec j m := by
  refine ⟨List.length_map .., fun q hq hg hk j m => ?_⟩
  obtain ⟨p, -, rfl⟩ := List.mem_map.mp hq
  dsimp only at hg hk ⊢
  split
  next hc => dsimp only; split <;> simp
  next hc =>
    rw [if_neg hc] at hg hk
    rintro hv
    simp [hg, hk, hv] at hc

/-! ## Deferred causes (R400, R429) -/

theorem State.takeDeferred_some {s : State} {d : Deferred} {r : List Deferred} (hst : s.core.st.status = .running) (hb : Claims.boundary s.core.st) (hw : s.core.st.wait = .none) (hd : s.core.st.deferred = d :: r)
    (hk : s.core.st.kstatus.getLsbD 0 = false) (hu : s.core.st.kstatus.getLsbD 2 = false) (hf : s.core.st.resFirst = none) (hn : s.core.st.resN = 0) (hc : s.core.st.checked = true) :
    s.takeDeferred = some ((Claims.withSt s { s.core.st with deferred := r, checked := false }).trapAt d.cause d.eval 0 0 none) := by
  obtain ⟨hq, ho, hvq, hp, ha, han⟩ := hb
  have hg : s.core.st.resGroup = 0 := by rw [Strand.resGroup, hf]; exact if_pos hn
  have hl : ∀ b, s.core.st.leftDepth b = 0 := fun b => by rw [Strand.leftDepth, hn]; exact ite_self 0
  have hcond : (s.core.st.status != .running || s.core.st.begun || !s.core.st.drained || s.core.st.wait != .none || !s.core.st.mayDefer || !s.core.st.checked) = false := by
    have hk' : s.core.st.kMode = false := hk
    have hu' : s.core.st.uin = false := hu
    simp [Strand.begun, Strand.drained, Strand.mayDefer, hst, hq, ho, hvq, hp, ha, han, hw, hd, hk', hu', hc]
  rw [State.takeDeferred]
  dsimp only
  rw [if_neg (by rw [hcond]; decide), hd, hg, hl]
  rfl

/-- Settles O11: the selector's order is that of the claims (bestOf_before), and each slot event finds the core in turn first. -/
theorem slotAndSelector : Obligations.SlotAndSelector := by
  refine ⟨fun s hs hi hst hsv hv => ?_, fun s hs => ⟨fun till hp ht => ⟨fun h => ?_, fun v hr hsv hw hn hg => ?_⟩, fun till hp ht => ⟨fun hb => ?_, fun off hb => ?_⟩,
    fun v hp hst hr hv hne ha => ?_, fun hw ho hg => ?_, fun r i n hw hq ha hr hg hk hv hn hf => ?_, fun d r hst hb hw hd hk hu hf hn hc => ?_⟩⟩
  · obtain ⟨l, u, im, he, hu, hall⟩ := State.saveEnd_idle hi hst hsv hv
    exact ⟨_, u, im, congrArg s.event (State.nth_allCores hs he), hu, rfl, ⟨_, Nat.lt_add_of_pos_right (Image.cycles_pos _ _), rfl⟩, rfl, hall, rfl, rfl, rfl⟩
  · exact congrArg s.event (State.nth_allCores hs (State.saveEnd_none hp ht h))
  · obtain ⟨u, im, hu, he⟩ := State.saveEnd_woken hp ht hr hsv hw hn hg
    refine ⟨_, congrArg s.event (State.nth_allCores hs he), ?_, ?_, ?_, ?_, State.restoring_only_rest s u, rfl, ⟨_, Nat.lt_add_of_pos_right (Image.cycles_pos _ _), rfl⟩⟩
    all_goals
      dsimp only [State.restoring]
      rw [hu]
    · rfl
    · rfl
    · rfl
    · exact ⟨rfl, rfl, rfl, rfl, rfl, rfl, rfl, rfl, rfl, rfl, rfl, rfl, rfl, rfl, rfl, rfl, rfl, rfl⟩
  · obtain ⟨l, he⟩ := State.restoreEnd_good hp ht hb
    refine ⟨_, congrArg s.event (State.nth_allCores hs he), rfl, rfl, rfl, fun hz => ?_, fun hz hi => ?_⟩
    · change s.core.st.resumed = _
      rw [Strand.resumed, Strand.survived_kept hz]
    · have hv : s.core.st.resumed = { s.core.st.zeroDead with status := .running, boost := 0, image := Image.none } := by
        rw [Strand.resumed, Strand.survived_zeroed hz hi]
      dsimp only
      rw [hv]
      have hdead : ∀ {b : Bool}, b = false → ¬ b = true := fun h => by rw [h]; decide
      refine ⟨rfl, rfl, rfl, rfl, rfl, rfl, rfl, rfl, rfl, rfl, rfl, fun i hl => ⟨(Strand.zeroDead_v _ i).trans (if_neg (hdead hl)), (Strand.zeroDead_vpsn _ i).trans (if_neg (hdead hl))⟩,
        fun i hl => (Strand.zeroDead_masks _ i).trans (if_neg (hdead hl)), Strand.zeroDead_acc s.core.st, fun i hl k => ?_, fun i hl k _ => ?_⟩
      · exact (congrArg (BitVec.getLsbD · k) ((Strand.zeroDead_masks _ i).trans (if_pos hl))).trans (getLsbD_keepBits _ _ k)
      · exact (congrArg (vGet · k 1) ((Strand.zeroDead_v _ i).trans (if_pos hl))).trans (vGet_keepBytes _ _ k)
  · obtain ⟨u, a, he, hu⟩ := State.restoreEnd_bad hp ht hb
    exact ⟨u, a, congrArg s.event (State.nth_allCores hs he), hu⟩
  · exact congrArg s.event (State.evAgeing_only hs hp hst hr hv hne ha)
  · obtain ⟨-, -, -, -, hfr, -⟩ := id hw
    obtain ⟨im, hf⟩ := Option.isSome_iff_exists.mp hfr
    refine ⟨_, { s.core.st.rotated s.now with image := im }, congrArg s.event (State.nth_allCores hs (State.rotate_some hw ho hg hf)), rfl, ⟨_, Nat.lt_add_of_pos_right (Image.cycles_pos _ _), rfl⟩,
      rfl, rfl, rfl, rfl, rfl, Strand.unwind_queue _, fun hq => ?_, fun e r hq => ?_, fun im' hf' hk => ?_⟩
    · have hu := Strand.unwind_nil hq
      dsimp only [Strand.rotated]
      rw [hu]
      exact ⟨rfl, rfl, rfl, rfl, rfl, rfl, rfl, rfl, rfl, rfl, rfl, rfl, rfl, rfl, rfl, rfl, rfl, rfl, rfl⟩
    · obtain ⟨-, hpc, hregs, hmarks, hvl, hkv, hks⟩ := Strand.unwind_cons hq
      exact ⟨hpc, hregs, hmarks, hvl, hkv, hks⟩
    · obtain rfl := Option.some.inj (hf.symm.trans hf')
      change (s.spill s.core.st im.saveKiB).mem = s.mem
      rw [hk, State.spill_zero]
  · exact ⟨_, congrArg s.event (State.nth_allCores hs (State.rollback_some hw hq ha hr hg hk hv hn hf)), rfl, rfl, (State.dropAsks_reqs _ _ _).1, (State.dropAsks_reqs _ _ _).2⟩
  · change s.event s.evDeferred = _
    rw [State.evDeferred, State.takeDeferred_some hst hb hw hd hk hu hf hn hc]
    rfl

end Sys2Proof.Machine
end

section
/-!
PROOFS. What an arrival's answer to its transfers never touches (R231, R361): the gangs, the containment requests, memory, the porch, and which strands the core in turn holds.
-/
namespace Sys2Proof.Machine

theorem foldl_keeps {α β : Type} {p : State → β} {f : State → α → State} (h : ∀ s a, p (f s a) = p s) (l : List α) (s : State) : p (l.foldl f s) = p s := by
  induction l generalizing s with
  | nil => rfl
  | cons a r ih => rw [List.foldl_cons, ih, h]

theorem ite_keeps {β : Type} {p : State → β} {c : Prop} [Decidable c] {a b s : State} (ha : p a = p s) (hb : p b = p s) : p (if c then a else b) = p s := by
  split
  · exact ha
  · exact hb

/-- Whose strands a core holds, and whether its slot holds one. -/
def Core.roster (k : Core) : Nat × Nat × Status × List Nat := (k.id, k.st.gang, k.st.status, k.rest.map (·.gang))

/-- The gangs and the containment requests. -/
def State.ledger (s : State) : List Gang × List Contain := (s.gangs, s.contains)

/-- The ledger, memory, the porch and the roster of the core in turn. -/
def State.scene (s : State) : (List Gang × List Contain) × Memory × List Porch × (Nat × Nat × Status × List Nat) := (s.ledger, s.mem, s.porch, s.core.roster)

theorem State.ledger_of_scene {s t : State} (h : t.scene = s.scene) : t.ledger = s.ledger := congrArg (·.1) h

theorem State.ledger_of_sansMem {s t : State} (h : t.sansMem = s.sansMem) : t.ledger = s.ledger := by
  change t.sansMem.ledger = s.sansMem.ledger
  rw [h]

theorem State.putCore_ledger (s : State) (k : Core) : (s.putCore k).ledger = s.ledger := ite_keeps rfl rfl

theorem State.modCoreAt_ledger (s : State) (c : Nat) (f : Core → Core) : (s.modCoreAt c f).ledger = s.ledger := s.putCore_ledger _

theorem State.coreAt_id (s : State) (c : Nat) : (s.coreAt c).id = c := by
  unfold State.coreAt
  split
  · assumption
  · cases h : s.others.find? (fun k => k.id == c) with
    | none => rfl
    | some k => exact beq_iff_eq.mp (List.find?_some (p := fun (k : Core) => k.id == c) h)

theorem State.modCoreAt_scene {f : Core → Core} (hf : ∀ k : Core, (f k).roster = k.roster) (s : State) (c : Nat) : (s.modCoreAt c f).scene = s.scene := by
  have hid : (f (s.coreAt c)).id = c := (congrArg (·.1) (hf (s.coreAt c))).trans (s.coreAt_id c)
  unfold State.modCoreAt State.putCore
  split
  next h =>
    have hc : s.coreAt c = s.core := if_pos (h.trans hid)
    change (s.ledger, s.mem, s.porch, (f (s.coreAt c)).roster) = s.scene
    rw [hf, hc]
    rfl
  next => rfl

theorem Core.modStrand_roster {f : Strand → Strand} (hf : ∀ t : Strand, (f t).gang = t.gang ∧ (f t).status = t.status) (gi r : Nat) (k : Core) : (k.modStrand gi r f).roster = k.roster := by
  have hm : ∀ (p : Strand → Bool) (l : List Strand), (Machine.mapIf p f l).map (·.gang) = l.map (·.gang) := fun p l => by
    rw [Machine.mapIf, List.map_map]
    refine List.map_congr_left fun t _ => ?_
    dsimp only [Function.comp_apply]
    split
    · exact (hf t).1
    · rfl
  unfold Core.roster Core.modStrand
  dsimp only
  rw [hm]
  split
  · rw [(hf k.st).1, (hf k.st).2]
  · rfl

theorem State.modStrand_scene {f : Strand → Strand} (hf : ∀ t : Strand, (f t).gang = t.gang ∧ (f t).status = t.status) (s : State) (gi r : Nat) : (s.modStrand gi r f).scene = s.scene := by
  unfold State.modStrand
  cases s.gang? gi with
  | none => rfl
  | some g =>
    dsimp only
    cases g.coreOf r with
    | none => rfl
    | some c => exact State.modCoreAt_scene (Core.modStrand_roster hf gi r) s c

theorem Strand.note_tag (t : Strand) (m : BitVec 5) : (t.note m).gang = t.gang ∧ (t.note m).status = t.status := by
  unfold Strand.note
  split <;> exact ⟨rfl, rfl⟩

theorem Strand.defer_tag (t : Strand) (c : BitVec 8) (e : Word) : (t.defer c e).gang = t.gang ∧ (t.defer c e).status = t.status := by
  unfold Strand.defer
  split
  · exact ⟨rfl, rfl⟩
  · split <;> exact ⟨rfl, rfl⟩

theorem State.endOwned_scene (s : State) (x : Xfer) : (s.endOwned x).scene = s.scene := by
  unfold State.endOwned
  dsimp only
  split <;> rfl

theorem State.cutXfer_scene (s : State) (id : Nat) : (s.cutXfer id).scene = s.scene := by
  unfold State.cutXfer
  extract_lets cut s1 away casts s2 s3
  have h1 : s1.scene = s.scene := by
    refine foldl_keeps (p := State.scene) (fun u k => ?_) _ s
    exact State.modCoreAt_scene (fun _ => by rfl) u k.id
  have h3 : s3.scene = s.scene := by
    refine (foldl_keeps (p := State.scene) (fun u a => ?_) _ _).trans h1
    rfl
  clear_value s3
  split
  · exact (State.endOwned_scene _ _).trans h3
  · exact h3

theorem State.xferFail_scene (s : State) (id status part : Nat) (eval : Word) : (s.xferFail id status part eval).scene = s.scene := by
  unfold State.xferFail
  split
  · rfl
  next x _ =>
    extract_lets s1 s2
    have h1 : s1.scene = s.scene := ite_keeps (s.endOwned_scene x) rfl
    have h2 : s2.scene = s.scene := by
      refine (State.modStrand_scene (fun t => ?_) _ _ _).trans h1
      extract_lets u
      have hu : u.gang = t.gang ∧ u.status = t.status := by
        unfold u
        split
        · exact t.note_tag 16
        · exact ⟨rfl, rfl⟩
      have hd : ∀ c e, (u.defer c e).gang = t.gang ∧ (u.defer c e).status = t.status := fun c e => ⟨(u.defer_tag c e).1.trans hu.1, (u.defer_tag c e).2.trans hu.2⟩
      split
      · exact hd _ _
      · split
        · exact hd _ _
        · exact hu
    exact ite_keeps ((s2.cutXfer_scene id).trans h2) h2

theorem State.xferAnswer_scene (s : State) (id status part len : Nat) (eval : Word) : (s.xferAnswer id status part len eval).scene = s.scene := by
  unfold State.xferAnswer
  exact ite_keeps rfl (State.xferFail_scene _ _ _ _ _)

theorem State.fillAnswer_scene (s : State) (a : Arrival) (status x : Nat) : (s.fillAnswer a status x).scene = s.scene := by
  unfold State.fillAnswer
  extract_lets others
  split
  · rfl
  · exact ite_keeps (s.xferAnswer_scene _ _ _ _ _) (ite_keeps (s.xferAnswer_scene _ _ _ _ _) (ite_keeps (s.xferAnswer_scene _ _ _ _ _) (ite_keeps rfl rfl)))

theorem State.sendReq_scene (s : State) (p : Packet) (gang rank : Nat) (kind : ReqKind) : (s.sendReq p gang rank kind).scene = s.scene := by
  unfold State.sendReq
  split <;> rfl

theorem State.sendArrival_scene (s : State) (a : Arrival) (asid gang rank : Nat) : (s.sendArrival a asid gang rank).scene = s.scene := by
  unfold State.sendArrival
  exact ite_keeps (s.sendReq_scene _ _ _ _) (ite_keeps rfl rfl)

theorem State.sendCast_scene {s t : State} {g : Nat} {a : Arrival} {asid gang rank : Nat} (h : s.sendCast g a asid gang rank = some t) : t.scene = s.scene := by
  unfold State.sendCast at h
  dsimp only at h
  split at h
  · cases h
  · split at h
    · cases h
    · cases h
      exact ite_keeps (State.xferFail_scene _ _ _ _ _) rfl

theorem State.nextRun_scene (s : State) (a : Arrival) : (s.nextRun a).scene = s.scene := by
  unfold State.nextRun
  split
  · dsimp only
    refine ite_keeps (s.sendArrival_scene _ _ _ _) (ite_keeps rfl ?_)
    split
    next h => exact State.sendCast_scene h
    next => rfl
  · rfl

theorem State.endRun_scene (s : State) (a : Arrival) : (s.endRun a).scene = s.scene := by
  unfold State.endRun
  exact ite_keeps rfl rfl

/-- R361: an arrival's answer moves transfers, messages and packets only. -/
theorem State.arrivalDone_scene (s : State) (a : Arrival) (status : Nat) : (s.arrivalDone a status).scene = s.scene := by
  unfold State.arrivalDone
  refine ite_keeps (p := State.scene) (ite_keeps rfl (ite_keeps rfl rfl)) ?_
  extract_lets s1
  have h1 : s1.scene = s.scene := foldl_keeps (p := State.scene) (fun s x => s.fillAnswer_scene a status x) _ s
  exact (State.endRun_scene _ a).trans (ite_keeps ((s1.nextRun_scene a).trans h1) h1)

end Sys2Proof.Machine
end

section
/-!
PROOFS. GangsEnd: containment (R395, R396) and the completion of a gang (R51).
-/
namespace Sys2Proof.Machine

theorem foldl_keeps_while {α β : Type} {p : State → β} {P : β → Prop} {f : State → α → State} (h : ∀ s a, P (p s) → p (f s a) = p s) (l : List α) {s : State} (hs : P (p s)) : p (l.foldl f s) = p s := by
  induction l generalizing s with
  | nil => rfl
  | cons a r ih =>
    have ha := h s a hs
    rw [List.foldl_cons, ih (ha ▸ hs), ha]

/-! ## The end of a gang (R51) -/

theorem State.leaveGroup_scene {s : State} (hp : s.porch = []) (g gi r : Nat) : (s.leaveGroup g gi r).scene = s.scene := by
  unfold State.leaveGroup
  refine ite_keeps rfl ?_
  extract_lets gs
  have hn : ((({ s with groups := gs.filter (fun x => !x.members.isEmpty) } : State).writeEgress g).porch.filter (fun p => p.group == g)) = [] := by
    change s.porch.filter _ = []
    rw [hp]
    rfl
  rw [State.retest, hn]
  rfl

theorem State.leaveAll_scene {s : State} (hp : s.porch = []) (gi r : Nat) : (s.leaveAll gi r).scene = s.scene :=
  foldl_keeps_while (p := State.scene) (P := fun x => x.2.2.1 = []) (fun s _ hp => State.leaveGroup_scene (s := s) hp _ gi r) _ hp

/-- A core holds no strand of a gang. -/
def Core.freeOf (k : Core) (gid : Nat) : Prop := (k.st.gang ≠ gid ∨ k.st.status = .none) ∧ ∀ u ∈ k.rest, u.gang ≠ gid

/-- A roster names no strand of a gang. -/
def rosterFree (gid : Nat) (r : Nat × Nat × Status × List Nat) : Prop := (r.2.1 ≠ gid ∨ r.2.2.1 = .none) ∧ gid ∉ r.2.2.2

theorem Core.freeOf_iff {k : Core} {gid : Nat} : k.freeOf gid ↔ rosterFree gid k.roster := by
  simp only [Core.freeOf, rosterFree, Core.roster, List.mem_map, not_exists, not_and]

theorem State.goHome_roster (s : State) (k : Core) : (s.goHome k).roster = k.roster := by
  unfold State.goHome
  split <;> rfl

/-- R44: the larder's refill keeps every strand's gang. -/
theorem Core.refillLarder_roster (n : Nat) (k : Core) : (k.refillLarder n).roster = k.roster := by
  obtain ⟨l, hl, hr, -⟩ := Core.refillLarder_reimaged n k
  rw [hl]
  unfold Core.roster
  dsimp only
  rw [hr.map_gang]

theorem State.putCore_scene_opMoves (s : State) (k : Core) (l : List (Nat × Bool)) : (({ s with opMoves := l } : State).putCore k).scene = (s.putCore k).scene := by
  unfold State.putCore
  split <;> rfl

/-- R51: a core that gives up a gang holds no strand of it. -/
theorem State.releaseCore_scene (s : State) (g : Gang) (c : Nat) :
    ∃ k : Core, k.id = c ∧ k.freeOf g.id ∧ (s.releaseCore g c).scene = (s.putCore k).scene := by
  unfold State.releaseCore
  extract_lets k0 mine inside slot waiting k1 s1 s2
  have hs2 : s2.scene = (s.putCore _).scene := State.putCore_scene_opMoves s _ _
  have hroster := (s1.goHome_roster _).trans (Core.refillLarder_roster Config.larderSlots { k1 with
    st := if slot then Strand.empty else k1.st
    phase := if slot then .idle else k1.phase
    freeFrom := if slot && k1.phase == Phase.run then s1.now else k1.freeFrom
    rest := k1.rest.filter (fun t => t.gang != g.id)
    tiles := k1.tiles.filter (fun t => !inside t.idx)
    overrun := k1.overrun.filter (fun a => a.gang != g.id)
    locks := k1.locks.filter (fun l => l.gang != g.id) })
  refine ⟨_, (congrArg (·.1) hroster).trans (s.coreAt_id c), Core.freeOf_iff.mpr (hroster ▸ Core.freeOf_iff.mp ⟨?_, fun u hu => ?_⟩), (foldl_keeps (p := State.scene) (fun u a => u.arrivalDone_scene a 1) _ _).trans hs2⟩
  · cases hslot : slot with
    | true => exact .inr rfl
    | false =>
      rw [Bool.and_eq_false_iff] at hslot
      exact hslot.imp (fun h => beq_eq_false_iff_ne.mp h) (fun h => bne_eq_false_iff_eq.mp h)
  · simpa using (List.mem_filter.mp hu).2

theorem State.putCore_scene (s : State) (k : Core) : (s.putCore k).scene = (s.ledger, s.mem, s.porch, if s.core.id = k.id then k.roster else s.core.roster) := by
  unfold State.putCore
  split <;> rfl

/-- R51: once a gang's cores have given it up, the core in turn holds no strand of it where it was one of them. -/
theorem State.releaseCores_scene (s : State) (g : Gang) (l : List Nat) :
    ∃ r, (l.foldl (fun s c => s.releaseCore g c) s).scene = (s.ledger, s.mem, s.porch, r) ∧ r.1 = s.core.id ∧ (s.core.id ∈ l ∨ rosterFree g.id s.core.roster → rosterFree g.id r) := by
  induction l generalizing s with
  | nil => exact ⟨s.core.roster, rfl, rfl, fun h => h.elim (fun h => by cases h) id⟩
  | cons c r ih =>
    obtain ⟨k, rfl, hfree, he⟩ := s.releaseCore_scene g c
    obtain ⟨r, hr, hid, hf⟩ := ih (s.releaseCore g k.id)
    rw [s.putCore_scene] at he
    obtain ⟨hl, hm, hp, hc⟩ : (s.releaseCore g k.id).ledger = s.ledger ∧ (s.releaseCore g k.id).mem = s.mem ∧ (s.releaseCore g k.id).porch = s.porch
        ∧ (s.releaseCore g k.id).core.roster = if s.core.id = k.id then k.roster else s.core.roster :=
      ⟨congrArg (·.1) he, congrArg (·.2.1) he, congrArg (·.2.2.1) he, congrArg (·.2.2.2) he⟩
    have hid' : (s.releaseCore g k.id).core.id = s.core.id := by
      refine (congrArg (·.1) hc).trans ?_
      split
      next h => exact h.symm
      next => rfl
    refine ⟨r, ?_, hid.trans hid', fun h => hf ?_⟩
    · rw [List.foldl_cons, hr, hl, hm, hp]
    · rw [hid', hc]
      split
      next => exact .inr (Core.freeOf_iff.mp hfree)
      next hne => exact h.imp (fun h => (List.mem_cons.mp h).resolve_left hne) id

theorem Gang.over_of_exited {g : Gang} (h : ∀ r, r < g.task.c * g.task.s → ∃ e ∈ g.exited, e.rank = r) : g.over = true := by
  refine List.all_eq_true.mpr fun r hr => ?_
  obtain ⟨e, he, rfl⟩ := h r (List.mem_range.mp hr)
  rw [Gang.out, Bool.or_eq_true]
  exact .inl (List.any_eq_true.mpr ⟨e, he, beq_self_eq_true _⟩)

theorem State.tokensQuiet_of {s : State} {gid : Nat} (h : ∀ k ∈ s.core :: s.others, ∀ y ∈ k.tokens, y.gang = gid → y.pend = 0) : s.tokensQuiet gid = true := by
  refine List.all_eq_true.mpr fun k hk => List.all_eq_true.mpr fun y hy => ?_
  have := h k hk y hy
  by_cases hg : y.gang = gid
  · simp [this hg]
  · simp [hg]

/-- The only gang has ended: no binding passes on (R362). -/
theorem State.rebind_nil {s : State} (h : s.gangs = []) (asid : Nat) : s.rebind asid = s := by
  rw [State.rebind, h]
  rfl

/-- R51: the end of the only gang, where no record is due. -/
theorem State.endGang_only {s : State} {g : Gang} (hg : s.gangs = [g]) (h0 : g.status = 0) (hp : s.porch = []) :
    let t := s.endGang g
    t.gangs = [] ∧ g.id ∉ t.waiting ∧ t.mem = s.mem ∧ (∀ p ∈ t.pkts, p.id = g.task.pkt → p.phase = 2 ∧ p.status = 0) ∧ (s.core.id ∈ g.cores → t.core.freeOf g.id) := by
  unfold State.endGang
  rw [if_pos h0]
  extract_lets s0 s1 s2 new s3 s4 t
  obtain ⟨r, hr, -, hfree⟩ := s.releaseCores_scene g g.cores
  have h2 : s2.scene = (s.ledger, s.mem, s.porch, r) :=
    (foldl_keeps_while (p := State.scene) (P := fun x => x.2.2.1 = []) (fun u i hu => State.leaveAll_scene (s := u) hu g.id i) _ ((congrArg (·.2.2.1) hr).trans hp)).trans hr
  have hgangs : s2.gangs.filter (fun x => x.id != g.id) = [] := by
    rw [show s2.gangs = s.gangs from congrArg (·.1.1) h2, hg]
    simp
  have ht : t = _ := State.rebind_nil hgangs g.kasid
  rw [ht]
  refine ⟨hgangs, fun h => ?_, congrArg (·.2.1) h2, fun p hp hid => ?_, fun hc => Core.freeOf_iff.mpr ?_⟩
  · simpa using (List.mem_filter.mp h).2
  · obtain ⟨q, -, rfl⟩ := List.mem_map.mp hp
    dsimp only at hid ⊢
    split
    next => exact ⟨rfl, h0⟩
    next hne =>
      rw [if_neg hne] at hid
      exact absurd (beq_iff_eq.mpr hid) hne
  · exact (show s2.core.roster = r from congrArg (·.2.2.2) h2) ▸ hfree (.inl hc)

/-! ## A strand's stop (R395): what it sends, gives up and leaves never touches the gangs or the containment requests -/

theorem State.turnTo_ledger (s : State) (c : Nat) : (s.turnTo c).ledger = s.ledger := ite_keeps rfl rfl

theorem State.modStrand_ledger (s : State) (gi r : Nat) (f : Strand → Strand) : (s.modStrand gi r f).ledger = s.ledger := by
  unfold State.modStrand
  split
  · rfl
  · split
    · rfl
    · exact s.modCoreAt_ledger _ _

theorem State.toToken_ledger (s : State) (m : TokMsg) (asid : Nat) : (s.toToken m asid).ledger = s.ledger := by
  unfold State.toToken
  exact ite_keeps (ite_keeps (s.modCoreAt_ledger _ _) rfl) (ite_keeps rfl rfl)

theorem State.fillGo_ledger {s t : State} {at_ : FillAt} {a : Arrival} (h : s.fillGo at_ a = some t) : t.ledger = s.ledger := by
  unfold State.fillGo at h
  dsimp only at h
  split at h
  · cases h
    exact State.ledger_of_scene (State.sendArrival_scene _ _ _ _ _)
  · split at h
    · cases h
    · cases h
      exact State.ledger_of_scene (State.sendArrival_scene _ _ _ _ _)
  · exact State.ledger_of_scene (State.sendCast_scene h)
  · cases h
    rfl

theorem State.sendOwed_ledger (s : State) (c gi r : Nat) : (s.sendOwed c gi r).ledger = s.ledger := by
  unfold State.sendOwed
  extract_lets s1
  have h1 : s1.ledger = s.ledger := foldl_keeps (p := State.ledger) (fun u a => State.ledger_of_scene (u.sendArrival_scene a a.asid gi r)) _ s
  refine (foldl_keeps (p := State.ledger) (fun u x => ?_) _ s1).trans h1
  cases h : (u.turnTo c).fillGo x.1 x.2 with
  | none => rfl
  | some v => exact (v.turnTo_ledger _).trans ((State.fillGo_ledger h).trans (u.turnTo_ledger c))

theorem State.choose_ledger (s : State) (n : Nat) : (s.choose n).2.ledger = s.ledger := State.ledger_of_sansMem (s.choose_sansMem n)

theorem State.writePa_ledger (s : State) (pa key n v bad : Nat) (direct : Bool) (asid : Nat) (own : Option Nat) (gang rank cls : Nat) : (s.writePa pa key n v bad direct asid own gang rank cls).ledger = s.ledger :=
  State.ledger_of_sansMem (s.writePa_sansMem _ _ _ _ _ _ _ _ _ _ _)

theorem State.storeLocal_ledger (s : State) (c : Nat) (e : SbEntry) : (s.storeLocal c e).ledger = s.ledger := by
  unfold State.storeLocal
  extract_lets ln put mine s1 s2
  have h1 : s1.ledger = s.ledger := s.modCoreAt_ledger c _
  exact ite_keeps h1 h1

theorem State.ctlValue_ledger (s : State) (v : Word) (psn : Bool) : (s.ctlValue v psn).2.ledger = s.ledger := by
  unfold State.ctlValue
  split
  · exact s.choose_ledger _
  · rfl

theorem State.sendWrite_ledger (s : State) (p : Place) (n v psn asid gi r : Nat) (kind : ReqKind) : (s.sendWrite p n v psn asid gi r kind).ledger = s.ledger :=
  State.ledger_of_scene (s.sendReq_scene _ _ _ _)

theorem State.sendEntry_ledger {s t : State} {c : Nat} {rest : List SbEntry} {e : SbEntry} (h : s.sendEntry c rest e = some t) : t.ledger = s.ledger := by
  unfold State.sendEntry at h
  extract_lets s1 lost asid v at h
  have h1 : s1.ledger = s.ledger := s.modCoreAt_ledger c _
  have hlost : lost.ledger = s.ledger := (s1.modStrand_ledger _ _ _).trans h1
  split at h
  · cases h
    exact (State.storeLocal_ledger _ _ _).trans ((State.writePa_ledger _ _ _ _ _ _ _ _ _ _ _ _).trans h1)
  · cases h
    exact (s1.ctlValue_ledger _ _).trans h1
  · split at h
    · exact Option.some.inj h ▸ hlost
    · split at h
      · cases h
      · split at h
        · cases h
        · cases h
          exact (s1.modCoreAt_ledger _ _).trans h1
      · exact Option.some.inj h ▸ hlost
  · split at h
    · exact Option.some.inj h ▸ hlost
    · split at h
      · cases h
      · cases h
        exact (s1.sendWrite_ledger _ _ _ _ _ _ _ _).trans h1
  · split at h
    · exact Option.some.inj h ▸ hlost
    · split at h
      · cases h
      · cases h
        exact (s1.sendWrite_ledger _ _ _ _ _ _ _ _).trans h1

theorem State.flushEntries_ledger (l : List SbEntry) (s : State) (c gi r : Nat) : (s.flushEntries c gi r l).ledger = s.ledger := by
  induction l generalizing s with
  | nil => rfl
  | cons e l ih =>
    rw [State.flushEntries]
    refine ite_keeps ?_ (ih s)
    dsimp only
    have hc := s.choose_ledger 2
    have hd := ((s.choose 2).2.modCoreAt_ledger c (fun k => { k with sb := (s.coreAt c).sb.erase e })).trans hc
    rw [ih]
    refine ite_keeps ?_ hd
    cases h : (s.choose 2).2.sendEntry c ((s.coreAt c).sb.erase e) e with
    | none => exact hd
    | some t => exact (State.sendEntry_ledger h).trans hc

theorem State.dropReqs_ledger (s : State) (gi r : Nat) : (s.dropReqs gi r).ledger = s.ledger := rfl

theorem State.fillMembers_ledger (s : State) (members : List (Nat × Nat × Nat)) (group slice off data psn : Nat) : (s.fillMembers members group slice off data psn).ledger = s.ledger := by
  unfold State.fillMembers
  refine foldl_keeps (p := State.ledger) (fun u m => ?_) _ s
  split <;> rfl

theorem State.serve_ledger (s : State) (p : Porch) : (s.serve p).ledger = s.ledger := by
  unfold State.serve
  extract_lets tiles
  split
  · extract_lets s1
    exact (foldl_keeps (p := State.ledger) (fun u t => u.fillMembers_ledger _ _ _ _ _ _) _ s1).trans (State.ledger_of_sansMem (s.readLines_sansMem _ _ _ _ _))
  · refine ite_keeps (foldl_keeps (p := State.ledger) (fun u m => State.ledger_of_scene (u.xferFail_scene _ _ _ _)) _ s) (foldl_keeps (p := State.ledger) (fun u t => ?_) _ s)
    exact State.ledger_of_scene (u.sendReq_scene _ _ _ _)
  · rfl

theorem State.leaveAll_ledger (s : State) (gi r : Nat) : (s.leaveAll gi r).ledger = s.ledger := by
  refine foldl_keeps (p := State.ledger) (fun u g => ?_) _ s
  unfold State.leaveGroup
  refine ite_keeps rfl ?_
  extract_lets gs
  unfold State.retest
  refine (foldl_keeps (p := State.ledger) (fun u p => ?_) _ _).trans rfl
  unfold State.testPorch
  exact ite_keeps (u.serve_ledger p) rfl

theorem State.wakeIf_ledger (s : State) (c : Nat) (p : Strand → Bool) : (s.wakeIf c p).ledger = s.ledger := s.modCoreAt_ledger c _

theorem State.modGang_only {s : State} {g : Gang} (hg : s.gangs = [g]) (f : Gang → Gang) : (s.modGang g.id f).gangs = [f g] := by
  change mapIf (fun x => x.id == g.id) f s.gangs = _
  rw [hg, Machine.mapIf, List.map_singleton, beq_self_eq_true]
  rfl

theorem State.modGang_contains (s : State) (gi : Nat) (f : Gang → Gang) : (s.modGang gi f).contains = s.contains := rfl

theorem State.gangs_of_ledger {s t : State} (h : t.ledger = s.ledger) : t.gangs = s.gangs := congrArg (·.1) h

theorem State.contains_of_ledger {s t : State} (h : t.ledger = s.ledger) : t.contains = s.contains := congrArg (·.2) h

/-- The only gang is as it was, but for the operations that it owes (R434). -/
def State.onlyOwes (s : State) (g : Gang) : Prop := ∃ l, s.gangs = [{ g with owed := l }]

theorem State.onlyOwes_of_gangs {s t : State} {g : Gang} (h : t.gangs = s.gangs) (hs : s.onlyOwes g) : t.onlyOwes g := by
  unfold State.onlyOwes
  rw [h]
  exact hs

/-- What is taken from the transfer lists, the replies and the porch (R395 step 3) leaves the ledger. -/
theorem State.ledger_drops (s : State) (xfers : List Xfer) (fills combines retries : List Arrival) (pieces : List Piece) (replies : List Reply) (groupReqs : List GroupReq) (porch : List Porch) :
    ({ s with xfers := xfers, fills := fills, combines := combines, retries := retries, pieces := pieces, replies := replies, groupReqs := groupReqs, porch := porch } : State).ledger = s.ledger := rfl

/-- R395: a strand's stop leaves its gang the operations that it owes, and nothing else of the gangs. -/
theorem State.haltStrand_gangs {s : State} {g : Gang} (hg : s.onlyOwes g) (r : Nat) : (s.haltStrand g.id r).onlyOwes g ∧ (s.haltStrand g.id r).contains = s.contains := by
  unfold State.haltStrand
  split
  · exact ⟨hg, rfl⟩
  next c t _ =>
    extract_lets s1 s2 xs ids casts s3 s4 s5 s6 s7 s8 stop s9
    have h2 : s2.ledger = s.ledger := (s1.sendOwed_ledger c g.id r).trans (s.modCoreAt_ledger c _)
    have h3 : s3.ledger = s.ledger := (s2.flushEntries_ledger _ c g.id r).trans h2
    have h4 : s4.ledger = s.ledger := (s3.dropReqs_ledger g.id r).trans h3
    have h5 : s5.ledger = s.ledger := (s4.ledger_drops _ _ _ _ _ _ _ _).trans h4
    have h6 : s6.ledger = s.ledger := by
      refine (foldl_keeps (p := State.ledger) (fun u k => ?_) _ s5).trans h5
      exact u.modCoreAt_ledger _ _
    have h7 : s7.ledger = s.ledger := by
      refine (foldl_keeps (p := State.ledger) (fun u a => ?_) _ _).trans ((foldl_keeps (p := State.ledger) (fun u x => State.ledger_of_scene (u.endOwned_scene x)) xs s6).trans h6)
      rfl
    have h9 : (s9.leaveAll g.id r).ledger = s8.ledger := (s9.leaveAll_ledger g.id r).trans (s8.modCoreAt_ledger c _)
    obtain ⟨l, hl⟩ := hg
    have h8 : s8.onlyOwes g := ⟨_, State.modGang_only (s := s7) ((State.gangs_of_ledger h7).trans hl) _⟩
    exact ⟨State.onlyOwes_of_gangs (State.gangs_of_ledger h9) h8, (State.contains_of_ledger h9).trans ((s7.modGang_contains _ _).trans (State.contains_of_ledger h7))⟩

theorem State.haltStrands_gangs {g : Gang} (l : List Nat) {s : State} (hg : s.onlyOwes g) :
    (l.foldl (fun s r => s.haltStrand g.id r) s).onlyOwes g ∧ (l.foldl (fun s r => s.haltStrand g.id r) s).contains = s.contains := by
  induction l generalizing s with
  | nil => exact ⟨hg, rfl⟩
  | cons r l ih =>
    obtain ⟨h1, hc1⟩ := State.haltStrand_gangs hg r
    obtain ⟨h2, hc2⟩ := ih h1
    exact ⟨h2, hc2.trans hc1⟩

theorem State.sealTiles_ledger (s : State) (gi r : Nat) : (s.sealTiles gi r).ledger = s.ledger := by
  unfold State.sealTiles
  split
  · rfl
  · exact (foldl_keeps (p := State.ledger) (fun u a => State.ledger_of_scene (u.arrivalDone_scene a 1)) _ _).trans (s.putCore_ledger _)

theorem State.balance_ledger (s : State) (g : Gang) : (s.balance g).ledger = s.ledger := by
  unfold State.balance
  exact ite_keeps rfl rfl

/-- R237: a phase's completion clears its gang's arrivals, and nothing else of the gangs. -/
theorem State.completePhase_gangs {s : State} {g : Gang} (hg : s.gangs = [g]) :
    ∃ l o, (s.completePhase g.id).gangs = [{ g with arrived := l, coreOrder := o }] ∧ (s.completePhase g.id).contains = s.contains := by
  have hfind : s.gang? g.id = some g := by simp [State.gang?, hg]
  rw [State.completePhase, hfind]
  dsimp only
  split
  · exact ⟨g.arrived, g.coreOrder, hg, rfl⟩
  · have ht : ∀ u : State, (g.cores.foldl (fun s c => s.wakeIf c (fun t => t.gang == g.id && t.wait == .barrier)) u).ledger = u.ledger := fun u =>
      foldl_keeps (p := State.ledger) (fun v c => v.wakeIf_ledger c _) _ u
    have hs := (ht _).trans (foldl_keeps (p := State.ledger) (fun u (h : BitVec 32) => u.toToken_ledger ⟨1, h, 1, false, none, true, Config.cores, 0, none⟩ g.kasid) (g.arrived.filterMap (·.handle)) s)
    refine ⟨[], [], ?_, ?_⟩
    · rw [State.gangs_of_ledger (State.balance_ledger _ _)]
      exact State.modGang_only ((State.gangs_of_ledger hs).trans hg) _
    · rw [State.contains_of_ledger (State.balance_ledger _ _)]
      have hc := State.contains_of_ledger hs
      exact hc

/-! ## Containment without requests on their way (R395) -/

theorem State.toEnd_nil {s : State} (h : s.reqs = []) (gi r : Nat) : s.toEnd gi r = [] := by
  rw [State.toEnd, h]
  rfl

theorem State.landing_nil {s : State} (h : s.reqs = []) (gi r : Nat) : s.landing gi r = false := by
  rw [State.landing, h]
  rfl

theorem State.outCombines_nil {s : State} (h : s.reqs = []) (gi r : Nat) : s.outCombines gi r = [] := by
  rw [State.outCombines, h]
  rfl

theorem State.coreAt_mem (s : State) (c : Nat) : s.coreAt c ∈ s.core :: s.others ∨ s.coreAt c = Core.fresh c := by
  unfold State.coreAt
  split
  · exact .inl List.mem_cons_self
  · cases h : s.others.find? (fun k => k.id == c) with
    | none => exact .inr rfl
    | some k => exact .inl (List.mem_cons_of_mem _ (List.mem_of_find?_eq_some h))

theorem State.owes_length {s : State} (hq : ∀ k ∈ s.core :: s.others, k.st.queue.length ≤ 32) (c gi r : Nat) : (s.owes c gi r).length ≤ 32 := by
  unfold State.owes
  dsimp only
  split
  · refine (List.length_filterMap_le ..).trans ?_
    rcases s.coreAt_mem c with h | h
    · exact hq _ h
    · rw [h]
      exact Nat.zero_le _
  · exact Nat.zero_le _

/-- With every tag free, the contributions of a queue's instructions find theirs (R302, R359). -/
theorem State.owedWait_nil {s : State} (h : s.reqs = []) (hq : ∀ k ∈ s.core :: s.others, k.st.queue.length ≤ 32) (gi r : Nat) : s.owedWait gi r = false := by
  unfold State.owedWait
  split
  · rfl
  next c _ _ =>
    refine List.any_eq_false.mpr fun d _ => ?_
    rw [s.outCombines_nil h, State.tagsFree, h]
    have hle : ∀ f : FillAt × Arrival → Option Nat, ((s.owes c gi r).filterMap f).length ≤ 4096 := fun f =>
      (List.length_filterMap_le f _).trans ((State.owes_length hq c gi r).trans (by decide))
    rw [List.map_nil, List.append_nil, decide_eq_true_eq, Nat.not_lt]
    exact hle _

/-- R395 step 4: the records are memory. -/
theorem State.writeRecords_ledger (l : List Stop) (g : Gang) (s : State) : (l.foldl (fun s p => s.writeRecord g p) s).ledger = s.ledger :=
  foldl_keeps (p := State.ledger) (fun u _ => u.writePa_ledger _ _ _ _ _ _ _ _ _ _ _) l s

/-- R396: a contained strand under isolate, once it has stopped. -/
def State.isolated (u : State) (g : Gang) (x : Contain) : State :=
  ((({ u with contains := u.contains.erase x } : State).modGang g.id (fun g => ({ g with contained := g.contained ++ [x.rank], status := 1 } : Gang).ordered)).sealTiles g.id x.rank).completePhase g.id

/-- R396: a gang contained whole, once its strands have stopped. -/
def State.containedWhole (u : State) (g : Gang) : State :=
  ({ u with contains := u.contains.filter (fun c => c.gang != g.id) } : State).modGang g.id (fun g => { g with state := .contained, status := 1, owed := g.owed ++ g.arrived.filterMap Arrived.handle })

/-- R395: with no request on its way, a containment of the only gang stops its strands at once. -/
theorem State.containOne_only {s : State} {g : Gang} {x : Contain} (hg : s.gangs = [g]) (hx : x.gang = g.id) (hr : s.reqs = []) (hq : ∀ k ∈ s.core :: s.others, k.st.queue.length ≤ 32) :
    ∃ u : State, u.onlyOwes g ∧ u.contains = s.contains ∧ s.containOne x = some (if g.task.isolate then u.isolated g x else u.containedWhole g) := by
  have hfind : s.gang? x.gang = some g := by simp [State.gang?, hg, hx]
  have hown : s.onlyOwes g := ⟨g.owed, hg⟩
  rw [State.containOne, hfind]
  dsimp only
  rw [if_neg (by simp [State.toEnd_nil hr]), if_neg (by simp [State.landing_nil hr, State.owedWait_nil hr hq])]
  generalize (if g.task.isolate = true then [x.rank] else (List.range g.size).filter (fun r => !g.exited.any (fun e => e.rank == r))) = ranks
  obtain ⟨hu, hc⟩ := State.haltStrands_gangs ranks hown
  have hl := State.writeRecords_ledger (ranks.filterMap (s.stopOf g)) g (ranks.foldl (fun s r => s.haltStrand g.id r) s)
  refine ⟨_, State.onlyOwes_of_gangs (State.gangs_of_ledger hl) hu, (State.contains_of_ledger hl).trans hc, ?_⟩
  cases g.task.isolate <;> rfl

theorem State.containedWhole_gangs {u : State} {g : Gang} {x : Contain} (hu : u.onlyOwes g) (hc : u.contains = [x]) (hx : x.gang = g.id) :
    (u.containedWhole g).contains = [] ∧ ∃ l, (u.containedWhole g).gangs = [{ g with state := .contained, status := 1, owed := l }] := by
  obtain ⟨l, hl⟩ := hu
  refine ⟨?_, _, State.modGang_only (s := { u with contains := u.contains.filter (fun c => c.gang != g.id) }) hl _⟩
  change u.contains.filter _ = []
  rw [hc]
  simp [hx]

theorem State.isolated_gangs {u : State} {g : Gang} {x : Contain} (hu : u.onlyOwes g) (hc : u.contains = [x]) :
    (u.isolated g x).contains = [] ∧ ∃ l o a, (u.isolated g x).gangs = [{ g with contained := g.contained ++ [x.rank], status := 1, owed := l, coreOrder := o, arrived := a }] := by
  obtain ⟨l, hl⟩ := hu
  have hmod := State.modGang_only (s := { u with contains := u.contains.erase x }) hl (fun g => ({ g with contained := g.contained ++ [x.rank], status := 1 } : Gang).ordered)
  have hseal := State.sealTiles_ledger (({ u with contains := u.contains.erase x } : State).modGang g.id (fun g => ({ g with contained := g.contained ++ [x.rank], status := 1 } : Gang).ordered)) g.id x.rank
  obtain ⟨a, o, hgangs, hcon⟩ := State.completePhase_gangs ((State.gangs_of_ledger hseal).trans hmod)
  refine ⟨hcon.trans ((State.contains_of_ledger hseal).trans ?_), l, o, a, hgangs⟩
  change u.contains.erase x = []
  rw [hc]
  exact List.erase_cons_head x []

/-- Settles O42: a strand's stop touches of its gang only what it owes (haltStrand_gangs), and a gang's end leaves the core in turn none of its strands (releaseCores_scene). -/
theorem gangsEnd : Obligations.GangsEnd := by
  refine fun s g hs hg => ⟨fun x hc hx hr hq => ?_, fun hst h0 hp hex htok => ?_⟩
  · obtain ⟨u, hu, huc, he⟩ := State.containOne_only hg hx hr hq
    have hev : s.evContain = some (if g.task.isolate then u.isolated g x else u.containedWhole g) := by
      rw [State.evContain, hc]
      exact nth_head hs he
    rw [hc] at huc
    cases hi : g.task.isolate with
    | false =>
      obtain ⟨hcon, l, hl⟩ := State.containedWhole_gangs hu huc hx
      refine ⟨u.containedWhole g, _, ?_, hcon, hl, rfl, rfl, rfl, rfl, rfl, fun _ => rfl, fun h => by cases h⟩
      rw [hi] at hev
      exact congrArg s.event hev
    | true =>
      obtain ⟨hcon, l, o, a, hl⟩ := State.isolated_gangs (x := x) hu huc
      refine ⟨u.isolated g x, _, ?_, hcon, hl, rfl, rfl, rfl, rfl, rfl, (fun h => by cases h), fun _ => ⟨rfl, rfl⟩⟩
      rw [hi] at hev
      exact congrArg s.event hev
  · have hdone : s.gangDone g = true := by
      simp [State.gangDone, hst, h0, Gang.over_of_exited hex, State.tokensQuiet_of htok]
    have hev : s.evGangComplete = some (s.endGang g) := by
      rw [State.evGangComplete, hg]
      exact nth_head hs (if_pos hdone)
    obtain ⟨hgangs, hw, hm, hpk, hfree⟩ := State.endGang_only hg h0 hp
    exact ⟨s.endGang g, congrArg s.event hev, hgangs, hw, hm, hpk, fun h => (hfree h).1, fun h => (hfree h).2⟩

end Sys2Proof.Machine
end

section
/-!
PROOFS. A word is what the format of R104 makes of its fields, and a field what its sub-fields make of it: the converse of Laws/Decode, which reads the fields of a built word back.
-/
namespace Sys2Proof

/-- What a match on a field's number says of the field. -/
theorem eq_ofNat {n k : Nat} {x : BitVec n} (h : x.toNat = k) : x = BitVec.ofNat n k := by
  rw [← h, BitVec.ofNat_toNat, BitVec.setWidth_eq]

/-- A run of bits from its two parts, from bit s upwards. -/
theorem extract_eq_append (s m l : Nat) {n : Nat} {x : BitVec n} {hi : BitVec m} {lo : BitVec l} (hhi : x.extractLsb' (s + l) m = hi) (hlo : x.extractLsb' s l = lo) : x.extractLsb' s (m + l) = hi ++ lo := by
  rw [← hhi, ← hlo, BitVec.extractLsb'_append_extractLsb'_eq_extractLsb' rfl]

/-- A field from its parts, whose widths are named from the left. -/
theorem eq_append (m l : Nat) {x : BitVec (m + l)} {hi : BitVec m} {lo : BitVec l} (hhi : x.extractLsb' l m = hi) (hlo : x.extractLsb' 0 l = lo) : x = hi ++ lo := by
  rw [← hhi, ← hlo, BitVec.extractLsb'_append_extractLsb']

theorem eq_append₃ (k m l : Nat) {x : BitVec (k + m + l)} {x₁ : BitVec k} {x₂ : BitVec m} {x₃ : BitVec l} (h₁ : x.extractLsb' (l + m) k = x₁) (h₂ : x.extractLsb' l m = x₂) (h₃ : x.extractLsb' 0 l = x₃) : x = x₁ ++ x₂ ++ x₃ :=
  eq_append (k + m) l (extract_eq_append _ _ _ h₁ h₂) h₃

theorem eq_append₄ (j k m l : Nat) {x : BitVec (j + k + m + l)} {x₁ : BitVec j} {x₂ : BitVec k} {x₃ : BitVec m} {x₄ : BitVec l} (h₁ : x.extractLsb' (l + m + k) j = x₁) (h₂ : x.extractLsb' (l + m) k = x₂) (h₃ : x.extractLsb' l m = x₃) (h₄ : x.extractLsb' 0 l = x₄) : x = x₁ ++ x₂ ++ x₃ ++ x₄ :=
  eq_append₃ (j + k) m l (extract_eq_append _ _ _ h₁ h₂) h₃ h₄

theorem eq_append₅ (i j k m l : Nat) {x : BitVec (i + j + k + m + l)} {x₁ : BitVec i} {x₂ : BitVec j} {x₃ : BitVec k} {x₄ : BitVec m} {x₅ : BitVec l} (h₁ : x.extractLsb' (l + m + k + j) i = x₁) (h₂ : x.extractLsb' (l + m + k) j = x₂) (h₃ : x.extractLsb' (l + m) k = x₃) (h₄ : x.extractLsb' l m = x₄) (h₅ : x.extractLsb' 0 l = x₅) : x = x₁ ++ x₂ ++ x₃ ++ x₄ ++ x₅ :=
  eq_append₄ (i + j) k m l (extract_eq_append _ _ _ h₁ h₂) h₃ h₄ h₅

section
variable {w : IWord} {mo : BitVec 7} {d a b : BitVec 5} {mk : BitVec 3} {fn : BitVec 7} {imm : BitVec 15} {im20 : BitVec 20} {off25 : BitVec 25} {sz : BitVec 3} {off : BitVec 12} {fn10 : BitVec 10} {acc mr mc : BitVec 3} {op2 : BitVec 2} {fn4 : BitVec 4}

theorem wordA_of_fields (hmo : fMo w = mo) (hd : fD w = d) (ha : fA w = a) (hb : fB w = b) (hmk : fMk w = mk) (hfn : fFn w = fn) : wordA mo d a b mk fn = w := by
  subst hmo hd ha hb hmk hfn
  simp only [wordA, fMo, fD, fA, fB, fMk, fFn, BitVec.extractLsb'_append_extractLsb'_eq_extractLsb']
  exact extract_all w

theorem wordI_of_fields (hmo : fMo w = mo) (hd : fD w = d) (ha : fA w = a) (himm : fImm w = imm) : wordI mo d a imm = w := by
  subst hmo hd ha himm
  simp only [wordI, fMo, fD, fA, fImm, BitVec.extractLsb'_append_extractLsb'_eq_extractLsb']
  exact extract_all w

theorem wordW_of_fields (hmo : fMo w = mo) (hd : fD w = d) (himm : fImm20 w = im20) : wordW mo d im20 = w := by
  subst hmo hd himm
  simp only [wordW, fMo, fD, fImm20, BitVec.extractLsb'_append_extractLsb'_eq_extractLsb']
  exact extract_all w

theorem wordJ_of_fields (hmo : fMo w = mo) (hoff : fOff25 w = off25) : wordJ mo off25 = w :=
  (eq_append 7 25 hmo hoff).symm

theorem wordM_of_fields (hmo : fMo w = mo) (hd : fD w = d) (ha : fA w = a) (hsz : fSz w = sz) (hoff : fOff w = off) : wordM mo d a sz off = w := by
  subst hmo hd ha hsz hoff
  simp only [wordM, fMo, fD, fA, fSz, fOff, BitVec.extractLsb'_append_extractLsb'_eq_extractLsb']
  exact extract_all w

theorem fFn_low (w : IWord) : (fFn w).extractLsb' 0 4 = w.extractLsb' 0 4 := BitVec.extractLsb'_extractLsb'_of_le (by decide)

theorem fImm_low (w : IWord) : (fImm w).extractLsb' 0 1 = w.extractLsb' 0 1 := BitVec.extractLsb'_extractLsb'_of_le (by decide)

theorem fFn10_low (w : IWord) : (fFn10 w).extractLsb' 0 1 = w.extractLsb' 0 1 := BitVec.extractLsb'_extractLsb'_of_le (by decide)

theorem wordX_of_fields (hmo : fMo w = 0x40#7) (hacc : fAcc w = acc) (hop2 : fOp2 w = op2) (ha : fA w = a) (hb : fB w = b) (hmr : fMk w = mr) (hmc : fMc w = mc) (hfn : (fFn w).extractLsb' 0 4 = fn4) : wordX acc op2 a b mr mc fn4 = w := by
  subst hacc hop2 ha hb hmr hmc hfn
  rw [wordX, ← hmo, fFn_low]
  simp only [fMo, fAcc, fOp2, fA, fB, fMk, fMc, BitVec.extractLsb'_append_extractLsb'_eq_extractLsb']
  exact extract_all w

theorem wordY_of_fields (hmo : fMo w = mo) (hd : fD w = d) (ha : fA w = a) (hb : fB w = b) (hfn : fFn10 w = fn10) : wordY mo d a b fn10 = w := by
  subst hmo hd ha hb hfn
  simp only [wordY, fMo, fD, fA, fB, fFn10, BitVec.extractLsb'_append_extractLsb'_eq_extractLsb']
  exact extract_all w

end

end Sys2Proof
end

section
/-!
PROOFS. DecodeEncode: the decoder inverts the encoder on every instruction, and answers an instruction only for its own word, each major opcode's decoder by itself (R108).
-/
namespace Sys2Proof

/-! ## From the instruction to its word and back -/

/-- The word of a well-formed instruction decodes to it: by its major opcode, each sub-field read back (R108-R129). -/
theorem decodeWord_of_encode {i : Instr} {w : IWord} (wf : WellFormed i = true) (he : encode i = some w) : decodeWord w = .instr i := by
  cases i with
  | add | sub | and | or | xor | sll | srl | sra | mul | mulh | mulhn | div | divn | rem | remn | slt | sltn | min | max | minn | maxn | clz | ctz | popc | clmul | clmulh =>
    cases he
    simp [decodeWord_decAlu, decAlu, need]
  | addi | andi | ori | xori | slti | sltni | movw | adrp | jal | jalr =>
    cases he
    simp [decodeWord]
  | slli | srli | srai =>
    cases he
    simp [decodeWord_decShift, decShift, need, -BitVec.reduceAppend, part_0_6_of_7_2_6, part_6_2_of_7_2_6, part_8_7_of_7_2_6]
  | movk =>
    cases he
    simp [decodeWord, need, -BitVec.reduceAppend, part_0_16_of_2_2_16, part_16_2_of_2_2_16, part_18_2_of_2_2_16]
  | fadd | fsub | fmul | fdiv | fsqrt | fma | fmin | fmax | fclass =>
    cases he
    simp [decodeWord_decFp, decFp, need, -BitVec.reduceAppend, part_0_6_of_1_6, part_6_1_of_1_6]
  | fcvt _ _ c _ =>
    cases he
    have hc : c.toNat ≤ 4 := of_decide_eq_true wf
    simp [decodeWord_decFp, decFp, need, -BitVec.reduceAppend, part_0_6_of_1_6, part_6_1_of_1_6, Nat.not_lt.mpr hc]
  | fcmp _ _ _ c _ =>
    cases he
    have hc : c.toNat ≤ 3 := of_decide_eq_true wf
    simp [decodeWord_decFp, decFp, -BitVec.reduceAppend, part_0_6_of_1_6, part_6_1_of_1_6, Nat.not_lt.mpr hc]
  | beq | bne | blt | bge | bltn | bgen =>
    cases he
    simp [decodeWord_decBranch, decBranch]
  | ldb | ldh | ldw | ldd | ldbn | ldhn | ldwn =>
    cases he
    simp [decodeWord_decLoad, decLoad]
  | stb | sth | stw | std =>
    cases he
    simp [decodeWord_decStore, decStore]
  | ldx _ _ _ _ z =>
    cases he
    have hz : z ≠ 7#3 := by
      rintro rfl
      cases wf
    simp [decodeWord_decLdx, decLdx, need, -BitVec.reduceAppend, part_0_3_of_2_2_3, part_3_2_of_2_2_3, part_5_2_of_2_2_3, hz]
  | stx =>
    cases he
    simp [decodeWord_decStx, decStx, need, -BitVec.reduceAppend, part_0_2_of_2_2_1_2, part_2_1_of_2_2_1_2, part_3_2_of_2_2_1_2, part_5_2_of_2_2_1_2]
  | amoadd _ _ _ _ _ _ s | amoand _ _ _ _ _ _ s | amoor _ _ _ _ _ _ s | amoxor _ _ _ _ _ _ s | amomin _ _ _ _ _ _ s | amomax _ _ _ _ _ _ s | amominn _ _ _ _ _ _ s | amomaxn _ _ _ _ _ _ s | amoswp _ _ _ _ _ _ s | amocas _ _ _ _ _ _ s =>
    cases he
    have hs : s.toNat ≤ 4 := of_decide_eq_true wf
    simp [decodeWord_decAmo, decAmo, need, -BitVec.reduceAppend, part_0_4_of_1_1_1_3_4, part_4_3_of_1_1_1_3_4, part_7_1_of_1_1_1_3_4, part_8_1_of_1_1_1_3_4, part_9_1_of_1_1_1_3_4, hs]
  | fence _ _ c =>
    cases he
    have hc : c.toNat ≤ 4 := of_decide_eq_true wf
    simp [decodeWord_decFence, decFence, need, -BitVec.reduceAppend, part_0_3_of_2_5_5_3, part_3_5_of_2_5_5_3, part_8_5_of_2_5_5_3, part_13_2_of_2_5_5_3, hc]
  | setvl | live | setvli =>
    cases he
    simp [decodeWord_decConfig, decConfig, need, low_wordI, low_wordY, -BitVec.reduceAppend, part_0_1_of_1_1_1_2_3_4_2_1, part_1_2_of_1_1_1_2_3_4_2_1, part_3_4_of_1_1_1_2_3_4_2_1, part_7_3_of_1_1_1_2_3_4_2_1, part_10_2_of_1_1_1_2_3_4_2_1, part_12_1_of_1_1_1_2_3_4_2_1, part_13_1_of_1_1_1_2_3_4_2_1, part_14_1_of_1_1_1_2_3_4_2_1]
  | vaddVV | vsubVV | vmulVV | vmulhVV | vmulhnVV | vandVV | vorVV | vxorVV | vsllVV | vsrlVV | vsraVV | vminVV | vmaxVV | vminnVV | vmaxnVV | vsaddVV | vssubVV | vmergeVV =>
    cases he
    simp [decodeWord_decVecIntVV, decVecIntVV]
  | vaddVS | vsubVS | vmulVS | vmulhVS | vmulhnVS | vandVS | vorVS | vxorVS | vsllVS | vsrlVS | vsraVS | vminVS | vmaxVS | vminnVS | vmaxnVS | vsaddVS | vssubVS | vmergeVS =>
    cases he
    simp [decodeWord_decVecIntVS, decVecIntVS]
  | vfaddVV | vfsubVV | vfmulVV | vfdivVV | vfsqrt | vfmaVV | vfnmsVV | vfminVV | vfmaxVV | vfexp2 =>
    cases he
    simp [decodeWord_decVecFpVV, decVecFpVV, need]
  | vfcvt _ _ t _ =>
    cases he
    have ht : t.toNat ≤ 8 := of_decide_eq_true wf
    simp [decodeWord_decVecFpVV, decVecFpVV, need, -BitVec.reduceAppend, part_0_4_of_1_4, part_4_1_of_1_4, Nat.not_lt.mpr ht]
  | vfaddVS | vfsubVS | vfmulVS | vfdivVS | vfmaVS | vfnmsVS | vfminVS | vfmaxVS =>
    cases he
    simp [decodeWord_decVecFpVS, decVecFpVS]
  | vcmpVV _ _ _ _ c | vcmpVS _ _ _ _ c | vfcmpVV _ _ _ _ c | vfcmpVS _ _ _ _ c =>
    cases he
    have hc : c.toNat ≤ 5 := of_decide_eq_true wf
    simp [decodeWord_decCmp, decCmp, -BitVec.reduceAppend, part_0_3_of_2_2_3, part_3_2_of_2_2_3, part_5_2_of_2_2_3, part_0_3_of_2_3, part_3_2_of_2_3, Nat.not_lt.mpr hc]
  | mand | mor | mxor | mpopc | mfirst | mtov | vtom =>
    cases he
    simp [decodeWord_decMask, decMask, need, -BitVec.reduceAppend, part_0_3_of_2_3, part_3_2_of_2_3]
  | vslup | vsldn | vrgath | vcomp | viota | vext | vins | vbcst =>
    cases he
    simp [decodeWord_decPerm, decPerm, need, -BitVec.reduceAppend, part_0_3_of_2_3, part_3_2_of_2_3]
  | vred _ _ _ o | vscan _ _ _ o =>
    cases he
    have ho : o.toNat ≤ 7 := of_decide_eq_true wf
    simp [decodeWord_decReduce, decReduce, -BitVec.reduceAppend, part_0_4_of_1_2_4, part_4_2_of_1_2_4, part_6_1_of_1_2_4, Nat.not_lt.mpr ho]
  | vclmulVV | vclmulVS | vclmulhVV | vclmulhVS =>
    cases he
    simp [decodeWord_decClmul, decClmul, -BitVec.reduceAppend, part_0_1_of_1_5_1, part_1_5_of_1_5_1, part_6_1_of_1_5_1]
  | vld | vlds | vldx | vldff | vldxp =>
    cases he
    simp [decodeWord_decVLoad, decVLoad, need, -BitVec.reduceAppend, part_0_3_of_3_1_3, part_3_1_of_3_1_3, part_4_3_of_3_1_3]
  | vst | vsts | vstx | vstxo | vstxp =>
    cases he
    simp [decodeWord_decVStore, decVStore, need, -BitVec.reduceAppend, part_0_3_of_3_1_3, part_3_1_of_3_1_3, part_4_3_of_3_1_3]
  | vsca _ _ _ _ o =>
    cases he
    have ho : o ≠ 3#2 := by
      rintro rfl
      cases wf
    simp [decodeWord_decVsca, decVsca, need, -BitVec.reduceAppend, part_0_2_of_5_2, part_2_5_of_5_2, ho]
  | tldf | tstf | twait | tstat | tset | tarm | tcmb =>
    cases he
    simp [decodeWord_decTileF, decTileF, need, -BitVec.reduceAppend, part_0_3_of_3_4, part_3_1_of_3_4, part_4_3_of_3_4]
  | tknew | tkfree | tkarm | tksig | tkrd =>
    cases he
    simp [decodeWord_decTokenF, decTokenF, need]
  | await | yield =>
    cases he
    simp [decodeWord_decWait, decWait, need]
  | cpy | cpyg =>
    cases he
    simp [decodeWord_decCopy, decCopy, need, -BitVec.reduceAppend, part_0_5_of_2_3_5, part_5_3_of_2_3_5, part_8_2_of_2_3_5]
  | cpy2d d _ _ _ _ =>
    cases he
    have hd : d ≠ 31#5 := by
      rintro rfl
      cases wf
    simp [decodeWord_decCopy, decCopy, -BitVec.reduceAppend, part_0_5_of_2_3_5, part_5_3_of_2_3_5, part_8_2_of_2_3_5, hd]
  | gjoin | gleave =>
    cases he
    simp [decodeWord_decGroupF, decGroupF, need]
  | bar =>
    cases he
    simp [decodeWord_decBarF, decBarF, need]
  | spawn | sexit =>
    cases he
    simp [decodeWord_decStrandF, decStrandF, need]
  | sid _ s =>
    cases he
    have hs : s.toNat ≤ 4 := of_decide_eq_true wf
    simp [decodeWord_decStrandF, decStrandF, need, -BitVec.reduceAppend, part_0_4_of_8_4, part_4_8_of_8_4, Nat.not_lt.mpr hs]
  | mopa | mops | mzero | mrd | mwr | mldt | mstt | mpatch =>
    cases he
    simp [decodeWord_decMatrix, decMatrix, need, -BitVec.reduceAppend, part_0_1_of_1_1, part_1_1_of_1_1, part_0_4_of_3_4]
  | wclr | brk =>
    cases he
    simp [decodeWord_decDebug, decDebug, need, -BitVec.reduceAppend, part_0_3_of_2_3, part_3_2_of_2_3]
  | wset _ a =>
    cases he
    have ha : a.toNat ≤ 28 := of_decide_eq_true wf
    simp [decodeWord_decDebug, decDebug, need, -BitVec.reduceAppend, part_0_3_of_2_3, part_3_2_of_2_3, Nat.not_lt.mpr ha]
  | callk | eret | krd | kwr | tlbinvAll | tlbinvAsid | tlbinvPage | mdead | sflush =>
    cases he
    simp [decodeWord_decSystem, decSystem, need]
  | _ => exact nomatch he

/-! ## From the word to its instruction and back -/

/-- An instruction that is well formed and whose word is w. -/
def IsWordOf (w : IWord) (i : Instr) : Prop := WellFormed i = true ∧ encode i = some w

/-- What decoding w answers is sound: only an instruction whose word is w. -/
def Sound (w : IWord) (r : Decoded) : Prop := ∀ i, r = .instr i → IsWordOf w i

section
variable {w : IWord}

theorem sound_illegal {c : BitVec 8} : Sound w (.illegal c) := fun _ h => nomatch h

theorem sound_instr {i : Instr} (h : IsWordOf w i) : Sound w (.instr i) := by
  rintro _ ⟨⟩
  exact h

theorem sound_need {ok : Bool} {i : Instr} (h : ok = true → IsWordOf w i) : Sound w (need ok i) := by
  cases ok with
  | false => exact sound_illegal
  | true => exact sound_instr (h rfl)

theorem sound_unless {p : Prop} [Decidable p] {c : BitVec 8} {r : Decoded} (h : ¬p → Sound w r) : Sound w (if p then .illegal c else r) := by
  split
  · exact sound_illegal
  · exact h ‹_›

/-- An arm of a decoder by fn that leaves every other field of format A to its instruction. -/
theorem sound_of_fFn {mo : BitVec 7} {k : Nat} {i : Instr} (hmo : fMo w = mo) (hfn : (fFn w).toNat = k) (wf : WellFormed i = true) (he : encode i = some (wordA mo (fD w) (fA w) (fB w) (fMk w) (BitVec.ofNat 7 k))) : Sound w (.instr i) :=
  sound_instr ⟨wf, he.trans (congrArg some (wordA_of_fields hmo rfl rfl rfl rfl (eq_ofNat hfn)))⟩

/-- An arm of a decoder by sz that leaves every other field of format M to its instruction. -/
theorem sound_of_fSz {mo : BitVec 7} {k : Nat} {i : Instr} (hmo : fMo w = mo) (hsz : (fSz w).toNat = k) (wf : WellFormed i = true) (he : encode i = some (wordM mo (fD w) (fA w) (BitVec.ofNat 3 k) (fOff w))) : Sound w (.instr i) :=
  sound_instr ⟨wf, he.trans (congrArg some (wordM_of_fields hmo rfl rfl (eq_ofNat hsz) rfl))⟩

theorem decAlu_sound (hmo : fMo w = 0x01) : Sound w (decAlu w) := by
  unfold decAlu
  split
  case h_27 => exact sound_illegal
  all_goals
    rename_i hfn
    refine sound_need fun h => ⟨rfl, congrArg some (wordA_of_fields hmo rfl rfl ?_ ?_ (eq_ofNat hfn))⟩ <;> simp_all

theorem decShift_sound (hmo : fMo w = 0x06) : Sound w (decShift w) := by
  unfold decShift
  split
  case h_4 => exact sound_illegal
  all_goals
    rename_i hkind
    exact sound_need fun h => ⟨rfl, congrArg some (wordI_of_fields hmo rfl rfl (eq_append₃ 7 2 6 (eq_of_beq h) hkind rfl))⟩

theorem decFp_sound (hmo : fMo w = 0x0C) : Sound w (decFp w) := by
  unfold decFp
  split
  case h_12 => exact sound_illegal
  case h_9 hop =>
    exact sound_unless fun hb => sound_need fun hmk =>
      ⟨decide_eq_true (Nat.le_of_not_lt hb), congrArg some (wordA_of_fields hmo rfl rfl rfl (eq_of_beq hmk) (eq_append 1 6 rfl (eq_ofNat hop)))⟩
  case h_11 hop =>
    exact sound_unless fun hmk => sound_instr
      ⟨decide_eq_true (Nat.le_of_not_lt hmk), congrArg some (wordA_of_fields hmo rfl rfl rfl rfl (eq_append 1 6 rfl (eq_ofNat hop)))⟩
  all_goals
    rename_i hop
    refine sound_need fun h => ⟨rfl, congrArg some (wordA_of_fields hmo rfl rfl ?_ ?_ (eq_append 1 6 rfl (eq_ofNat hop)))⟩ <;> simp_all

theorem decBranch_sound (hmo : fMo w = 0x10) : Sound w (decBranch w) := by
  unfold decBranch
  split
  case h_7 => exact sound_illegal
  all_goals
    rename_i hsz
    exact sound_of_fSz hmo hsz rfl rfl

theorem decLoad_sound (hmo : fMo w = 0x18) : Sound w (decLoad w) := by
  unfold decLoad
  split
  case h_8 => exact sound_illegal
  all_goals
    rename_i hsz
    exact sound_of_fSz hmo hsz rfl rfl

theorem decStore_sound (hmo : fMo w = 0x19) : Sound w (decStore w) := by
  unfold decStore
  split
  case h_5 => exact sound_illegal
  all_goals
    rename_i hsz
    exact sound_of_fSz hmo hsz rfl rfl

theorem decLdx_sound (hmo : fMo w = 0x1A) : Sound w (decLdx w) := by
  unfold decLdx
  refine sound_unless fun hz => sound_need fun h => ?_
  have wf : ((fFn w).extractLsb' 0 3).toNat ≤ 6 := by
    simp only [beq_iff_eq] at hz
    bv_omega
  obtain ⟨hfn, hmk⟩ : (fFn w).extractLsb' 5 2 = 0 ∧ fMk w = 0 := by simpa using h
  exact ⟨decide_eq_true wf, congrArg some (wordA_of_fields hmo rfl rfl rfl hmk (eq_append₃ 2 2 3 hfn rfl rfl))⟩

theorem decStx_sound (hmo : fMo w = 0x1B) : Sound w (decStx w) := by
  unfold decStx
  refine sound_unless fun hz => sound_need fun h => ?_
  obtain ⟨hfn, hmk⟩ : (fFn w).extractLsb' 5 2 = 0 ∧ fMk w = 0 := by simpa using h
  have hz' : (fFn w).extractLsb' 2 1 = 0 := (BitVec.eq_zero_or_eq_one _).resolve_right (by simpa using hz)
  exact ⟨rfl, congrArg some (wordA_of_fields hmo rfl rfl rfl hmk (eq_append₄ 2 2 1 2 hfn rfl hz' rfl))⟩

theorem decAmo_sound (hmo : fMo w = 0x1C) : Sound w (decAmo w) := by
  unfold decAmo
  split
  case h_11 => exact sound_illegal
  all_goals
    rename_i hop
    exact sound_need fun h => ⟨h, congrArg some (wordY_of_fields hmo rfl rfl rfl (eq_append₅ 1 1 1 3 4 rfl rfl rfl rfl (eq_ofNat hop)))⟩

theorem decFence_sound (hmo : fMo w = 0x1D) : Sound w (decFence w) := by
  refine sound_need fun h => ?_
  obtain ⟨⟨⟨hd, ha⟩, himm⟩, hc⟩ : ((fD w = 0 ∧ fA w = 0) ∧ (fImm w).extractLsb' 13 2 = 0) ∧ ((fImm w).extractLsb' 0 3).toNat ≤ 4 := by simpa using h
  exact ⟨decide_eq_true hc, congrArg some (wordI_of_fields hmo hd ha (eq_append₄ 2 5 5 3 himm rfl rfl rfl))⟩

theorem decConfig_sound (hmo : fMo w = 0x20) : Sound w (decConfig w) := by
  unfold decConfig
  split
  case isTrue hlow =>
    refine sound_need fun h => ⟨rfl, congrArg some (wordI_of_fields hmo rfl rfl (eq_append₅ 5 3 4 2 1 ?_ rfl rfl rfl ?_))⟩
    · have hres : (fImm w).extractLsb' 14 1 = 0#1 := eq_of_beq h
      simp only [← hres, BitVec.extractLsb'_append_extractLsb'_eq_extractLsb']
    · exact (fImm_low w).trans (eq_of_beq hlow)
  case isFalse hlow =>
    have hlow : (fFn10 w).extractLsb' 0 1 = 0#1 := by
      rw [fFn10_low]
      exact (BitVec.eq_zero_or_eq_one _).resolve_right (by simpa using hlow)
    split
    case h_1 hop => exact sound_instr ⟨rfl, congrArg some (wordY_of_fields hmo rfl rfl rfl (eq_append 9 1 (eq_ofNat hop) hlow))⟩
    case h_2 hop =>
      refine sound_need fun h => ?_
      obtain ⟨hd, hb⟩ : fD w = 0 ∧ fB w = 0 := by simpa using h
      exact ⟨rfl, congrArg some (wordY_of_fields hmo hd rfl hb (eq_append 9 1 (eq_ofNat hop) hlow))⟩
    case h_3 => exact sound_illegal

theorem decVecIntVV_sound (hmo : fMo w = 0x21) : Sound w (decVecIntVV w) := by
  unfold decVecIntVV
  split
  case h_19 => exact sound_illegal
  all_goals
    rename_i hfn
    exact sound_of_fFn hmo hfn rfl rfl

theorem decVecIntVS_sound (hmo : fMo w = 0x22) : Sound w (decVecIntVS w) := by
  unfold decVecIntVS
  split
  case h_19 => exact sound_illegal
  all_goals
    rename_i hfn
    exact sound_of_fFn hmo hfn rfl rfl

theorem decVecFpVV_sound (hmo : fMo w = 0x23) : Sound w (decVecFpVV w) := by
  unfold decVecFpVV
  split
  case h_12 => exact sound_illegal
  case h_5 hfn | h_11 hfn => exact sound_need fun hb => ⟨rfl, congrArg some (wordA_of_fields hmo rfl rfl (eq_of_beq hb) rfl (eq_ofNat hfn))⟩
  case h_10 hfn => exact sound_unless fun ht => sound_need fun hb =>
    ⟨decide_eq_true (Nat.le_of_not_lt ht), congrArg some (wordA_of_fields hmo rfl rfl (eq_append 1 4 (eq_of_beq hb) rfl) rfl (eq_ofNat hfn))⟩
  all_goals
    rename_i hfn
    exact sound_of_fFn hmo hfn rfl rfl

theorem decVecFpVS_sound (hmo : fMo w = 0x24) : Sound w (decVecFpVS w) := by
  unfold decVecFpVS
  split
  case h_9 => exact sound_illegal
  all_goals
    rename_i hfn
    exact sound_of_fFn hmo hfn rfl rfl

theorem decCmp_sound (hmo : fMo w = 0x25) : Sound w (decCmp w) := by
  unfold decCmp
  refine sound_unless fun hc => sound_unless fun h => ?_
  have wf := decide_eq_true (Nat.le_of_not_lt hc)
  obtain ⟨hfn, hd⟩ : (fFn w).extractLsb' 3 2 = 0 ∧ (fD w).extractLsb' 3 2 = 0 := by simpa using h
  have hd := eq_append 2 3 hd rfl
  split
  case h_4 h0 h1 h2 =>
    have hlt := ((fFn w).extractLsb' 5 2).isLt
    have hkind : ((fFn w).extractLsb' 5 2).toNat = 3 := by
      simp only [imp_false] at h0 h1 h2
      omega
    exact sound_instr ⟨wf, congrArg some (wordA_of_fields hmo hd rfl rfl rfl (eq_append₃ 2 2 3 (eq_ofNat hkind) hfn rfl))⟩
  all_goals
    rename_i hkind
    exact sound_instr ⟨wf, congrArg some (wordA_of_fields hmo hd rfl rfl rfl (eq_append₃ 2 2 3 (eq_ofNat hkind) hfn rfl))⟩

theorem decMask_sound (hmo : fMo w = 0x26) : Sound w (decMask w) := by
  unfold decMask
  split
  case h_8 => exact sound_illegal
  case h_1 hfn | h_2 hfn | h_3 hfn =>
    refine sound_need fun h => ?_
    obtain ⟨⟨hd, ha⟩, hb⟩ : ((fD w).extractLsb' 3 2 = 0 ∧ (fA w).extractLsb' 3 2 = 0) ∧ (fB w).extractLsb' 3 2 = 0 := by simpa using h
    exact ⟨rfl, congrArg some (wordA_of_fields hmo (eq_append 2 3 hd rfl) (eq_append 2 3 ha rfl) (eq_append 2 3 hb rfl) rfl (eq_ofNat hfn))⟩
  case h_7 hfn =>
    refine sound_need fun h => ?_
    obtain ⟨hd, hb⟩ : (fD w).extractLsb' 3 2 = 0 ∧ fB w = 0 := by simpa using h
    exact ⟨rfl, congrArg some (wordA_of_fields hmo (eq_append 2 3 hd rfl) rfl hb rfl (eq_ofNat hfn))⟩
  all_goals
    rename_i hfn
    refine sound_need fun h => ?_
    obtain ⟨ha, hb⟩ : (fA w).extractLsb' 3 2 = 0 ∧ fB w = 0 := by simpa using h
    exact ⟨rfl, congrArg some (wordA_of_fields hmo rfl (eq_append 2 3 ha rfl) hb rfl (eq_ofNat hfn))⟩

theorem decPerm_sound (hmo : fMo w = 0x27) : Sound w (decPerm w) := by
  unfold decPerm
  split
  case h_9 => exact sound_illegal
  case h_4 hfn | h_8 hfn => exact sound_need fun hb => ⟨rfl, congrArg some (wordA_of_fields hmo rfl rfl (eq_of_beq hb) rfl (eq_ofNat hfn))⟩
  case h_5 hfn =>
    refine sound_need fun h => ?_
    obtain ⟨hb, ha⟩ : fB w = 0 ∧ (fA w).extractLsb' 3 2 = 0 := by simpa using h
    exact ⟨rfl, congrArg some (wordA_of_fields hmo rfl (eq_append 2 3 ha rfl) hb rfl (eq_ofNat hfn))⟩
  all_goals
    rename_i hfn
    exact sound_of_fFn hmo hfn rfl rfl

theorem decReduce_sound (hmo : fMo w = 0x28) : Sound w (decReduce w) := by
  unfold decReduce
  refine sound_unless fun ho => sound_unless fun h => ?_
  have wf := decide_eq_true (Nat.le_of_not_lt ho)
  obtain ⟨hfn, hb⟩ : (fFn w).extractLsb' 4 2 = 0 ∧ fB w = 0 := by simpa using h
  split
  case isTrue hscan => exact sound_instr ⟨wf, congrArg some (wordA_of_fields hmo rfl rfl hb rfl (eq_append₃ 1 2 4 (eq_of_beq hscan) hfn rfl))⟩
  case isFalse hscan =>
    have hscan : (fFn w).extractLsb' 6 1 = 1 := (BitVec.eq_zero_or_eq_one _).resolve_left (by simpa using hscan)
    exact sound_instr ⟨wf, congrArg some (wordA_of_fields hmo rfl rfl hb rfl (eq_append₃ 1 2 4 hscan hfn rfl))⟩

theorem decClmul_sound (hmo : fMo w = 0x29) : Sound w (decClmul w) := by
  unfold decClmul
  refine sound_unless fun h => ?_
  have hfn : (fFn w).extractLsb' 1 5 = 0 := by simpa using h
  obtain hs | hs := BitVec.eq_zero_or_eq_one ((fFn w).extractLsb' 6 1) <;>
    obtain hh | hh := BitVec.eq_zero_or_eq_one ((fFn w).extractLsb' 0 1) <;>
    rw [hs, hh] <;>
    exact sound_instr ⟨rfl, congrArg some (wordA_of_fields hmo rfl rfl rfl rfl (eq_append₃ 1 5 1 hs hfn hh))⟩

theorem decVLoad_sound (hmo : fMo w = 0x30) : Sound w (decVLoad w) := by
  unfold decVLoad
  split
  case h_6 => exact sound_illegal
  case h_5 hop => exact sound_instr ⟨rfl, congrArg some (wordA_of_fields hmo rfl rfl rfl rfl (eq_append₃ 3 1 3 rfl rfl (eq_ofNat hop)))⟩
  case h_2 hop | h_3 hop =>
    exact sound_need fun hf => ⟨rfl, congrArg some (wordA_of_fields hmo rfl rfl rfl rfl (eq_append₃ 3 1 3 (eq_of_beq hf) rfl (eq_ofNat hop)))⟩
  case h_1 hop | h_4 hop =>
    refine sound_need fun h => ?_
    obtain ⟨hf, hb⟩ : (fFn w).extractLsb' 4 3 = 0 ∧ fB w = 0 := by simpa using h
    exact ⟨rfl, congrArg some (wordA_of_fields hmo rfl rfl hb rfl (eq_append₃ 3 1 3 hf rfl (eq_ofNat hop)))⟩

theorem decVStore_sound (hmo : fMo w = 0x31) : Sound w (decVStore w) := by
  unfold decVStore
  split
  case h_6 => exact sound_illegal
  case h_5 hop => exact sound_instr ⟨rfl, congrArg some (wordA_of_fields hmo rfl rfl rfl rfl (eq_append₃ 3 1 3 rfl rfl (eq_ofNat hop)))⟩
  case h_1 hop =>
    refine sound_need fun h => ?_
    obtain ⟨hf, hb⟩ : (fFn w).extractLsb' 4 3 = 0 ∧ fB w = 0 := by simpa using h
    exact ⟨rfl, congrArg some (wordA_of_fields hmo rfl rfl hb rfl (eq_append₃ 3 1 3 hf rfl (eq_ofNat hop)))⟩
  all_goals
    rename_i hop
    exact sound_need fun hf => ⟨rfl, congrArg some (wordA_of_fields hmo rfl rfl rfl rfl (eq_append₃ 3 1 3 (eq_of_beq hf) rfl (eq_ofNat hop)))⟩

theorem decVsca_sound (hmo : fMo w = 0x32) : Sound w (decVsca w) := by
  unfold decVsca
  refine sound_unless fun ho => sound_need fun hfn => ?_
  have wf : ((fFn w).extractLsb' 0 2).toNat ≤ 2 := by
    simp only [beq_iff_eq] at ho
    bv_omega
  exact ⟨decide_eq_true wf, congrArg some (wordA_of_fields hmo rfl rfl rfl rfl (eq_append 5 2 (eq_of_beq hfn) rfl))⟩

theorem decTileF_sound (hmo : fMo w = 0x33) : Sound w (decTileF w) := by
  unfold decTileF
  refine sound_unless fun hop7 => sound_unless fun hres => ?_
  have hlow : (fFn w).extractLsb' 0 4 = 0#1 ++ (fFn w).extractLsb' 0 3 := extract_eq_append 0 1 3 (by simpa using hres) rfl
  split
  case h_7 h0 h1 h2 h3 h4 h5 =>
    have hop : (fFn w).extractLsb' 0 3 = 6 := by
      simp only [imp_false] at h0 h1 h2 h3 h4 h5
      simp only [beq_iff_eq] at hop7
      bv_omega
    rw [hop] at hlow
    exact sound_instr ⟨rfl, congrArg some (wordA_of_fields hmo rfl rfl rfl rfl (eq_append 3 4 rfl hlow))⟩
  case h_2 hop =>
    rw [eq_ofNat hop] at hlow
    exact sound_need fun hb => ⟨rfl, congrArg some (wordA_of_fields hmo rfl rfl (eq_of_beq hb) rfl (eq_append 3 4 rfl hlow))⟩
  all_goals
    rename_i hop
    rw [eq_ofNat hop] at hlow
    refine sound_need fun h => ⟨rfl, congrArg some (wordA_of_fields hmo ?_ rfl ?_ ?_ (eq_append 3 4 (hi := 0) ?_ hlow))⟩ <;> simp_all

theorem decTokenF_sound (hmo : fMo w = 0x38) : Sound w (decTokenF w) := by
  unfold decTokenF
  split
  case h_6 => exact sound_illegal
  all_goals
    rename_i hfn
    refine sound_need fun h => ⟨rfl, congrArg some (wordA_of_fields hmo ?_ rfl ?_ ?_ (eq_ofNat hfn))⟩ <;> simp_all

theorem decWait_sound (hmo : fMo w = 0x39) : Sound w (decWait w) := by
  unfold decWait
  split
  case h_3 => exact sound_illegal
  all_goals
    rename_i hfn
    refine sound_need fun h => ⟨rfl, congrArg some (wordA_of_fields hmo rfl ?_ ?_ ?_ (eq_ofNat hfn))⟩ <;> simp_all

theorem decCopy_sound (hmo : fMo w = 0x3B) : Sound w (decCopy w) := by
  unfold decCopy
  split
  case h_1 hkind => exact sound_instr ⟨rfl, congrArg some (wordY_of_fields hmo rfl rfl rfl (eq_append₃ 2 3 5 (eq_ofNat hkind) rfl rfl))⟩
  case h_2 hkind =>
    refine sound_unless fun hd => sound_instr ?_
    have wf : (fD w).toNat ≤ 30 := by
      simp only [beq_iff_eq] at hd
      bv_omega
    exact ⟨decide_eq_true wf, congrArg some (wordY_of_fields hmo rfl rfl rfl (eq_append₃ 2 3 5 (eq_ofNat hkind) rfl rfl))⟩
  case h_3 hkind => exact sound_need fun hf => ⟨rfl, congrArg some (wordY_of_fields hmo rfl rfl rfl (eq_append₃ 2 3 5 (eq_ofNat hkind) (eq_of_beq hf) rfl))⟩
  case h_4 => exact sound_illegal

theorem decGroupF_sound (hmo : fMo w = 0x3C) : Sound w (decGroupF w) := by
  unfold decGroupF
  split
  case h_3 => exact sound_illegal
  all_goals
    rename_i hsz
    exact sound_need fun hd => ⟨rfl, congrArg some (wordM_of_fields hmo (eq_of_beq hd) rfl (eq_ofNat hsz) rfl)⟩

theorem decBarF_sound (hmo : fMo w = 0x3D) : Sound w (decBarF w) := by
  unfold decBarF
  refine sound_unless fun hfn => sound_need fun h => ?_
  obtain ⟨⟨hd, hb⟩, hmk⟩ : (fD w = 0 ∧ fB w = 0) ∧ fMk w = 0 := by simpa using h
  exact ⟨rfl, congrArg some (wordA_of_fields hmo hd rfl hb hmk (by simpa using hfn))⟩

theorem decStrandF_sound (hmo : fMo w = 0x3E) : Sound w (decStrandF w) := by
  unfold decStrandF
  split
  case h_1 hsz => exact sound_need fun ho => ⟨rfl, congrArg some (wordM_of_fields hmo rfl rfl (eq_ofNat hsz) (eq_of_beq ho))⟩
  case h_2 hsz =>
    refine sound_need fun h => ?_
    obtain ⟨⟨hd, ha⟩, ho⟩ : (fD w = 0 ∧ fA w = 0) ∧ fOff w = 0 := by simpa using h
    exact ⟨rfl, congrArg some (wordM_of_fields hmo hd ha (eq_ofNat hsz) ho)⟩
  case h_3 hsz =>
    refine sound_unless fun hs => sound_need fun h => ?_
    obtain ⟨ha, ho⟩ : fA w = 0 ∧ (fOff w).extractLsb' 4 8 = 0 := by simpa using h
    exact ⟨decide_eq_true (Nat.le_of_not_lt hs), congrArg some (wordM_of_fields hmo rfl ha (eq_ofNat hsz) (eq_append 8 4 ho rfl))⟩
  case h_4 => exact sound_illegal

theorem decMatrix_sound (hmo : fMo w = 0x40) : Sound w (decMatrix w) := by
  unfold decMatrix
  split
  case h_9 => exact sound_illegal
  case h_1 hfn | h_2 hfn => exact sound_need fun ho => ⟨rfl, congrArg some (wordX_of_fields hmo rfl (eq_of_beq ho) rfl rfl rfl rfl (eq_ofNat hfn))⟩
  case h_3 hfn =>
    refine sound_need fun h => ?_
    obtain ⟨⟨ho, ha⟩, hb⟩ : (fOp2 w = 0 ∧ fA w = 0) ∧ fB w = 0 := by simpa using h
    exact ⟨rfl, congrArg some (wordX_of_fields hmo rfl ho ha hb rfl rfl (eq_ofNat hfn))⟩
  all_goals
    rename_i hfn
    refine sound_unless fun h => sound_instr ?_
    have ho : (fOp2 w).extractLsb' 1 1 = 0 := (BitVec.eq_zero_or_eq_one _).resolve_right (by simpa using h)
    exact ⟨rfl, congrArg some (wordX_of_fields hmo rfl (eq_append 1 1 ho rfl) rfl rfl rfl rfl (eq_ofNat hfn))⟩

theorem decDebug_sound (hmo : fMo w = 0x48) : Sound w (decDebug w) := by
  unfold decDebug
  split
  case h_1 hsz =>
    refine sound_unless fun ha => sound_need fun h => ?_
    obtain ⟨hd, ho⟩ : (fD w).extractLsb' 3 2 = 0 ∧ fOff w = 0 := by simpa using h
    exact ⟨decide_eq_true (Nat.le_of_not_lt ha), congrArg some (wordM_of_fields hmo (eq_append 2 3 hd rfl) rfl (eq_ofNat hsz) ho)⟩
  case h_2 hsz =>
    refine sound_need fun h => ?_
    obtain ⟨⟨hd, ha⟩, ho⟩ : ((fD w).extractLsb' 3 2 = 0 ∧ fA w = 0) ∧ fOff w = 0 := by simpa using h
    exact ⟨rfl, congrArg some (wordM_of_fields hmo (eq_append 2 3 hd rfl) ha (eq_ofNat hsz) ho)⟩
  case h_3 hsz =>
    refine sound_need fun h => ?_
    obtain ⟨hd, ha⟩ : fD w = 0 ∧ fA w = 0 := by simpa using h
    exact ⟨rfl, congrArg some (wordM_of_fields hmo hd ha (eq_ofNat hsz) rfl)⟩
  case h_4 => exact sound_illegal

theorem decSystem_sound (hmo : fMo w = 0x50) : Sound w (decSystem w) := by
  unfold decSystem
  split
  case h_8 => exact sound_illegal
  case h_5 hsz =>
    split
    case h_4 => exact sound_illegal
    all_goals
      rename_i hop
      refine sound_need fun h => ⟨rfl, congrArg some (wordM_of_fields hmo ?_ ?_ (eq_ofNat hsz) (eq_append 10 2 (hi := 0) ?_ (eq_ofNat hop)))⟩ <;> simp_all
  all_goals
    rename_i hsz
    refine sound_need fun h => ⟨rfl, congrArg some (wordM_of_fields hmo ?_ ?_ (eq_ofNat hsz) ?_)⟩ <;> simp_all

/-- The decoder answers an instruction only for its own word, by its major opcode (R108). -/
theorem decodeWord_sound (w : IWord) : Sound w (decodeWord w) := by
  unfold decodeWord
  split
  case h_1 hmo => exact decAlu_sound (eq_ofNat hmo)
  case h_6 hmo => exact decShift_sound (eq_ofNat hmo)
  case h_12 hmo => exact decFp_sound (eq_ofNat hmo)
  case h_13 hmo => exact decBranch_sound (eq_ofNat hmo)
  case h_16 hmo => exact decLoad_sound (eq_ofNat hmo)
  case h_17 hmo => exact decStore_sound (eq_ofNat hmo)
  case h_18 hmo => exact decLdx_sound (eq_ofNat hmo)
  case h_19 hmo => exact decStx_sound (eq_ofNat hmo)
  case h_20 hmo => exact decAmo_sound (eq_ofNat hmo)
  case h_21 hmo => exact decFence_sound (eq_ofNat hmo)
  case h_22 hmo => exact decConfig_sound (eq_ofNat hmo)
  case h_23 hmo => exact decVecIntVV_sound (eq_ofNat hmo)
  case h_24 hmo => exact decVecIntVS_sound (eq_ofNat hmo)
  case h_25 hmo => exact decVecFpVV_sound (eq_ofNat hmo)
  case h_26 hmo => exact decVecFpVS_sound (eq_ofNat hmo)
  case h_27 hmo => exact decCmp_sound (eq_ofNat hmo)
  case h_28 hmo => exact decMask_sound (eq_ofNat hmo)
  case h_29 hmo => exact decPerm_sound (eq_ofNat hmo)
  case h_30 hmo => exact decReduce_sound (eq_ofNat hmo)
  case h_31 hmo => exact decClmul_sound (eq_ofNat hmo)
  case h_32 hmo => exact decVLoad_sound (eq_ofNat hmo)
  case h_33 hmo => exact decVStore_sound (eq_ofNat hmo)
  case h_34 hmo => exact decVsca_sound (eq_ofNat hmo)
  case h_35 hmo => exact decTileF_sound (eq_ofNat hmo)
  case h_36 hmo => exact decTokenF_sound (eq_ofNat hmo)
  case h_37 hmo => exact decWait_sound (eq_ofNat hmo)
  case h_38 hmo => exact decCopy_sound (eq_ofNat hmo)
  case h_39 hmo => exact decGroupF_sound (eq_ofNat hmo)
  case h_40 hmo => exact decBarF_sound (eq_ofNat hmo)
  case h_41 hmo => exact decStrandF_sound (eq_ofNat hmo)
  case h_42 hmo => exact decMatrix_sound (eq_ofNat hmo)
  case h_43 hmo => exact decDebug_sound (eq_ofNat hmo)
  case h_44 hmo => exact decSystem_sound (eq_ofNat hmo)
  case h_2 hmo | h_3 hmo | h_4 hmo | h_5 hmo | h_7 hmo | h_8 hmo | h_15 hmo =>
    exact sound_instr ⟨rfl, congrArg some (wordI_of_fields (eq_ofNat hmo) rfl rfl rfl)⟩
  case h_9 hmo | h_10 hmo =>
    exact sound_instr ⟨rfl, congrArg some (wordW_of_fields (eq_ofNat hmo) rfl rfl)⟩
  case h_11 hmo =>
    exact sound_need fun h => ⟨rfl, congrArg some (wordW_of_fields (eq_ofNat hmo) rfl (eq_append₃ 2 2 16 rfl (eq_of_beq h) rfl))⟩
  case h_14 hmo =>
    exact sound_instr ⟨rfl, congrArg some (wordJ_of_fields (eq_ofNat hmo) rfl)⟩
  case h_45 => exact sound_illegal

end

/-! ## The obligations -/

/-- Settles O55: decodeWord_of_encode is the one way, decodeWord_sound the other. -/
theorem decodeEncode : Obligations.DecodeEncode :=
  ⟨fun _ _ => decodeWord_of_encode, fun i w => decodeWord_sound w i⟩

/-- Settles O56: the decoder evaluates on each of the words. -/
theorem decodeWords : Obligations.DecodeWords := by
  unfold Obligations.DecodeWords
  decide

end Sys2Proof
end

section
/-!
PROOFS. Rules about a vector instruction that may start (R60, R164, R165) and about an element-wise one (R176, R178): KVTYPE's fields, the checks that pass, the active elements that are written.
-/
namespace Sys2Proof.Machine

/-- A field of a register as the model takes it and as the claims do (R8). -/
theorem bits_toNat {w : Nat} (x : BitVec w) (hi lo : Nat) : bits x.toNat hi lo = (x.extractLsb' lo (hi + 1 - lo)).toNat := by
  rw [bits, BitVec.extractLsb'_toNat, Nat.shiftRight_eq_div_pow]

theorem bit_toNat {w : Nat} (x : BitVec w) (i : Nat) : bit x.toNat i = x.getLsbD i := by
  simp [bit, BitVec.getLsbD, Nat.testBit, Nat.shiftRight_eq_div_pow]

theorem State.allFalse_of_active {s : State} {m : BitVec 3} (h : m = 0 ∨ ∃ i, i < s.core.st.vl ∧ (s.core.st.masks[m.toNat]).getLsbD i = true) : s.allFalse m = false := by
  rcases h with rfl | ⟨i, hi, hm⟩
  · rfl
  · refine Bool.and_eq_false_imp.mpr fun _ => beq_eq_false_iff_ne.mpr fun hz => ?_
    have hbit := Nat.testBit_mod_two_pow (s.maskOf m).toNat s.vl i
    rw [hz, Nat.zero_testBit, decide_eq_true (show i < s.vl from hi), Bool.true_and] at hbit
    exact Bool.false_ne_true (hbit.trans hm)

/-- R165: an instruction that may start, with unmarked scalar operands, does its own work. -/
theorem State.vrun_ready {s : State} {m : BitVec 3} {rs : List (BitVec 5)} {range : Bool} {k : Out} (hr : Claims.VReady s [m]) (hc : Claims.Clean s rs) (hrange : range = true) :
    s.vrun rs range [m] k = k := by
  have hm : m ∈ [m] := List.mem_singleton_self m
  have hfront : s.vfront rs range = .ok := by
    rw [State.vfront, State.chkRegs_clean hc, State.chkK_sound hr.typed, kIll_eq, hr.legal, hrange]
    rfl
  have hgov : s.chkGov m = .ok := by
    unfold State.chkGov State.chkMask
    split
    · rfl
    · next h0 =>
      rw [(hr.sound m hm).resolve_left h0]
      rfl
  rw [State.vrun, hfront, State.given_ok]
  simp [hgov, State.allFalse_of_active (hr.some_ m hm)]

theorem State.els_eq (s : State) (m : BitVec 3) : (s.actives m).filter (fun i => decide (s.startGroup ≤ eg s.w i)) = Claims.els s m := by
  refine congrArg (List.filter _) (List.filter_congr fun i hi => ?_)
  rw [State.active, decide_eq_true (List.mem_range.mp hi), Bool.true_and]
  rfl

/-- R169, R170: a group-wise instruction in the claims' terms. -/
theorem State.elementwise_eq (s : State) (m : BitVec 3) (d : BitVec 5) (f : Nat → ElRes) :
    s.elementwise m d f = Claims.vWrote s d (Claims.elWrites s m (fun i => (f i).val) (fun i => (f i).psn)) (Claims.flagsOf ((Claims.els s m).map (fun i => ((f i).val, (f i).fl)))) := by
  rw [State.elementwise, State.els_eq]
  simp only [List.map_map, List.foldl_map, Claims.flagsOf]
  rfl

/-- R176, R178: an element-wise instruction that may start. -/
theorem State.vop_ready {s : State} {acc : Accepts} {d a : BitVec 5} {b : Src} {m : BitVec 3} {useOld : Bool} {f : Nat → Nat → Nat → Nat → Nat × Flags}
    (hr : Claims.VReady s [m]) (hc : Claims.Clean s b.scalars) (hacc : acc.ok s.et = true) :
    s.vop acc d a b m useOld f = .next (Claims.vWrote s d
      (Claims.elWrites s m (fun i => (f s.sewBits (s.el a s.w i) (s.srcEl b i) (s.el d s.w i)).1) (fun i => s.elPsn a s.w i || s.srcPsn b i || (useOld && s.elPsn d s.w i)))
      (Claims.flagsOf ((Claims.els s m).map (fun i => f s.sewBits (s.el a s.w i) (s.srcEl b i) (s.el d s.w i))))) := by
  rw [State.vop, State.vrun_ready hr hc hacc, State.elementwise_eq]

theorem flagsOf_eq_zero {l : List (Nat × Flags)} (h : ∀ r ∈ l, r.2 = 0) : Claims.flagsOf l = 0 := by
  refine List.foldlRecOn (motive := fun f => f = 0) l _ rfl fun f hf r hr => ?_
  rw [hf, h r hr]
  rfl

/-- R177: an integer one sets no flag. -/
theorem State.viop_ready {s : State} {acc : Accepts} {d a : BitVec 5} {b : Src} {m : BitVec 3} {f : Nat → Nat → Nat → Nat}
    (hr : Claims.VReady s [m]) (hc : Claims.Clean s b.scalars) (hacc : acc.ok s.et = true) :
    s.viop acc d a b m f = .next (Claims.vWrote s d (Claims.elWrites s m (fun i => f s.sewBits (s.el a s.w i) (s.srcEl b i)) (fun i => s.elPsn a s.w i || s.srcPsn b i)) 0) := by
  rw [State.viop, State.vop_ready hr hc hacc, flagsOf_eq_zero (by simp)]
  simp

theorem Accepts.ints_ok {s : State} (h : Claims.etInts s) : Accepts.ints.ok s.et = true := by
  simp only [Accepts.ok, Bool.or_eq_true, beq_iff_eq]
  unfold Claims.etInts at h
  omega

theorem Accepts.fps_ok {s : State} (h : Claims.etFps s) : Accepts.fps.ok s.et = true := by
  simp only [Accepts.ok, Bool.or_eq_true, beq_iff_eq]
  unfold Claims.etFps at h
  omega

/-- The second operand of R176's two forms: s[b] where vs holds, else vb. -/
def srcOf (vs : Bool) (b : BitVec 5) : Src := if vs then .sca b else .vec b

theorem srcOf_clean {s : State} {vs : Bool} {b : BitVec 5} (h : vs = true → Claims.Clean s [b]) : Claims.Clean s (srcOf vs b).scalars := by
  cases vs
  · exact fun r hr => absurd hr List.not_mem_nil
  · exact h rfl

theorem State.srcEl_srcOf (s : State) (vs : Bool) (b : BitVec 5) (i : Nat) : s.srcEl (srcOf vs b) i = if vs then (s.reg b).toNat % 2 ^ s.sewBits else s.el b s.w i := by
  cases vs <;> rfl

theorem State.srcPsn_srcOf (s : State) (vs : Bool) (b : BitVec 5) (i : Nat) : s.srcPsn (srcOf vs b) i = (!vs && s.elPsn b s.w i) := by
  cases vs <;> rfl

theorem State.sewBits_pos (s : State) : 0 < s.sewBits := Nat.mul_pos (by decide) (Nat.two_pow_pos _)

theorem State.el_lt (s : State) (v : BitVec 5) (i : Nat) : s.el v s.w i < 2 ^ s.sewBits := Nat.mod_lt _ (Nat.two_pow_pos _)

theorem State.srcEl_lt (s : State) (b : Src) (i : Nat) : s.srcEl b i < 2 ^ s.sewBits := by
  cases b
  · exact s.el_lt _ i
  · exact Nat.mod_lt _ (Nat.two_pow_pos _)

end Sys2Proof.Machine
end

section
/-!
PROOFS. VectorIntegerArithmetic: the table's results as exact integers narrowed or clamped (R83, R177), and the carry-less product bit by bit (R191).
-/
namespace Sys2Proof.Machine

variable {n x y : Nat}

theorem wrap_eq_narrowN (n : Nat) (z : Int) : wrap n z = Claims.narrowN n z := by
  rw [wrap, BitVec.toNat_ofInt, Claims.narrowN, Int.natCast_pow]
  rfl

theorem narrowN_natCast (n k : Nat) : Claims.narrowN n k = k % 2 ^ n := by
  rw [Claims.narrowN]
  exact congrArg Int.toNat (by push_cast; rfl : (k : Int) % 2 ^ n = ((k % 2 ^ n : Nat) : Int))

theorem toInt_eq_sval (hn : 0 < n) (hx : x < 2 ^ n) : toInt n x = Claims.sval n x := by
  have hhalf : 2 * 2 ^ (n - 1) = 2 ^ n := by rw [← Nat.pow_succ', Nat.succ_eq_add_one, Nat.sub_add_cancel hn]
  rw [toInt, BitVec.toInt_eq_toNat_cond, BitVec.toNat_ofNat, Nat.mod_eq_of_lt hx, Claims.sval]
  split
  · rw [if_neg (by omega)]
  · rw [if_pos (by omega)]
    push_cast
    rfl

theorem narrowN_sval (hx : x < 2 ^ n) : Claims.narrowN n (Claims.sval n x) = x := by
  have hx' : Claims.narrowN n x = x := (narrowN_natCast n x).trans (Nat.mod_eq_of_lt hx)
  unfold Claims.sval
  split
  · rw [Claims.narrowN, Int.sub_emod_right]
    exact hx'
  · exact hx'

theorem iAdd_eq (n x y : Nat) : iAdd n x y = Claims.narrowN n (x + y) := (narrowN_natCast n (x + y)).symm

theorem iSub_eq (x : Nat) (hy : y < 2 ^ n) : iSub n x y = Claims.narrowN n (x - y) := by
  have hcast : ((x + 2 ^ n - y : Nat) : Int) = (x - y : Int) + 2 ^ n := by
    rw [Nat.cast_sub (by omega)]
    push_cast
    ring
  rw [iSub, Nat.mod_eq_of_lt hy, ← narrowN_natCast, hcast, Claims.narrowN, Int.add_emod_right]
  rfl

theorem iMul_eq (n x y : Nat) : iMul n x y = Claims.narrowN n (x * y) := by
  rw [← Nat.cast_mul, narrowN_natCast]
  rfl

theorem iMulh_eq (hx : x < 2 ^ n) (hy : y < 2 ^ n) (hn : 0 < n) : iMulh n x y = Claims.narrowN n (Claims.sval n x * Claims.sval n y / 2 ^ n) := by
  rw [iMulh, wrap_eq_narrowN, toInt_eq_sval hn hx, toInt_eq_sval hn hy]

theorem iMulhn_eq (hx : x < 2 ^ n) (hy : y < 2 ^ n) : iMulhn n x y = Claims.narrowN n (x * y / 2 ^ n) := by
  have hlt : x * y / 2 ^ n < 2 ^ n := Nat.div_lt_of_lt_mul (Nat.mul_lt_mul'' hx hy)
  have hcast : (x * y / 2 ^ n : Int) = ((x * y / 2 ^ n : Nat) : Int) := by push_cast; rfl
  rw [hcast, narrowN_natCast, Nat.mod_eq_of_lt hlt]
  rfl

theorem iSll_eq (n x y : Nat) : iSll n x y = Claims.narrowN n (x * 2 ^ (y % n)) := by
  have hcast : (x * 2 ^ (y % n) : Int) = ((x * 2 ^ (y % n) : Nat) : Int) := by push_cast; rfl
  rw [hcast, narrowN_natCast]
  rfl

theorem iSra_eq (y : Nat) (hx : x < 2 ^ n) (hn : 0 < n) : iSra n x y = Claims.narrowN n (Claims.sval n x / 2 ^ (y % n)) := by
  rw [iSra, wrap_eq_narrowN, toInt_eq_sval hn hx]

theorem iMin_eq (hx : x < 2 ^ n) (hy : y < 2 ^ n) (hn : 0 < n) : iMin n x y = Claims.narrowN n (min (Claims.sval n x) (Claims.sval n y)) := by
  rw [iMin, toInt_eq_sval hn hx, toInt_eq_sval hn hy]
  split
  · rw [min_eq_left (by omega), narrowN_sval hx]
  · rw [min_eq_right (by omega), narrowN_sval hy]

theorem iMax_eq (hx : x < 2 ^ n) (hy : y < 2 ^ n) (hn : 0 < n) : iMax n x y = Claims.narrowN n (max (Claims.sval n x) (Claims.sval n y)) := by
  rw [iMax, toInt_eq_sval hn hx, toInt_eq_sval hn hy]
  split
  · rw [max_eq_left (by omega), narrowN_sval hx]
  · rw [max_eq_right (by omega), narrowN_sval hy]

theorem etInt_eq_tval (t : Nat) (hx : x < 2 ^ n) (hn : 0 < n) : etInt (t == 0) n x = Claims.tval t n x := by
  simp only [etInt, Claims.tval, beq_iff_eq, toInt_eq_sval hn hx]

theorem clamp_eq_max_min {lo hi : Int} (h : lo ≤ hi) (z : Int) : Claims.clamp lo hi z = max lo (min z hi) := by
  unfold Claims.clamp
  split
  · omega
  · split <;> omega

/-- R83: the model's clamped results are the claims'. -/
theorem clampTo_eq (t n : Nat) (z : Int) : clampTo (t == 0) n z = Claims.narrowN n (Claims.clamp (Claims.tmin t n) (Claims.tmax t n) z) := by
  have hpos : ∀ k, (0 : Int) < 2 ^ k := fun k => Int.pow_pos (by decide)
  have hhalf := hpos (n - 1)
  have hwhole := hpos n
  by_cases ht : t = 0
  · simp only [clampTo, Claims.tmin, Claims.tmax, ht, beq_self_eq_true, if_true]
    rw [wrap_eq_narrowN, clamp_eq_max_min (by omega)]
  · simp only [clampTo, Claims.tmin, Claims.tmax, ht, beq_iff_eq, if_false]
    rw [clamp_eq_max_min (by omega), Claims.narrowN, Int.emod_eq_of_lt (by omega) (by omega)]

theorem iSadd_eq (t : Nat) (hx : x < 2 ^ n) (hy : y < 2 ^ n) (hn : 0 < n) :
    iSadd (t == 0) n x y = Claims.narrowN n (Claims.clamp (Claims.tmin t n) (Claims.tmax t n) (Claims.tval t n x + Claims.tval t n y)) := by
  rw [iSadd, clampTo_eq, etInt_eq_tval t hx hn, etInt_eq_tval t hy hn]

theorem iSsub_eq (t : Nat) (hx : x < 2 ^ n) (hy : y < 2 ^ n) (hn : 0 < n) :
    iSsub (t == 0) n x y = Claims.narrowN n (Claims.clamp (Claims.tmin t n) (Claims.tmax t n) (Claims.tval t n x - Claims.tval t n y)) := by
  rw [iSsub, clampTo_eq, etInt_eq_tval t hx hn, etInt_eq_tval t hy hn]

/-- R177: both forms of every row of the table are element-wise integer instructions of one function, which gives the row's results. -/
theorem vintTable_viop {p} (hp : p ∈ Claims.vintTable) (s : State) (d a b : BitVec 5) (m : BitVec 3) :
    ∃ f : Nat → Nat → Nat → Nat,
      exec (p.1 d a b m) s = s.viop (if p.2.2.1 then .any else .ints) d a (.vec b) m f
      ∧ exec (p.2.1 d a b m) s = s.viop (if p.2.2.1 then .any else .ints) d a (.sca b) m f
      ∧ ∀ n x y, 0 < n → x < 2 ^ n → y < 2 ^ n → f n x y = p.2.2.2 n s.et x y := by
  simp only [Claims.vintTable, List.mem_cons, List.not_mem_nil, or_false] at hp
  rcases hp with rfl | rfl | rfl | rfl | rfl | rfl | rfl | rfl | rfl | rfl | rfl | rfl | rfl | rfl | rfl | rfl | rfl
  · exact ⟨iAdd, rfl, rfl, fun n x y _ _ _ => iAdd_eq n x y⟩
  · exact ⟨iSub, rfl, rfl, fun _ x _ _ _ hy => iSub_eq x hy⟩
  · exact ⟨iMul, rfl, rfl, fun n x y _ _ _ => iMul_eq n x y⟩
  · exact ⟨iMulh, rfl, rfl, fun _ _ _ hn hx hy => iMulh_eq hx hy hn⟩
  · exact ⟨iMulhn, rfl, rfl, fun _ _ _ _ hx hy => iMulhn_eq hx hy⟩
  · exact ⟨fun _ x y => x &&& y, rfl, rfl, fun _ _ _ _ _ _ => rfl⟩
  · exact ⟨fun _ x y => x ||| y, rfl, rfl, fun _ _ _ _ _ _ => rfl⟩
  · exact ⟨fun _ x y => x ^^^ y, rfl, rfl, fun _ _ _ _ _ _ => rfl⟩
  · exact ⟨iSll, rfl, rfl, fun n x y _ _ _ => iSll_eq n x y⟩
  · exact ⟨iSrl, rfl, rfl, fun _ _ _ _ _ _ => rfl⟩
  · exact ⟨iSra, rfl, rfl, fun _ _ y hn hx _ => iSra_eq y hx hn⟩
  · exact ⟨iMin, rfl, rfl, fun _ _ _ hn hx hy => iMin_eq hx hy hn⟩
  · exact ⟨iMax, rfl, rfl, fun _ _ _ hn hx hy => iMax_eq hx hy hn⟩
  · exact ⟨iMinn, rfl, rfl, fun _ _ _ _ _ _ => rfl⟩
  · exact ⟨iMaxn, rfl, rfl, fun _ _ _ _ _ _ => rfl⟩
  · exact ⟨iSadd (s.et == 0), rfl, rfl, fun _ _ _ hn hx hy => iSadd_eq s.et hx hy hn⟩
  · exact ⟨iSsub (s.et == 0), rfl, rfl, fun _ _ _ hn hx hy => iSsub_eq s.et hx hy hn⟩

/-- R176 and R177. -/
theorem vectorIntegerResults_hold : Claims.vectorIntegerResults := by
  intro s d a b m hr _ p hp het
  have hacc : (if p.2.2.1 then Accepts.any else .ints).ok s.et = true := by
    split
    · rfl
    · next h => exact Accepts.ints_ok (het.resolve_left h)
  obtain ⟨f, hvv, hvs, hf⟩ := vintTable_viop hp s d a b m
  have hval : ∀ (c : Src) i, f s.sewBits (s.el a s.w i) (s.srcEl c i) = p.2.2.2 s.sewBits s.et (s.el a s.w i) (s.srcEl c i) :=
    fun c i => hf _ _ _ s.sewBits_pos (s.el_lt a i) (s.srcEl_lt c i)
  refine ⟨?_, fun hc => ?_⟩
  · rw [hvv, State.viop_ready hr (fun r h => absurd h List.not_mem_nil) hacc]
    simp only [hval]
    rfl
  · rw [hvs, State.viop_ready (b := .sca b) hr hc hacc]
    simp only [hval, State.srcPsn, Bool.or_false]
    rfl

/-- R177: VMERGE takes x where y has a 1 and keeps the old bit elsewhere. -/
theorem iMerge_testBit (x old : Nat) (hy : y < 2 ^ n) {k : Nat} (hk : k < n) : (iMerge n x y old).testBit k = if y.testBit k then x.testBit k else old.testBit k := by
  rw [iMerge, Nat.mod_eq_of_lt hy, Nat.testBit_or, Nat.testBit_and, Nat.testBit_and, Nat.sub_sub, Nat.add_comm 1 y, Nat.testBit_two_pow_sub_succ hy]
  cases y.testBit k <;> simp [hk]

/-- R142, R191: each bit of the carry-less product over the low n bits of y is a sum without carries. -/
theorem clmulN_testBit (x y n i : Nat) : (clmulN x y n).testBit i = ((List.range n).countP (fun j => decide (j ≤ i) && (x.testBit (i - j) && y.testBit j)) % 2 == 1) := by
  induction n generalizing y i with
  | zero => simp [clmulN]
  | succ n ih =>
    have hstep : (2 * clmulN x (y / 2) n).testBit i = ((List.range n).countP (fun j => decide (j + 1 ≤ i) && (x.testBit (i - (j + 1)) && y.testBit (j + 1))) % 2 == 1) := by
      cases i with
      | zero => simp
      | succ i => simp [Nat.testBit_succ, ih]
    have hhead : (if y % 2 = 1 then x else 0).testBit i = (x.testBit i && y.testBit 0) := by
      rw [Nat.testBit_zero]
      split <;> simp [*]
    rw [clmulN, Nat.testBit_xor, hhead, hstep, List.range_succ_eq_map, List.countP_cons, List.countP_map]
    simp only [Function.comp_def, Nat.succ_eq_add_one, Nat.zero_le, decide_true, Nat.sub_zero, Bool.true_and]
    generalize List.countP _ _ = c
    rcases Nat.mod_two_eq_zero_or_one c with h | h <;> cases x.testBit i && y.testBit 0 <;> simp [h, Nat.add_mod]

theorem countP_range_of_false {p : Nat → Bool} {k l : Nat} (hkl : k ≤ l) (h : ∀ j, k ≤ j → p j = false) : (List.range l).countP p = (List.range k).countP p := by
  obtain ⟨r, rfl⟩ := Nat.exists_eq_add_of_le hkl
  rw [List.range_add, List.countP_append, List.countP_map]
  exact Nat.add_eq_left.mpr (List.countP_eq_zero.mpr fun j _ => by simp [h])

theorem clmulN_eq_clBit (x : Nat) (hy : y < 2 ^ n) (i : Nat) : (clmulN x y n).testBit i = Claims.clBit x y i := by
  let p := fun j => decide (j ≤ i) && (x.testBit (i - j) && y.testBit j)
  have hn : (List.range (max n (i + 1))).countP p = (List.range n).countP p := countP_range_of_false (Nat.le_max_left ..) fun j hj => by
    simp [p, Nat.testBit_lt_two_pow (Nat.lt_of_lt_of_le hy (Nat.pow_le_pow_right (by decide) hj))]
  have hi : (List.range (max n (i + 1))).countP p = (List.range (i + 1)).countP p := countP_range_of_false (Nat.le_max_right ..) fun j hj => by
    simp [p, Nat.not_le.mpr hj]
  have hp : (List.range (i + 1)).countP p = (List.range (i + 1)).countP (fun j => x.testBit (i - j) && y.testBit j) :=
    List.countP_congr fun j hj => by simp [p, Nat.lt_succ_iff.mp (List.mem_range.mp hj)]
  rw [clmulN_testBit, Claims.clBit, ← hp, ← hi, hn]

/-- R177 and R191. -/
theorem vectorMergeAndClmul_hold : Claims.vectorMergeAndClmul := by
  intro s d a b m hr _ vs hvs
  have hc := srcOf_clean hvs
  have hy : ∀ i, s.srcEl (srcOf vs b) i < 2 ^ s.sewBits := s.srcEl_lt _
  simp only [← State.srcEl_srcOf, ← State.srcPsn_srcOf]
  refine ⟨⟨fun i => iMerge s.sewBits (s.el a s.w i) (s.srcEl (srcOf vs b) i) (s.el d s.w i), ?_, fun i k hk => iMerge_testBit _ _ (hy i) hk⟩, fun het => ⟨?_, ?_⟩⟩
  · have hexec : exec (if vs then .vmergeVS d a b m else .vmergeVV d a b m) s = s.vop .any d a (srcOf vs b) m true (fun n x y old => (iMerge n x y old, 0)) := by
      cases vs <;> rfl
    rw [hexec, State.vop_ready hr hc rfl, flagsOf_eq_zero (by simp)]
    rfl
  · refine ⟨fun i => clmulLow s.sewBits (s.el a s.w i) (s.srcEl (srcOf vs b) i), ?_, fun i k hk => ?_⟩
    · have hexec : exec (if vs then .vclmulVS d a b m else .vclmulVV d a b m) s = s.viop .ints d a (srcOf vs b) m clmulLow := by
        cases vs <;> rfl
      rw [hexec, State.viop_ready hr hc (Accepts.ints_ok het)]
    · simp only [clmulLow, Nat.testBit_mod_two_pow, hk, decide_true, Bool.true_and, clmulN_eq_clBit _ (hy i)]
  · refine ⟨fun i => clmulHigh s.sewBits (s.el a s.w i) (s.srcEl (srcOf vs b) i), ?_, fun i k _ => ?_⟩
    · have hexec : exec (if vs then .vclmulhVS d a b m else .vclmulhVV d a b m) s = s.viop .ints d a (srcOf vs b) m clmulHigh := by
        cases vs <;> rfl
      rw [hexec, State.viop_ready hr hc (Accepts.ints_ok het)]
    · simp only [clmulHigh, Nat.testBit_div_two_pow, Nat.add_comm k, clmulN_eq_clBit _ (hy i)]

/-- Settles O19: the rows of the table by vintTable_viop, VMERGE and the carry-less products by iMerge_testBit and clmulN_eq_clBit. -/
theorem vectorIntegerArithmetic : Obligations.VectorIntegerArithmetic := ⟨vectorIntegerResults_hold, vectorMergeAndClmul_hold⟩

end Sys2Proof.Machine
end

section
/-!
PROOFS. VectorFpResults: the element-wise FP instructions as the model's operations (R178).
-/
namespace Sys2Proof.Machine

theorem State.vrm_eq (s : State) : s.vrm = (s.core.st.kvtype.extractLsb' 14 2).toNat := bits_toNat s.core.st.kvtype 15 14

theorem State.efmt_eq {s : State} {F : Fmt} (h : fmtOf s.et = some F) : s.efmt = F := by
  rw [State.efmt, h]
  rfl

/-- R178: both forms of every row of the table are element-wise instructions of the row's operation. -/
theorem vfpTable_exec {p} (hp : p ∈ Claims.vfpTable) (s : State) (vs : Bool) (d a b : BitVec 5) (m : BitVec 3) :
    exec (if vs then p.2.1 d a b m else p.1 d a b m) s = s.vfop d a (srcOf vs b) m p.2.2 := by
  simp only [Claims.vfpTable, List.mem_cons, List.not_mem_nil, or_false] at hp
  rcases hp with rfl | rfl | rfl | rfl | rfl | rfl <;> cases vs <;> rfl

/-- Settles O20: each instruction is an element-wise one of its operation (vop_ready). -/
theorem vectorFpResults : Obligations.VectorFpResults := by
  intro s d a b m F hr hF het vs hvs
  have hc := srcOf_clean hvs
  have hacc := Accepts.fps_ok het
  have hnone : Claims.Clean s (Src.vec a).scalars := fun r hr => absurd hr List.not_mem_nil
  dsimp only
  simp only [← State.srcEl_srcOf, ← State.srcPsn_srcOf, ← State.vrm_eq, ← State.efmt_eq hF]
  refine ⟨fun p hp => ?_, ?_, ?_, ?_, ?_⟩
  · rw [vfpTable_exec hp, State.vfop, State.vop_ready hr hc hacc]
    simp
  · have hexec : exec (if vs then .vfmaVS d a b m else .vfmaVV d a b m) s = s.vfma d a (srcOf vs b) m false := by
      cases vs <;> rfl
    rw [hexec, State.vfma, State.vop_ready hr hc hacc]
    rfl
  · have hexec : exec (if vs then .vfnmsVS d a b m else .vfnmsVV d a b m) s = s.vfma d a (srcOf vs b) m true := by
      cases vs <;> rfl
    rw [hexec, State.vfma, State.vop_ready hr hc hacc]
    rfl
  · have hexec : exec (.vfsqrt d a m) s = s.vop .fps d a (.vec a) m false (fun _ x _ _ => fSqrt s.efmt s.vrm x) := rfl
    rw [hexec, State.vop_ready hr hnone hacc]
    simp [State.srcPsn]
  · have hexec : exec (.vfexp2 d a m) s = s.vop .fps d a (.vec a) m false (fun _ x _ _ => fExp2 s.efmt s.vrm x) := rfl
    rw [hexec, State.vop_ready hr hnone hacc]
    simp [State.srcPsn]

end Sys2Proof.Machine
end

section
/-!
PROOFS. VectorConfiguration: well-formed requests, KVTYPE with its group clamped, and what SETVL writes (R56, R63, R174); LIVE (R175).
-/
namespace Sys2Proof.Machine

/-- R63. -/
theorem illFormed_iff (k : Word) : illFormed k = true ↔ ¬ Claims.wellFormedType k := by
  have hwf : Claims.wellFormedType k ↔ kSew k ≤ 3 ∧ kEt k ≤ 8 ∧ kTr k ≤ 2 ∧ kTc k ≤ 2 ∧ kGrp k ≤ 4 ∧ bits k.toNat 62 18 = 0
      ∧ (kEt k = 2 → kSew k = 3) ∧ (kEt k = 3 → kSew k = 2) ∧ (kEt k = 4 ∨ kEt k = 5 → kSew k = 1) ∧ (6 ≤ kEt k → kSew k = 0) ∧ (kMx k = true → 6 ≤ kEt k) := by
    simp only [Claims.wellFormedType, ← bits_toNat, ← bit_toNat]
    rfl
  have htr : kTr k < 4 := Nat.mod_lt _ (by decide)
  have htc : kTc k < 4 := Nat.mod_lt _ (by decide)
  rw [hwf, illFormed]
  by_cases het : kEt k ≤ 8
  · generalize kEt k = et at het ⊢
    cases kMx k <;> interval_cases et <;> simp <;> omega
  · simp [het, Nat.lt_of_not_le het]

/-- The bits of a request that its clamped group replaces, and the bit it does not have (R56, R62, R174). -/
theorem groupMask_bit {i : Nat} (hi : i < 64) : (0x8000000000000380#64).getLsbD i = (decide (7 ≤ i ∧ i < 10) || decide (i = 63)) := by
  revert i
  decide

theorem typeOf_eq (k : Word) {g : Nat} (hg : min (kGrp k) g < 8) : (k &&& ~~~(0x8000000000000380#64)) ||| (BitVec.ofNat 64 (min (kGrp k) g) <<< 7) = Claims.typeOf k g := by
  have hgrp : kGrp k = k.toNat / 2 ^ 7 % 8 := rfl
  rw [Claims.typeOf, ← hgrp]
  generalize min (kGrp k) g = c at hg
  have hlow : k.toNat % 2 ^ 7 < 2 ^ 7 := Nat.mod_lt _ (by decide)
  have hsum : k.toNat % 2 ^ 7 + c * 2 ^ 7 + k.toNat / 2 ^ 10 % 2 ^ 53 * 2 ^ 10 = 2 ^ 10 * (k.toNat / 2 ^ 10 % 2 ^ 53) + (2 ^ 7 * c + k.toNat % 2 ^ 7) := by ring
  rw [hsum]
  refine BitVec.eq_of_getLsbD_eq fun i hi => ?_
  rw [BitVec.getLsbD_or, BitVec.getLsbD_and, BitVec.getLsbD_not, groupMask_bit hi, BitVec.getLsbD_shiftLeft, BitVec.getLsbD_ofNat, BitVec.getLsbD_ofNat,
    Nat.testBit_two_pow_mul_add _ (by omega), Nat.testBit_two_pow_mul_add _ hlow, Nat.testBit_mod_two_pow, Nat.testBit_mod_two_pow, Nat.testBit_div_two_pow, BitVec.getLsbD]
  have hc : 3 ≤ i - 7 → c.testBit (i - 7) = false := fun h => Nat.testBit_lt_two_pow (Nat.lt_of_lt_of_le hg (Nat.pow_le_pow_right (n := 2) (by decide) h))
  by_cases h7 : i < 7
  · simp [h7, hi, show i < 10 by omega, show i ≠ 63 by omega, Nat.not_le.mpr h7]
  by_cases h10 : i < 10
  · simp [h7, h10, hi, Nat.not_lt.mp h7, show i - 7 < 64 by omega]
  · have : i - 10 + 10 = i := by omega
    by_cases h63 : i = 63
    · subst h63
      simp [show c.testBit 56 = false from hc (by omega)]
    · simp [h7, h10, hi, h63, hc (by omega), this, show i - 10 < 53 by omega]

theorem immType_eq (x sr : BitVec 1) (r : BitVec 2) (g : BitVec 3) (t : BitVec 4) (sew : BitVec 2) :
    immType x sr r g t sew = BitVec.ofNat 64 (sew.toNat + t.toNat * 2 ^ 3 + g.toNat * 2 ^ 7 + 2 * 2 ^ 10 + 2 * 2 ^ 12 + r.toNat * 2 ^ 14 + sr.toNat * 2 ^ 16 + x.toNat * 2 ^ 17) :=
  congrArg (BitVec.ofNat 64) (by ring)

/-- R174, R412: what SETVL and SETVLI write. -/
theorem State.finish_writeVl (s : State) (d : BitVec 5) (k : Word) (vl : Nat) :
    ((s.modSt (fun t => { t with kvtype := k, vl := vl }.mendK [0x004, 0x005])).setReg d (BitVec.ofNat 64 vl)).finish = Claims.vlSet s d k vl := by
  have hmend : (fun k : Nat => k != 4 && k != 5) = fun k => !List.contains [0x004, 0x005] k := by
    funext k
    simp [bne, Bool.beq_eq_decide_eq]
  rw [Claims.vlSet, Claims.scalarAfter, hmend]
  by_cases hd : d = 0
  · rw [hd]
    rfl
  · rw [State.setReg, if_neg hd, if_neg hd]
    rfl

theorem State.finish_setVl_illFormed {s : State} {req : Word} (h : ¬ Claims.wellFormedType req) (n : Option Word) (d : BitVec 5) :
    (s.setVl req n d).finish = Claims.vlSet s d 0x8000000000000000 0 := by
  rw [State.setVl, if_pos ((illFormed_iff req).mpr h)]
  exact s.finish_writeVl d kvtypeIll 0

theorem State.finish_setVl {s : State} {req : Word} (h : Claims.wellFormedType req) (hr : s.core.reduceTo = none) (a d : BitVec 5) :
    (s.setVl req (s.avl a) d).finish = Claims.vlSet s d (Claims.typeOf req s.core.st.grant)
      (if a = 0 then Claims.vlmax req s.core.st.grant else min (s.reg a).toNat (Claims.vlmax req s.core.st.grant)) := by
  have hred : s.applyReduction = s := by rw [State.applyReduction, hr]
  have hgrp : min (kGrp req) s.core.st.grant < 8 := Nat.lt_of_le_of_lt (Nat.min_le_left ..) (Nat.mod_lt _ (by decide))
  have hmax : Claims.vlmax req s.core.st.grant = 256 * 2 ^ min (kGrp req) s.core.st.grant / 2 ^ kSew req := by
    simp [Claims.vlmax, kGrp, kSew, bits]
  rw [State.setVl, if_neg (by rw [illFormed_iff, not_not]; exact h), hred, hmax, State.avl, ← typeOf_eq req hgrp]
  by_cases ha : a = 0
  · rw [if_pos ha, if_pos ha]
    exact s.finish_writeVl d _ _
  · rw [if_neg ha, if_neg ha]
    exact s.finish_writeVl d _ _

/-- R174, R63 and R56. -/
theorem setvlConfigures_hold : Claims.setvlConfigures := by
  intro s d a b x sr r g et sew hr imm i req rs hi hc
  have hexec : exec i s = .next (s.setVl req (s.avl a) d).finish := by
    rcases hi with ⟨rfl, rfl, rfl⟩ | ⟨rfl, rfl, rfl⟩
    · have h : exec (.setvl d a b) s = s.given (s.chkRegs [a, b]) (.next (s.setVl (s.reg b &&& ~~~kvtypeIll) (s.avl a) d).finish) := rfl
      rw [h, State.chkRegs_clean hc]
      rfl
    · have h : exec (.setvli d a x sr r g et sew) s = s.given (s.chkRegs [a]) (.next (s.setVl (immType x sr r g et sew) (s.avl a) d).finish) := rfl
      rw [h, State.chkRegs_clean hc, immType_eq]
      rfl
  rw [hexec]
  exact ⟨fun h => congrArg _ (State.finish_setVl h hr a d), fun h => congrArg _ (State.finish_setVl_illFormed h _ d)⟩

/-- R175. -/
theorem liveSetLoads_hold : Claims.liveSetLoads := by
  intro s a hc
  have hexec : exec (.live a) s = s.given (s.chkRegs [a]) (s.given (Chk.unless ((s.reg a).toNat / 2 ^ 48 == 0) 0x02 0)
      (.next (s.modSt (fun t => { t with klm := s.reg a }.mendK [0x003])).finish)) := rfl
  have hhigh : (s.reg a).extractLsb' 48 16 = 0 ↔ (s.reg a).toNat / 2 ^ 48 = 0 := by
    rw [← BitVec.toNat_inj, BitVec.extractLsb'_toNat, Nat.shiftRight_eq_div_pow, Nat.mod_eq_of_lt (by omega)]
    rfl
  have hmend : (fun k : Nat => k != 3) = fun k => !List.contains [0x003] k := by
    funext k
    simp [bne, Bool.beq_eq_decide_eq]
  rw [hexec, State.chkRegs_clean hc, State.given_ok]
  split
  · next h =>
    rw [hhigh.mp h, hmend]
    rfl
  · next h =>
    rw [beq_eq_false_iff_ne.mpr (mt hhigh.mpr h)]
    rfl

/-- Settles O18: SETVL and SETVLI by what State.setVl leaves for well-formed and ill-formed requests, LIVE by its check of bits [63:48]. -/
theorem vectorConfiguration : Obligations.VectorConfiguration := ⟨setvlConfigures_hold, liveSetLoads_hold⟩

end Sys2Proof.Machine
end

section
/-!
PROOFS. VfcvtCompletes: the checks of VFCVT without MX (R179), stochastic rounding (R94), and a conversion between FP types of one width.
-/
namespace Sys2Proof.Machine

/-- R94, R179. -/
theorem State.cvtStoch_iff (s : State) (t : Nat) : s.cvtStoch t = true ↔ Claims.stochastic s t := by
  rw [State.cvtStoch, Bool.and_eq_true, kSr, bit_toNat, Claims.stochastic]
  cases fmtOf t <;> cases fmtOf s.et <;> simp

/-- R179: without MX a source apart from vd and below v32 passes the check of its range. -/
theorem State.cvtOk_of_apart {s : State} {d a : BitVec 5} {t : Nat} (hmx : kMx s.core.st.kvtype = false) (hint : ¬ (t ≤ 1 ∧ s.et ≤ 1)) (hr : a.toNat + cvtRegs t s.et s.w ≤ 32)
    (hd : d.toNat < a.toNat ∨ a.toNat + cvtRegs t s.et s.w ≤ d.toNat) : s.cvtOk d a t = true := by
  have hno : regsOverlap a.toNat (cvtRegs t s.et s.w) d.toNat 1 = false := by
    simp only [regsOverlap, Bool.and_eq_false_iff, decide_eq_false_iff_not]
    omega
  have hni : ((t == 0 || t == 1) && (s.et == 0 || s.et == 1)) = false := by
    simp only [Bool.and_eq_false_iff, Bool.or_eq_false_iff, beq_eq_false_iff_ne]
    omega
  simp [State.cvtOk, hmx, hno, hni, hr]

/-- R179: what VFCVT does once its checks have passed. -/
theorem vfcvt_ready {s : State} {d a : BitVec 5} {t : BitVec 4} {m : BitVec 3} (hr : Claims.VReady s [m]) (hmx : kMx s.core.st.kvtype = false) (hok : s.cvtOk d a t.toNat = true) :
    exec (.vfcvt d a t m) s = s.given (s.chkK (if s.cvtStoch t.toNat then [2] else [])) (.next (s.elementwise m d (s.cvtEl a t.toNat m))) := by
  have hexec : exec (.vfcvt d a t m) s = execVfcvt d a t m s := rfl
  rw [hexec, execVfcvt, State.vrun_ready hr (fun r h => absurd h List.not_mem_nil) hok, hmx]
  rfl

theorem valuesPer_eq_one {et : Nat} (h : et ≠ 8) : valuesPer et = 1 := if_neg h

/-- R179: an element of an FP type converted to one of its width comes from its own place in va. -/
theorem State.cvtSrc_same {s : State} {a : BitVec 5} {t i : Nat} {F : Fmt} (hF : fmtOf t = some F) (hw : F.width = 8 * s.w) (hi : i * s.w < s.geBytes) :
    s.cvtSrc a t i = s.el a s.w i ∧ s.cvtPsn a t i = s.elPsn a s.w i := by
  have hn : srcNibbles t s.w = 2 * s.w := by
    rw [srcNibbles, hF]
    dsimp only
    omega
  have hoff : i * (2 * s.w) / 2 = i * s.w := by rw [Nat.mul_left_comm, Nat.mul_div_cancel_left _ (by decide)]
  have hone : 2 * s.w ≠ 1 := by omega
  rw [State.cvtSrc, State.cvtPsn, hn, if_neg hone, hoff, Nat.mul_div_cancel_left _ (by decide), State.imgGet, State.imgPsn, Nat.div_eq_of_lt hi, Nat.mod_eq_of_lt hi]
  exact ⟨rfl, rfl⟩

/-- R179: an element of one value, neither scaled nor rounded stochastically, is that value converted. -/
theorem State.cvtEl_plain {s : State} {a : BitVec 5} {t : Nat} {m : BitVec 3} (hmx : kMx s.core.st.kvtype = false) (hst : s.cvtStoch t = false) (het : s.et ≠ 8) (i : Nat) :
    (s.cvtEl a t m i).val = (cvtValue t s.et s.w s.vrm none none (s.cvtSrc a t i)).1 ∧ (s.cvtEl a t m i).psn = s.cvtPsn a t i := by
  simp [State.cvtEl, State.valuesOf, valuesPer_eq_one het, hmx, hst, het]

/-- Settles O21: the check of KSR decides between the trap and the element-wise work (vfcvt_ready); cvtEl_plain and cvtSrc_same give an element of one width. -/
theorem vfcvtCompletes : Obligations.VfcvtCompletes := by
  intro s d a t m hr _ hmx hint hrange hapart
  rw [← bit_toNat] at hmx
  rw [vfcvt_ready hr hmx (State.cvtOk_of_apart hmx hint hrange hapart)]
  refine ⟨fun ⟨hst, hks⟩ => ?_, fun hgo => ?_⟩
  · rw [if_pos ((s.cvtStoch_iff _).mpr hst), State.chkK_struck hks]
    rfl
  · have hchk : s.chkK (if s.cvtStoch t.toNat then [2] else []) = .ok := by
      split
      · next h => exact State.chkK_sound (not_not.mp fun hks => hgo ⟨(s.cvtStoch_iff _).mp h, hks⟩)
      · rfl
    rw [hchk, State.given_ok, State.elementwise_eq]
    refine ⟨_, _, _, rfl, fun i F G hi hF hG het hw hsr => ?_⟩
    have hst : s.cvtStoch t.toNat = false := by rw [State.cvtStoch, kSr, bit_toNat, hsr, Bool.false_and]
    obtain ⟨hval, hpsn⟩ := State.cvtEl_plain (a := a) (m := m) hmx hst het i
    obtain ⟨hsrc, hspsn⟩ := State.cvtSrc_same (a := a) hF hw hi
    refine ⟨?_, hpsn.trans hspsn⟩
    rw [hval, hsrc, cvtValue, hF, hG, ← State.vrm_eq]

end Sys2Proof.Machine
end

section
/-!
PROOFS. VectorQueue: entering the queue (R165, R302), committing behind it (R390), a single queued instruction (R391), and a stop at the oldest one (R390, R391).
-/
namespace Sys2Proof.Machine

/-- The marks behind an instruction that has entered the queue under a number (R167). -/
def awaitMarks (i : Instr) (id : Nat) (ms : Vector RegMark 32) : Vector RegMark 32 :=
  match scalarDest i with
  | some d => if d.toNat = 0 then ms else ms.setIfInBounds d.toNat (.queued id)
  | none => ms

/-- A strand behind an instruction that has entered its queue (R165, R302). -/
def Strand.entered (t : Strand) (e : QEntry) : Strand :=
  { t with
    queue := t.queue ++ [e], pc := t.pc + 4, watchPass := false, resFirst := none, code := none, marks := awaitMarks e.instr e.id t.marks
    resN := match t.resFirst with | some _ => t.resN | none => t.resN - 1 }

theorem awaitMarks_none {i : Instr} (h : scalarDest i = none) (id : Nat) (ms : Vector RegMark 32) : awaitMarks i id ms = ms := by
  rw [awaitMarks, h]

theorem awaitMarks_dest {i : Instr} {d : BitVec 5} (h : scalarDest i = some d) (hd : d ≠ 0) (id : Nat) (ms : Vector RegMark 32) : (awaitMarks i id ms)[d.toNat] = .queued id := by
  have hpos : d.toNat ≠ 0 := fun h0 => hd (BitVec.eq_of_toNat_eq h0)
  simp only [awaitMarks, h, if_neg hpos]
  exact Vector.getElem_setIfInBounds_self ..

/-- R165, R302. -/
theorem State.enqueue_some {s u : State} {i : Instr} (h : s.enqueue i = some u) :
    s.core.st.queue.length < 32 ∧ u = { s.modSt (fun t => t.entered ⟨s.nextId, i, s.core.st.ctx, [], 0⟩) with nextId := s.nextId + 1 } := by
  unfold State.enqueue at h
  dsimp only at h
  split at h
  · cases h
  next hroom =>
    simp only [Bool.or_eq_true, decide_eq_true_eq, not_or, Nat.not_le] at hroom
    split at h
    · split at h
      · cases h
      · refine ⟨hroom.1, (Option.some.inj h).symm.trans ?_⟩
        simp only [Strand.entered, awaitMarks, State.modSt]
        cases scalarDest i with
        | none => rfl
        | some d =>
          simp only [Strand.setMark]
          split <;> rfl
    · cases h

/-- R165, R167, R302. -/
theorem State.enqueue_enters {s u : State} {i : Instr} (h : s.enqueue i = some u) :
    s.core.st.queue.length < 32 ∧ ∃ e : QEntry, e.instr = i ∧ e.ctx = s.core.st.ctx ∧ e.held = [] ∧ u.core.st.queue = s.core.st.queue ++ [e] ∧ u.core.st.pc = s.core.st.pc + 4
      ∧ u.core.st.regs = s.core.st.regs ∧ u.core.st.v = s.core.st.v ∧ u.core.st.masks = s.core.st.masks ∧ u.core.st.acc = s.core.st.acc ∧ u.core.st.kstatus = s.core.st.kstatus
      ∧ u.core.pad = s.core.pad ∧ u.mem = s.mem
      ∧ (∀ d, scalarDest i = some d → d ≠ 0 → u.core.st.marks[d.toNat] = .queued e.id) ∧ (scalarDest i = none → u.core.st.marks = s.core.st.marks) := by
  obtain ⟨hlen, rfl⟩ := State.enqueue_some h
  exact ⟨hlen, ⟨s.nextId, i, s.core.st.ctx, [], 0⟩, rfl, rfl, rfl, rfl, rfl, rfl, rfl, rfl, rfl, rfl, rfl, rfl,
    fun _ hd h0 => awaitMarks_dest hd h0 _ _, fun hd => awaitMarks_none hd _ _⟩

/-- R302: nothing enters a full queue. -/
theorem State.enqueue_full {s : State} (h : 32 ≤ s.core.st.queue.length) (i : Instr) : s.enqueue i = none := by
  have hfull : Config.queueEntries ≤ s.core.st.queue.length := h
  rw [State.enqueue, decide_eq_true hfull]
  rfl

theorem Strand.mayDefer_nil {t : Strand} (h : t.deferred = []) : t.mayDefer = false := by
  rw [Strand.mayDefer, h]
  rfl

/-- R302: behind 32 queued instructions one of the queue waits, whatever it is. -/
theorem State.issueOne_full {s : State} (hlen : s.core.st.queue.length = 32) {i : Instr} (hi : inQueue i = true) (stay : Bool) : s.issueOne stay i = .next s := by
  have hne : s.core.st.queue.isEmpty = false := by
    rw [List.isEmpty_eq_false_iff, ← List.length_pos_iff, hlen]
    decide
  rw [State.issueOne, hne, if_neg Bool.false_ne_true]
  split
  · rfl
  · rw [State.enqueue_full hlen.ge]
    rfl

theorem majorOf_add (d a b : BitVec 5) : majorOf (.add d a b) = 1 := by
  have hmo : fMo (wordA 0x01 d a b 0 0x00) = 1 := fMo_wordA ..
  have hlt := (wordA 0x01 d a b 0 0x00).isLt
  rw [fMo, ← BitVec.toNat_inj, BitVec.extractLsb'_toNat, Nat.shiftRight_eq_div_pow] at hmo
  have : majorOf (.add d a b) = (wordA 0x01 d a b 0 0x00).toNat / 2 ^ 25 := rfl
  rw [this, ← Nat.mod_eq_of_lt (b := 2 ^ 7) (a := _ / _) (by omega)]
  exact hmo

/-- R390: a scalar instruction behind queued ones is provisional. -/
theorem State.issueOne_add {s : State} (hd : s.core.st.deferred = []) (hq : s.core.st.queue ≠ []) (stay : Bool) (d a b : BitVec 5) : s.issueOne stay (.add d a b) = s.provisional (.add d a b) := by
  have hwait : waitsForQueue (.add d a b) = false := by
    simp only [waitsForQueue, majorOf_add]
    rfl
  have hin : inQueue (.add d a b) = false := by
    simp only [inQueue, majorOf_add]
    rfl
  rw [State.issueOne, List.isEmpty_eq_false_iff.mpr hq, if_neg Bool.false_ne_true, Strand.mayDefer_nil hd, hwait, hin]
  rfl

/-- One more instruction committed is counted at the youngest of the queue. -/
theorem bump_concat (l : List QEntry) (e : QEntry) : bump (l ++ [e]) = l ++ [{ e with ahead := e.ahead + 1 }] := by
  have hlen : (l ++ [e]).length = l.length + 1 := List.length_append
  rw [bump, List.mapIdx_concat, hlen, if_pos rfl]
  refine congrArg (· ++ _) (List.ext_getElem (List.length_mapIdx ..) fun j h _ => ?_)
  rw [List.length_mapIdx] at h
  rw [List.getElem_mapIdx, if_neg (by omega)]

theorem bump_count {l : List QEntry} (h : l ≠ []) : (bump l).foldl (fun n q => n + q.ahead) 0 = l.foldl (fun n q => n + q.ahead) 0 + 1 := by
  obtain ⟨r, e, rfl⟩ := (List.eq_nil_or_concat l).resolve_left h
  rw [List.concat_eq_append, bump_concat, List.foldl_append, List.foldl_append]
  rfl

theorem bump_keeps (l : List QEntry) : (bump l).map (fun e => (e.instr, e.ctx, e.held)) = l.map (fun e => (e.instr, e.ctx, e.held)) := by
  rcases List.eq_nil_or_concat l with rfl | ⟨r, e, rfl⟩
  · rfl
  · rw [List.concat_eq_append, bump_concat, List.map_append, List.map_append]
    rfl

/-- A strand as a provisional instruction finds it, and with the progress of the queue's oldest one again and one more committed (R390). -/
def Strand.aside (t : Strand) : Strand := { t with prog := none, answers := [], asked := false }
def Strand.backTo (x t : Strand) : Strand := { x with prog := t.prog, answers := t.answers, asked := t.asked, queue := bump x.queue }

/-- R390: what only changes what a trap can undo commits. -/
theorem State.provisional_commits {s w : State} {i : Instr} (hlt : s.core.st.ahead < 64) (he : exec i (s.modSt Strand.aside) = .next w) (hne : w ≠ s.modSt Strand.aside)
    (hwhole : { s.core.st.ctx.onto w.core.st with prog := s.core.st.prog, answers := s.core.st.answers, asked := s.core.st.asked, code := s.core.st.code, queue := s.core.st.queue } = s.core.st) :
    s.provisional i = .next (w.modSt (fun x => x.backTo s.core.st)) := by
  have hroom : ¬ Config.aheadMax ≤ s.core.st.ahead := Nat.not_le.mpr hlt
  have hv : s.modSt (fun t => { t with prog := none, answers := [], asked := false }) = s.modSt Strand.aside := rfl
  rw [State.provisional, if_neg hroom, hv, he]
  dsimp only
  rw [hwhole, beq_self_eq_true, beq_eq_false_iff_ne.mpr hne]
  rfl

theorem State.provisional_full {s : State} (h : 64 ≤ s.core.st.ahead) (i : Instr) : s.provisional i = .next s := by
  have hfull : Config.aheadMax ≤ s.core.st.ahead := h
  rw [State.provisional, if_pos hfull]

/-- R142 of unmarked operands. -/
theorem exec_add {s : State} {d a b : BitVec 5} (h : Claims.Clean s [a, b]) : exec (.add d a b) s = .next (s.setReg d (s.reg a + s.reg b)).finish := by
  have hexec : exec (.add d a b) s = s.given (s.chkRegs [a, b]) (.next (s.setReg d (s.reg a + s.reg b)).finish) := rfl
  rw [hexec, State.chkRegs_clean h]
  rfl

/-- A strand with a scalar register written (R53, R80), and with an instruction completed that found it without the progress of the queue's oldest one. -/
def Strand.wrote (t : Strand) (d : BitVec 5) (v : Word) : Strand :=
  { t with regs := if d = 0 then t.regs else t.regs.set d.toNat v, marks := if d = 0 then t.marks else t.marks.set d.toNat .ok }
def Strand.passed (t : Strand) (d : BitVec 5) (v : Word) : Strand := Claims.stepped (t.aside.wrote d v)

theorem State.setReg_eq_wrote (s : State) (d : BitVec 5) (v : Word) : s.setReg d v = s.modSt (fun t => t.wrote d v) := by
  rw [State.setReg_eq_modSt]
  by_cases hd : d = 0
  · simp only [Strand.wrote, if_pos hd]
  · simp only [Strand.wrote, if_neg hd]

/-- R390: of a strand, such an instruction has changed what a trap can undo. -/
theorem Strand.passed_undone (t : Strand) (d : BitVec 5) (v : Word) :
    { t.ctx.onto (t.passed d v) with prog := t.prog, answers := t.answers, asked := t.asked, code := t.code, queue := t.queue } = t := by
  simp only [Strand.passed, Strand.aside, Strand.wrote, Claims.stepped, Ctx.onto, Strand.ctx]

/-- R390: an addition behind queued instructions. -/
theorem State.provisional_add {s : State} {d a b : BitVec 5} (hlt : s.core.st.ahead < 64) (hc : Claims.Clean s [a, b]) :
    s.provisional (.add d a b) = .next (Claims.withSt s ((s.core.st.passed d (s.reg a + s.reg b)).backTo s.core.st)) := by
  have hexec : exec (.add d a b) (s.modSt Strand.aside) = .next (Claims.withSt s (s.core.st.passed d (s.reg a + s.reg b))) := by
    rw [exec_add (s := s.modSt Strand.aside) hc, State.setReg_eq_wrote]
    rfl
  refine State.provisional_commits hlt hexec (fun h => ?_) (s.core.st.passed_undone d _)
  have hpc : s.core.st.pc + 4 = s.core.st.pc := congrArg (fun u : State => u.core.st.pc) h
  simp at hpc

/-- R390: ahead of the queue, which keeps its instructions with the state they carry. -/
theorem State.provisional_add_passes {s : State} {d a b : BitVec 5} (hq : s.core.st.queue ≠ []) (hc : Claims.Clean s [a, b]) (hlt : s.core.st.ahead < 64) :
    ∃ u, s.provisional (.add d a b) = .next u ∧ u = Claims.withSt s u.core.st ∧ u.core.st.pc = s.core.st.pc + 4
      ∧ u.core.st.regs = (if d = 0 then s.core.st.regs else s.core.st.regs.set d.toNat (s.reg a + s.reg b))
      ∧ u.core.st.queue.map (fun e => (e.instr, e.ctx, e.held)) = s.core.st.queue.map (fun e => (e.instr, e.ctx, e.held)) ∧ u.core.st.ahead = s.core.st.ahead + 1
      ∧ u.core.st.v = s.core.st.v ∧ u.core.st.masks = s.core.st.masks ∧ u.core.st.acc = s.core.st.acc ∧ u.core.st.vl = s.core.st.vl ∧ u.core.st.kvtype = s.core.st.kvtype :=
  ⟨_, State.provisional_add hlt hc, rfl, rfl, rfl, bump_keeps _, bump_count hq, rfl, rfl, rfl, rfl, rfl⟩

/-- R167: a delivery to the strand touches what the instruction gives: a scalar register with its mark, or VL. -/
theorem Strand.deliver_eq (t : Strand) (e : QEntry) (u : Strand) : ∃ regs marks vl queue, t.deliver e u = { t with regs := regs, marks := marks, vl := vl, queue := queue }
    ∧ queue.length = t.queue.length ∧ (scalarDest e.instr = none → regs = t.regs ∧ marks = t.marks) := by
  unfold Strand.deliver
  cases hd : scalarDest e.instr with
  | none =>
    cases isFirstFault e.instr
    · exact ⟨t.regs, t.marks, t.vl, t.queue, rfl, rfl, fun _ => ⟨rfl, rfl⟩⟩
    · exact ⟨t.regs, t.marks, u.vl, t.queue, rfl, rfl, fun _ => ⟨rfl, rfl⟩⟩
  | some d =>
    dsimp only
    rw [Strand.deliverOne]
    split
    · exact ⟨_, _, t.vl, _, rfl, List.length_map .., fun h => nomatch h⟩
    · exact ⟨t.regs, t.marks, t.vl, _, rfl, List.length_map .., fun h => nomatch h⟩

/-- R391: the only queued instruction has completed. -/
theorem State.runAlone_done {s w : State} {e : QEntry} (he : exec e.instr (s.modSt (fun t => t.issue e.ctx)) = .next w) (hleft : w.left s.core.st = false) (hwait : w.core.st.wait = .none)
    (hvq : w.core.st.vq = none) (hpc : w.core.st.pc = e.ctx.pc + 4) (ho : s.overtakable e = none) :
    s.runAlone e = .next ((w.modSt (fun _ => ((s.core.st.merge e w.core.st).deliver e w.core.st).pop 1)).takeOut) := by
  rw [State.runAlone, he]
  dsimp only
  rw [hvq]
  dsimp only
  rw [hleft, hwait, hvq, hpc, ho, bne_self_eq_false, if_neg (by decide), if_neg (by decide), if_pos rfl]

/-- R390, R391: its own work is taken over, and the scalar state stays as the younger instructions have made it. -/
theorem State.runAlone_leaves {s w : State} {e : QEntry} (hq : s.core.st.queue = [e]) (he : exec e.instr (s.modSt (fun t => t.issue e.ctx)) = .next w) (hleft : w.left s.core.st = false)
    (hwait : w.core.st.wait = .none) (hvq : w.core.st.vq = none) (hpc : w.core.st.pc = e.ctx.pc + 4) (ho : s.overtakable e = none) :
    ∃ u, s.runAlone e = .next u ∧ u.core.st.queue = [] ∧ u.core.st.pc = s.core.st.pc ∧ u.core.st.v = w.core.st.v ∧ u.core.st.masks = w.core.st.masks ∧ u.core.st.acc = w.core.st.acc
      ∧ u.core.pad = w.core.pad ∧ u.mem = w.mem ∧ (scalarDest e.instr = none → u.core.st.regs = s.core.st.regs ∧ u.core.st.marks = s.core.st.marks)
      ∧ u.core.st.kfctl = s.core.st.kfctl ||| (w.core.st.kfctl &&& ~~~e.ctx.kfctl) := by
  obtain ⟨regs, marks, vl, queue, hdel, hlen, hkeep⟩ := (s.core.st.merge e w.core.st).deliver_eq e w.core.st
  have hone : queue.length ≤ 1 := by
    rw [hlen, Strand.merge, List.length_map, hq]
    rfl
  refine ⟨_, State.runAlone_done he hleft hwait hvq hpc ho, ?_⟩
  rw [hdel]
  exact ⟨List.drop_eq_nil_of_le hone, rfl, rfl, rfl, rfl, rfl, rfl, hkeep, rfl⟩

/-- R390, R391: what a stop at the oldest queued instruction leaves, by whether a window had started. -/
theorem Strand.unwind_stops {t : Strand} {e : QEntry} {r : List QEntry} (h : t.queue = e :: r) :
    let u := t.unwind
    u.queue = [] ∧ u.pc = e.ctx.pc ∧ u.regs = e.ctx.regs ∧ u.marks = e.ctx.marks ∧ u.vl = e.ctx.vl ∧ u.kvtype = e.ctx.kvtype ∧ u.klm = e.ctx.klm ∧ u.acc = t.acc
      ∧ (t.win < 2 → u.v = t.v ∧ u.masks = t.masks ∧ u.kfctl = e.ctx.kfctl)
      ∧ (∀ h, 2 ≤ t.win → t.hist = some h → u.v = h.v ∧ u.vpsn = h.vpsn ∧ u.masks = h.masks ∧ u.kfctl = h.kfctl ∧ u.resFirst = some t.row ∧ u.resN = t.win - 1) := by
  intro u
  obtain ⟨hqueue, hpc, hregs, hmarks, hvl, hkvtype, -⟩ := Strand.unwind_cons h
  refine ⟨hqueue, hpc, hregs, hmarks, hvl, hkvtype, ?_⟩
  have hu : u = t.unwind := rfl
  rw [Strand.unwind, h] at hu
  dsimp only at hu
  by_cases hwin : t.win < 2
  · rw [if_pos hwin] at hu
    rw [hu]
    exact ⟨rfl, rfl, fun _ => ⟨rfl, rfl, rfl⟩, fun _ h2 => absurd hwin (Nat.not_lt.mpr h2)⟩
  · rw [if_neg hwin] at hu
    rw [hu]
    cases t.hist with
    | none => exact ⟨rfl, rfl, fun h2 => absurd h2 hwin, fun _ _ hh => nomatch hh⟩
    | some x => exact ⟨rfl, rfl, fun h2 => absurd h2 hwin, fun y _ hh => Option.some.inj hh ▸ ⟨rfl, rfl, rfl, rfl, rfl, rfl⟩⟩

/-- Settles O53: entering the queue (enqueue_enters), a full queue, an addition behind it (provisional_add_passes), the only queued instruction (runAlone_leaves), and a stop (unwind_stops). -/
theorem vectorQueue : Obligations.VectorQueue := by
  intro s hd
  refine ⟨fun i u => State.enqueue_enters, fun i stay hlen hi => State.issueOne_full hlen hi stay, fun d a b stay hq hc => ?_,
    fun e w => State.runAlone_leaves, fun e r => Strand.unwind_stops⟩
  rw [State.issueOne_add hd hq]
  exact ⟨State.provisional_add_passes hq (Claims.Clean.mono hc (by simp)), fun h => State.provisional_full h _⟩

end Sys2Proof.Machine
end

section
/-!
PROOFS. FenceCompletes: what FENCE waits for is performed where nothing is outstanding (R205, R304), and what it marks is nothing there (R398).
-/
namespace Sys2Proof.Machine

theorem State.unacked_calm {s : State} (h : Claims.Calm s) (gang rank cls : Nat) : s.unacked gang rank cls = false := by
  simp [State.unacked, h.invals, h.ctl, h.reqs]

theorem Strand.heldOps_calm {s : State} (h : Claims.Calm s) : s.core.st.heldOps = [] := by
  obtain ⟨hq, ho⟩ := h.held
  simp [Strand.heldOps, hq, ho]

/-- R304: with nothing outstanding, every earlier access of any class is performed at every scope. -/
theorem State.performed_of_quiet {s : State} (h : Claims.Quiet s) (pred scope : Nat) : s.performed pred scope = true := by
  have hbuf : s.buffered s.core.st.gang s.core.st.rank = false := by simp [State.buffered, Strand.heldOps_calm h.toCalm, h.sb]
  have hfar : s.farStore s.core.st.gang s.core.st.rank = false := by simp [State.farStore, h.reqs]
  have hengine : s.engineBusy s.core.st.gang s.core.st.rank = false := by simp [State.engineBusy, h.xfers]
  have htokens : s.completing = false := by simp [State.completing, h.toks, h.txq, h.pairs]
  simp [State.performed, h.held.1, State.scalarBusy_quiet h.toCalm, hbuf, hfar, State.unacked_calm h.toCalm, hengine, htokens]

/-- R398: what a FENCE with ss and vs marks is what is not acknowledged. -/
theorem State.cover_of_calm {s : State} (h : Claims.Calm s) : s.cover = s := by
  have e : s.cover = { s with invals := [], ctlWrites := [], reqs := [] } := by simp [State.cover, mapIf, h.invals, h.ctl, h.reqs]
  rw [e, ← h.invals, ← h.ctl, ← h.reqs]

/-- Settles O17: R437's notes first; else an empty set or nothing outstanding lets it go on, and cover_of_calm says that it then marks nothing. -/
theorem fenceCompletes : Obligations.FenceCompletes := by
  intro s p u c
  refine ⟨fun hnotes hgo => ?_, fun hnotes => if_pos (bne_iff_ne.mpr hnotes)⟩
  have hperformed : (decide (p = 0) || decide (u = 0) || s.performed p.toNat c.toNat) = true := by
    rcases hgo with h | h | h
    · simp [h]
    · simp [h]
    · simp [State.performed_of_quiet h]
  have hexec : exec (.fence p u c) s = .next (if p.getLsbD 1 && p.getLsbD 3 then s.cover else s).finish := by
    change (if s.core.st.notes &&& p != 0 then _ else if decide (p = 0) || decide (u = 0) || s.performed p.toNat c.toNat then _ else _) = _
    rw [if_neg (by simp [hnotes]), if_pos hperformed]
  refine ⟨_, hexec, ?_, fun hcover => ?_⟩
  · split <;> rfl
  · rcases hcover with h | h
    · rw [if_neg (by simpa using h), State.finish_eq]
    · rw [State.cover_of_calm h.toCalm, ite_self, State.finish_eq]

end Sys2Proof.Machine
end

section
/-!
PROOFS. Rules about a core's tile tags (R31, R209, R210): what a tile reads after a tag changes, what stays, and that with nothing waiting for a tile its tag unit admits and presents nothing.
-/
namespace Sys2Proof.Machine

theorem find?_upsert_self {α : Type} {p : α → Bool} {x : α} (l : List α) (hx : p x = true) : (upsert p x l).find? p = some x := by
  unfold upsert
  split
  next h =>
    induction l with
    | nil => simp at h
    | cons y r ih =>
      by_cases hy : p y = true
      · simp [hy, hx]
      · have hr : r.any p = true := by simpa [hy] using h
        simpa [hy] using ih hr
  next h =>
    have hnone : l.find? p = none := by simpa using h
    simp [List.find?_append, hnone, hx]

theorem find?_upsert_other {α : Type} {p q : α → Bool} {x : α} (l : List α) (hx : q x = false) (hpq : ∀ y, p y = true → q y = false) : (upsert p x l).find? q = l.find? q := by
  unfold upsert
  split
  next =>
    have h := find?_mapIf (p := q) (q := p) (f := fun _ => x) (fun y => by by_cases hy : p y = true <;> simp [hy, hx, hpq]) l
    refine h.trans ?_
    cases hf : l.find? q with
    | none => rfl
    | some y =>
      have hy : ¬ p y = true := fun hp => Bool.false_ne_true ((hpq y hp).symm.trans (List.find?_some hf))
      simp [hy]
  next => simp [List.find?_append, hx]

@[simp] theorem Core.tile_idx (k : Core) (n : Nat) : (k.tile n).idx = n := by
  unfold Core.tile
  cases h : k.tiles.find? (fun t => t.idx == n) with
  | none => rfl
  | some t => simpa using List.find?_some h

/-- The tile that a core reads depends on its tiles alone. -/
theorem Core.tile_congr {k l : Core} (h : k.tiles = l.tiles) (n : Nat) : k.tile n = l.tile n := by rw [Core.tile, h, Core.tile]

theorem Core.putTile_eq (k : Core) (t : Tile) : k.putTile t = { k with tiles := (k.putTile t).tiles } := by
  unfold Core.putTile
  split <;> rfl

theorem Core.tile_putTile_self (k : Core) (t : Tile) : (k.putTile t).tile t.idx = t := by
  unfold Core.putTile Core.tile
  split
  next h =>
    have hnone : (k.tiles.filter (fun x => x.idx != t.idx)).find? (fun x => x.idx == t.idx) = none := by simp
    rw [hnone]
    exact (beq_iff_eq.mp h).symm
  next =>
    dsimp only
    rw [find?_upsert_self k.tiles (p := fun x => x.idx == t.idx) (beq_self_eq_true t.idx), Option.getD_some]

theorem Core.tile_putTile_other (k : Core) (t : Tile) {m : Nat} (hm : m ≠ t.idx) : (k.putTile t).tile m = k.tile m := by
  have hne : (t.idx == m) = false := beq_eq_false_iff_ne.mpr hm.symm
  unfold Core.putTile Core.tile
  split
  next =>
    dsimp only
    rw [find?_filter_eq (p := fun (x : Tile) => x.idx == m) (q := fun x => x.idx != t.idx) (fun x hx => by simpa [beq_iff_eq.mp hx] using hm)]
  next =>
    dsimp only
    rw [find?_upsert_other k.tiles (p := fun x => x.idx == t.idx) (q := fun x => x.idx == m) hne (fun y hy => (beq_iff_eq.mp hy).symm ▸ hne)]

theorem Core.modTile_eq (k : Core) (n : Nat) (f : Tile → Tile) : k.modTile n f = { k with tiles := (k.modTile n f).tiles } := k.putTile_eq _

@[simp] theorem Core.modTile_id (k : Core) (n : Nat) (f : Tile → Tile) : (k.modTile n f).id = k.id := by rw [k.modTile_eq]
@[simp] theorem Core.modTile_pad (k : Core) (n : Nat) (f : Tile → Tile) : (k.modTile n f).pad = k.pad := by rw [k.modTile_eq]
@[simp] theorem Core.modTile_overrun (k : Core) (n : Nat) (f : Tile → Tile) : (k.modTile n f).overrun = k.overrun := by rw [k.modTile_eq]

theorem Core.tile_modTile_self {k : Core} {n : Nat} {f : Tile → Tile} (hf : (f (k.tile n)).idx = n) : (k.modTile n f).tile n = f (k.tile n) := by
  have h := k.tile_putTile_self (f (k.tile n))
  rwa [hf] at h

theorem Core.tile_modTile_other {k : Core} {n m : Nat} {f : Tile → Tile} (hf : (f (k.tile n)).idx = n) (hm : m ≠ n) : (k.modTile n f).tile m = k.tile m :=
  k.tile_putTile_other _ (hf.symm ▸ hm)

theorem takeNth_nil {α : Type} (p : α → Bool) (n : Nat) : takeNth p [] n = none := rfl

/-- R214: where no fill waits, none is admitted. -/
theorem State.letIn_none {s : State} {c : Nat} (h : (s.coreAt c).overrun = []) (i n : Nat) : s.letIn c i n = s := by
  cases n with
  | zero => rfl
  | succ n => rw [State.letIn, h, takeNth_nil]

/-- R215: where no contribution waits, none is presented. -/
theorem State.present_none {s : State} {c : Nat} (h : (s.coreAt c).overrun = []) (i n : Nat) : s.present c i n = s := by
  cases n with
  | zero => rfl
  | succ n =>
    rw [State.present, h, takeNth_nil]
    exact ite_self _

/-- R39: a core on which nothing waits for that keeps its strands. -/
theorem Core.wakeIf_none {k : Core} {p : Strand → Bool} (now : Nat) (h : ∀ u ∈ k.st :: k.rest, p u = false) : k.wakeIf now p = k := by
  have hst : p k.st = false := h _ (List.mem_cons_self ..)
  have hrest : k.rest.map (fun t => if (t.wait != .none && p t) = true then t.woken now else t) = k.rest :=
    (List.map_congr_left (fun u hu => by simp [h u (List.mem_cons_of_mem _ hu)])).trans (List.map_id _)
  unfold Core.wakeIf
  dsimp only
  rw [hrest, hst]
  simp

end Sys2Proof.Machine
end

section
/-!
PROOFS. Addresses of the own scratchpad (R206, R207, R268): where they lead, and that a tag operation on a tile of the own allotment does its own work.
-/
namespace Sys2Proof.Machine

/-- R268: an address of the local window. -/
theorem State.xlate_ownPad {s : State} {ea : Word} {o : Nat} (h : Claims.ownPad s ea o) (n : Nat) : s.xlate ea n = .at (.local_ (s.core.st.allotBase + o)) windowXlat := by
  obtain ⟨hea, hsize, hwin⟩ := h
  have htop : ¬ 2 ^ 55 ≤ ea.toNat := by omega
  have hwindow : bits ea.toNat 54 53 = 3 := by unfold bits; omega
  have hpeer : bits ea.toNat 54 44 ≠ 0x600 := by unfold bits; omega
  have hlocal : 0x70000000000000 ≤ ea.toNat ∧ ea.toNat < 0x70000000080000 := by omega
  have hoff : ea.toNat - 0x70000000000000 = o := by omega
  simp only [State.xlate, htop, hwindow, bne_self_eq_false, beq_eq_false_iff_ne.mpr hpeer, decide_eq_true hlocal.1, decide_eq_true hlocal.2, hoff, hsize, if_true, if_false,
    Bool.and_self, Bool.false_eq_true]

@[simp] theorem windowXlat_permits_load (k : Bool) : windowXlat.permits .load k = true := Bool.or_true k
@[simp] theorem windowXlat_permits_store (k : Bool) : windowXlat.permits .store k = true := Bool.or_true k

/-- R207: the address of a tile of the own allotment. -/
theorem State.tileOff_ownTile {s : State} {a : BitVec 5} {n : Nat} {acc : Acc} (h : Claims.ownTile s a n) (hacc : ∀ k, windowXlat.permits acc k = true) : s.tileOff (s.reg a) acc = .ok (256 * n) := by
  obtain ⟨-, o, hpad, halign, hat⟩ := h
  have hmod : (s.reg a).toNat % 256 = 0 := by
    rw [hpad.1]
    omega
  simp [State.tileOff, hmod, State.typed, State.xlate_ownPad hpad, hacc, hat]

theorem State.lockedAt_nil {s : State} (h : s.core.locks = []) (off n : Nat) (write : Bool) : s.lockedAt off n write = false := by
  simp [State.lockedAt, h]

theorem State.unacked_storesSeen {s : State} (h : Claims.storesSeen s) (gang rank : Nat) : s.unacked gang rank 8 = false := by
  obtain ⟨hinvals, hreqs, -⟩ := h
  simp [State.unacked, hinvals, hreqs, bit]

/-- R207, R218, R233, R305 and R482: a tag operation whose operands, address and earlier accesses do not hold it back. -/
theorem State.tagOp_ownTile {s : State} {rs : List (BitVec 5)} {a : BitVec 5} {n : Nat} {acc : Acc} (hc : Claims.Clean s rs) (h : Claims.ownTile s a n) (hseen : Claims.storesSeen s)
    (hacc : ∀ k, windowXlat.permits acc k = true) (f : Nat → Out) : s.tagOp rs a acc f = f n := by
  rw [State.tagOp, State.chkRegs_clean hc, State.given_ok, State.withTile, State.tileOff_ownTile h hacc]
  dsimp only
  rw [State.acqWait_of_noAcquire hseen.2.2, State.lockedAt_nil h.1, State.unacked_storesSeen hseen, Nat.mul_div_cancel_left n (by decide)]
  rfl

end Sys2Proof.Machine
end

section
/-!
PROOFS. TileTags: the fields of the tag word (R209), and TSTAT, TWAIT, TSET and TARM on a tile of the own allotment (R208, R210, R212, R215).
-/
namespace Sys2Proof.Machine

/-- R209: PSN, one bit for each granule of a tile. -/
theorem Core.tilePsn_eq (k : Core) (n : Nat) :
    k.tilePsn n = b2n (k.padPsn.contains (4 * n)) + 2 * b2n (k.padPsn.contains (4 * n + 1)) + 4 * b2n (k.padPsn.contains (4 * n + 2)) + 8 * b2n (k.padPsn.contains (4 * n + 3)) := by
  have hrange : List.range 4 = [0, 1, 2, 3] := rfl
  unfold Core.tilePsn
  rw [hrange]
  simp only [List.foldl_cons, List.foldl_nil, Nat.add_zero]
  cases k.padPsn.contains (4 * n) <;> cases k.padPsn.contains (4 * n + 1) <;> cases k.padPsn.contains (4 * n + 2) <;> cases k.padPsn.contains (4 * n + 3) <;> rfl

theorem b2n_le (b : Bool) : b2n b ≤ 1 := by cases b <;> decide

/-- A bit of a word that its value names. -/
theorem getLsbD_of_div {w i : Nat} {x : BitVec w} {b : Bool} (h : x.toNat / 2 ^ i % 2 = b2n b) : x.getLsbD i = b := by
  rw [← bit_toNat, bit, h]
  cases b <;> rfl

/-- A field of a word that its value names. -/
theorem extractLsb'_of_div {w lo n v : Nat} {x : BitVec w} (h : x.toNat / 2 ^ lo % 2 ^ n = v) : (x.extractLsb' lo n).toNat = v := by
  rw [BitVec.extractLsb'_toNat, Nat.shiftRight_eq_div_pow, h]

/-- R209: the tag word as a number; its counts fit their fields. -/
theorem Core.tagWord_toNat {k : Core} {n : Nat} (hcnt : (k.tile n).cnt < 32) (hop : (k.tile n).op < 8) (hpend : k.pend n < 32) :
    (k.tagWord n).toNat = k.pend n * 2 ^ 31 + k.tilePsn n * 2 ^ 27 + (k.tile n).absent.toNat * 2 ^ 11 + (if (k.tile n).armed then (k.tile n).op else 0) * 2 ^ 8
      + (k.tile n).cnt * 8 + b2n (k.tile n).bound.isSome * 4 + b2n (k.tile n).armed * 2 + b2n (k.tile n).full := by
  have hpsn : k.tilePsn n < 16 := by
    rw [Core.tilePsn_eq]
    have := b2n_le
    grind
  have habsent := (k.tile n).absent.isLt
  have hop' : (if (k.tile n).armed then (k.tile n).op else 0) < 8 := by split <;> omega
  have hb := b2n_le (k.tile n).bound.isSome
  have ha := b2n_le (k.tile n).armed
  have hf := b2n_le (k.tile n).full
  rw [Core.tagWord, BitVec.toNat_ofNat, Nat.mod_eq_of_lt]
  omega

/-- R209: the fields of the tag word. -/
theorem Core.tagWord_fields {k : Core} {n : Nat} (hcnt : (k.tile n).cnt < 32) (hop : (k.tile n).op < 8) (hpend : k.pend n < 32) :
    let x := k.tagWord n
    let g := k.tile n
    x.getLsbD 0 = g.full ∧ x.getLsbD 1 = g.armed ∧ x.getLsbD 2 = g.bound.isSome ∧ (x.extractLsb' 3 5).toNat = g.cnt
      ∧ (x.extractLsb' 8 3).toNat = (if g.armed then g.op else 0) ∧ x.extractLsb' 11 16 = g.absent
      ∧ (∀ j, j < 4 → x.getLsbD (27 + j) = k.padPsn.contains (4 * n + j))
      ∧ (x.extractLsb' 31 5).toNat = k.pend n ∧ x.extractLsb' 36 28 = 0 := by
  dsimp only
  have hx := Core.tagWord_toNat hcnt hop hpend
  rw [Core.tilePsn_eq] at hx
  have habsent := (k.tile n).absent.isLt
  have hop' : (if (k.tile n).armed then (k.tile n).op else 0) < 8 := by split <;> omega
  have hb := b2n_le (k.tile n).bound.isSome
  have ha := b2n_le (k.tile n).armed
  have hf := b2n_le (k.tile n).full
  have h0 := b2n_le (k.padPsn.contains (4 * n))
  have h1 := b2n_le (k.padPsn.contains (4 * n + 1))
  have h2 := b2n_le (k.padPsn.contains (4 * n + 2))
  have h3 := b2n_le (k.padPsn.contains (4 * n + 3))
  refine ⟨getLsbD_of_div ?_, getLsbD_of_div ?_, getLsbD_of_div ?_, extractLsb'_of_div ?_, extractLsb'_of_div ?_, BitVec.eq_of_toNat_eq (extractLsb'_of_div ?_), fun j hj => getLsbD_of_div ?_,
    extractLsb'_of_div ?_, BitVec.eq_of_toNat_eq (extractLsb'_of_div ?_)⟩
  case refine_7 =>
    obtain rfl | rfl | rfl | rfl : j = 0 ∨ j = 1 ∨ j = 2 ∨ j = 3 := by omega
    all_goals
      rw [hx]
      simp only [Nat.add_zero, Nat.reduceAdd]
      omega
  case refine_9 =>
    have hzero : (0 : BitVec 28).toNat = 0 := rfl
    rw [hx, hzero]
    omega
  all_goals
    rw [hx]
    omega

theorem State.mayNotSuspend_iff {s : State} : s.mayNotSuspend = true ↔ ¬ Claims.maySuspend s.core.st := inUser_of_maySuspend

/-- R77, R212: an instruction that has to wait for a tile suspends its strand, or traps in K mode and in a handler. -/
theorem tileWait_cases {s : State} {n : Nat} {pc : Pc} {i : Instr} (hk : Claims.kSound s [3])
    (hexec : exec i s = if s.mayNotSuspend then .next (s.trap 0x0C (s.reg a) 0) else s.given (s.chkK [0x003]) (.next (s.suspend (.tile n) s.core.st.klm pc s.core.st.pc))) :
    (¬ Claims.maySuspend s.core.st → exec i s = .next (s.trap 0x0C (s.reg a) 0))
    ∧ (Claims.maySuspend s.core.st → Claims.hasRoom s s.core.st.klm → ∃ t, exec i s = .next t ∧ Claims.suspended s t (.tile n) s.core.st.klm pc) := by
  refine ⟨fun h => ?_, fun h hroom => ⟨_, ?_, suspended_suspend hroom⟩⟩
  · rw [hexec, if_pos (State.mayNotSuspend_iff.mpr h)]
  · rw [hexec, if_neg (fun hno => State.mayNotSuspend_iff.mp hno h), State.chkK_sound hk, State.given_ok]

/-- The claim on a state in which one tile of the core in turn is changed and the instruction has completed. -/
theorem tileNow_modTile {s : State} {n : Nat} {f : Tile → Tile} (hf : (f (s.core.tile n)).idx = n) :
    let t := (s.modCore (fun k => k.modTile n f)).finishQ
    t.core.tile n = f (s.core.tile n) ∧ (∀ k, k ≠ n → t.core.tile k = s.core.tile k)
      ∧ t = { s with core := { s.core with tiles := t.core.tiles, st := Claims.doneQ s.core.st } } := by
  refine ⟨Core.tile_modTile_self hf, fun k hk => Core.tile_modTile_other hf hk, ?_⟩
  rw [State.finishQ_eq, Claims.withSt, State.modCore, s.core.modTile_eq]

/-- R39, R210: a tile that no strand waits for wakes none. -/
theorem State.wakeTile_none {s : State} {n : Nat} (h : ∀ u ∈ s.core.st :: s.core.rest, u.wait ≠ .tile n) : s.wakeTile s.core.id n = s := by
  rw [State.wakeTile, State.wakeIf, State.modCoreAt_self rfl rfl, State.modCore,
    Core.wakeIf_none s.now (fun u hu => Bool.and_eq_false_iff.mpr (.inl (beq_eq_false_iff_ne.mpr (h u hu))))]

theorem Tile.set_eq {g : Tile} {v : Word} {h : BitVec 32} : g.set v h = { g with
    full := v.getLsbD 0
    armed := g.armed && !v.getLsbD 1
    cnt := if v.getLsbD 1 then 0 else g.cnt
    cnt0 := if v.getLsbD 1 then 0 else g.cnt0
    op := if v.getLsbD 1 then 0 else g.op
    absent := if v.getLsbD 1 then 0 else g.absent
    slots := if v.getLsbD 1 then [] else g.slots
    bound := if v.getLsbD 2 then (if h = 0 then none else some h) else g.bound } := by
  unfold Tile.set
  cases v.getLsbD 1 <;> cases v.getLsbD 2 <;> simp

/-- R208, R210: TSET on a tile that nothing waits for and that it may change. -/
theorem tset_sets {s : State} {a b : BitVec 5} {n : Nat} (hc : Claims.Clean s [a, b]) (h : Claims.ownTile s a n) (hseen : Claims.storesSeen s)
    (harmed : (s.core.tile n).armed = false ∨ (s.reg b).getLsbD 1 = true)
    (hbind : (s.reg b).getLsbD 2 = true → (s.reg b).extractLsb' 32 32 = 0 ∨ isHandle ((s.reg b).extractLsb' 32 32) = true)
    (hover : s.core.overrun = []) (hwait : ∀ u ∈ s.core.st :: s.core.rest, u.wait ≠ .tile n) :
    exec (.tset a b) s = .next (s.modCore (fun k => k.modTile n (fun t => t.set (s.reg b) ((s.reg b).extractLsb' 32 32)))).finishQ := by
  have hmay : ((s.core.tile n).armed && !(s.reg b).getLsbD 1) = false := by
    rcases harmed with h | h <;> simp [h]
  have hhandle : ((s.reg b).getLsbD 2 && (s.reg b).extractLsb' 32 32 != 0 && !isHandle ((s.reg b).extractLsb' 32 32)) = false := by
    cases h2 : (s.reg b).getLsbD 2 with
    | false => rfl
    | true => rcases hbind h2 with h | h <;> simp [h]
  have hid : ∀ f : Tile → Tile, (s.modCore (fun k => k.modTile n f)).core.id = s.core.id := s.core.modTile_id n
  rw [show exec (.tset a b) s = execTset a b s from rfl, execTset, State.tagOp_ownTile hc h hseen windowXlat_permits_store]
  dsimp only
  rw [hmay, hhandle, if_neg Bool.false_ne_true, if_neg Bool.false_ne_true]
  congr 2
  split
  · rw [← hid, State.wakeTile_none]
    rw [State.modCore, s.core.modTile_eq]
    exact hwait
  · refine State.letIn_none ?_ _ _
    rw [← hid, State.coreAt_self]
    exact (s.core.modTile_overrun _ _).trans hover

/-- R208: TARM's misuse, in the fields of s[b]. -/
theorem State.armBad_iff {s : State} {n : Nat} {v : Word} : s.armBad n v = true ↔
    v.extractLsb' 0 5 = 0 ∨ 16 < (v.extractLsb' 0 5).toNat ∨ 4 ≤ (v.extractLsb' 5 3).toNat ∨ (s.core.tile n).full = true ∨ (s.core.tile n).armed = true
      ∨ 8 ≤ s.core.tiles.countP (fun y => y.armed) := by
  have hcount : bits v.toNat 4 0 = (v.extractLsb' 0 5).toNat := bits_toNat v 4 0
  have hzero : (v.extractLsb' 0 5).toNat = 0 ↔ v.extractLsb' 0 5 = 0 := by rw [← BitVec.toNat_inj]; rfl
  have htop : v.getLsbD 7 = true ↔ 4 ≤ (v.extractLsb' 5 3).toNat := by
    rw [← bit_toNat, bit, beq_iff_eq, BitVec.extractLsb'_toNat, Nat.shiftRight_eq_div_pow]
    omega
  simp only [State.armBad, hcount, Bool.or_eq_true, beq_iff_eq, decide_eq_true_eq, hzero, htop, or_assoc]
  rfl

/-- R208, R215: TARM on an empty tile, with no contribution waiting. -/
theorem tarm_arms {s : State} {a b : BitVec 5} {n : Nat} (hc : Claims.Clean s [a, b]) (h : Claims.ownTile s a n) (hseen : Claims.storesSeen s)
    (hgood : ¬ s.armBad n (s.reg b) = true) (hover : s.core.overrun = []) :
    exec (.tarm a b) s = .next (s.modCore (fun k => k.modTile n (fun t =>
      { t with armed := true, cnt0 := bits (s.reg b).toNat 4 0, cnt := bits (s.reg b).toNat 4 0, op := bits (s.reg b).toNat 6 5, absent := 0, slots := [] }))).finishQ := by
  rw [show exec (.tarm a b) s = execTarm a b s from rfl, execTarm, State.tagOp_ownTile hc h hseen windowXlat_permits_store]
  dsimp only
  rw [if_neg hgood, State.present_none]
  exact (congrArg Core.overrun (State.coreAt_modCore (s.core.modTile_id n _))).trans ((s.core.modTile_overrun n _).trans hover)

/-- Settles O31: each operation does its own work (tagOp_ownTile), with the word of tagWord_fields, the wait of tileWait_cases, the tile of tileNow_modTile. -/
theorem tileTags : Obligations.TileTags := by
  intro s d a b n hc h hseen hk g v
  have hca : Claims.Clean s [a] := Claims.Clean.mono hc (by simp)
  have hidx : (s.core.tile n).idx = n := s.core.tile_idx n
  have htwait : exec (.twait a) s = if g.full && !g.armed then .next s.finishQ
      else if s.mayNotSuspend then .next (s.trap 0x0C (s.reg a) 0) else s.given (s.chkK [0x003]) (.next (s.suspend (.tile n) s.core.st.klm (s.core.st.pc + 4) s.core.st.pc)) := by
    rw [show exec (.twait a) s = execTwait a s from rfl, execTwait, State.tagOp_ownTile hca h hseen windowXlat_permits_load]
  refine ⟨fun hcnt hop hover => ⟨s.core.tagWord n, ?_, ?_⟩, fun hfull harmed => ?_, fun hwait => ?_, fun harmed hkeep => ?_, fun harmed hbind hover hno => ?_, fun hbad => ?_,
    fun hpos hle hop hfull harmed hroom hover => ?_⟩
  · rw [← State.finishQ_setReg, show exec (.tstat d a) s = execTstat d a s from rfl, execTstat, State.tagOp_ownTile hca h hseen windowXlat_permits_load]
  · exact Core.tagWord_fields hcnt hop (Nat.lt_of_le_of_lt List.countP_le_length hover)
  · rw [htwait, hfull, harmed, ← State.finishQ_eq]
    rfl
  · refine tileWait_cases (a := a) hk ?_
    rw [htwait, if_neg (by simpa using hwait)]
  · have hmis : ((s.core.tile n).armed && !(s.reg b).getLsbD 1) = true := by
      rw [show (s.core.tile n).armed = true from harmed, show (s.reg b).getLsbD 1 = false from hkeep]
      rfl
    rw [show exec (.tset a b) s = execTset a b s from rfl, execTset, State.tagOp_ownTile hc h hseen windowXlat_permits_store]
    exact if_pos hmis
  · obtain ⟨htile, hothers, hrest⟩ := tileNow_modTile (s := s) (n := n) (f := fun t => t.set v (v.extractLsb' 32 32)) (by rw [Tile.set_eq]; exact hidx)
    exact ⟨_, tset_sets hc h hseen harmed hbind hover hno, htile.trans Tile.set_eq, hothers, hrest⟩
  · rw [show exec (.tarm a b) s = execTarm a b s from rfl, execTarm, State.tagOp_ownTile hc h hseen windowXlat_permits_store]
    exact if_pos (State.armBad_iff.mpr hbad)
  · have hgood : ¬ s.armBad n v = true := by
      rw [State.armBad_iff]
      have hzero : v.extractLsb' 0 5 = 0 → (v.extractLsb' 0 5).toNat = 0 := fun e => by rw [e]; rfl
      have hf : (s.core.tile n).full = false := hfull
      have ha : (s.core.tile n).armed = false := harmed
      rw [hf, ha]
      grind
    have hfield : bits v.toNat 4 0 = (v.extractLsb' 0 5).toNat := bits_toNat v 4 0
    have hoper : bits v.toNat 6 5 = (v.extractLsb' 5 3).toNat := by
      rw [BitVec.extractLsb'_toNat, Nat.shiftRight_eq_div_pow] at hop ⊢
      unfold bits
      omega
    obtain ⟨htile, hothers, hrest⟩ := tileNow_modTile (s := s) (n := n)
      (f := fun t => { t with armed := true, cnt0 := bits v.toNat 4 0, cnt := bits v.toNat 4 0, op := bits v.toNat 6 5, absent := 0, slots := [] }) hidx
    exact ⟨_, tarm_arms hc h hseen hgood hover, by rw [htile, hfield, hoper], hothers, hrest⟩

end Sys2Proof.Machine
end

section
/-!
PROOFS. TldfLoadsFullTiles: the tiles that TLDF finds full and not armed, what emptying them changes, and its load or its wait (R211).
-/
namespace Sys2Proof.Machine

/-- R68: no watch register is enabled where nothing holds an access back. -/
theorem Strand.watchers_calm {s : State} (h : Claims.Calm s) (k : WKind) (a n : Nat) : s.core.st.watchers k a n = [] := by
  unfold Strand.watchers
  split
  · rfl
  · refine List.filterMap_eq_nil_iff.mpr fun p hp => ?_
    obtain ⟨i, hi, hx⟩ := Vector.mem_iff_getElem.mp (Vector.mem_toList_iff.mp (List.of_mem_zip hp).2)
    have hen : p.2.en = false := hx ▸ h.watch ⟨i, hi⟩
    simp [Watch.armed, hen]

theorem noAcquire_calm {s : State} (h : Claims.Calm s) : Claims.noAcquire s := fun _ => ⟨h.marks, h.invals, h.replies, h.reqs⟩

theorem State.acqWait_calm {s : State} (h : Claims.Calm s) : s.acqWait = false := State.acqWait_of_noAcquire (noAcquire_calm h)

/-- R211: the first f tiles are full and not armed, and the next one is not, or there is none. -/
theorem Core.fullRun_eq {k : Core} {idx n f : Nat} (hle : f ≤ n) (hfull : ∀ j, j < f → ((k.tile (idx + j)).full && !(k.tile (idx + j)).armed) = true)
    (hnext : f < n → ((k.tile (idx + f)).full && !(k.tile (idx + f)).armed) = false) : k.fullRun idx n = f := by
  induction n generalizing idx f with
  | zero => exact (Nat.le_zero.mp hle).symm
  | succ n ih =>
    rw [Core.fullRun]
    cases f with
    | zero => rw [if_neg (by simpa using hnext (Nat.succ_pos n))]
    | succ f =>
      have hshift : ∀ j, idx + 1 + j = idx + (j + 1) := fun j => by omega
      have hfirst := hfull 0 (Nat.succ_pos f)
      rw [Nat.add_zero] at hfirst
      rw [if_pos hfirst, ih (Nat.le_of_succ_le_succ hle) (fun j hj => hshift j ▸ hfull (j + 1) (Nat.succ_lt_succ hj)) (fun hlt => hshift f ▸ hnext (Nat.succ_lt_succ hlt)),
        Nat.add_comm]

/-- R210, R211: tiles emptied while no fill waits for one. -/
theorem State.emptyTiles_spec {s : State} (hover : s.core.overrun = []) (idx n : Nat) :
    let t := s.emptyTiles idx n
    (∃ l, t = { s with core := { s.core with tiles := l } }) ∧ (∀ j, j < n → t.core.tile (idx + j) = { s.core.tile (idx + j) with full := false })
      ∧ ∀ j, (j < idx ∨ idx + n ≤ j) → t.core.tile j = s.core.tile j := by
  induction n with
  | zero => exact ⟨⟨s.core.tiles, rfl⟩, fun j hj => absurd hj (Nat.not_lt_zero j), fun _ _ => rfl⟩
  | succ n ih =>
    obtain ⟨⟨l, hrest⟩, hin, hout⟩ := ih
    have hover' : (s.emptyTiles idx n).core.overrun = [] := by rw [hrest]; exact hover
    have hstep : s.emptyTiles idx (n + 1) = (s.emptyTiles idx n).modCore (fun k => k.modTile (n + idx) (fun t => { t with full := false })) := by
      have hsucc : s.emptyTiles idx (n + 1) = ((s.emptyTiles idx n).modCore (fun k => k.modTile (n + idx) (fun t => { t with full := false }))).letIn (s.emptyTiles idx n).core.id (n + idx) Config.overrunMax := by
        rw [State.emptyTiles, List.range_succ, List.map_append, List.foldl_append]
        rfl
      rw [hsucc, State.letIn_none]
      exact (congrArg Core.overrun (State.coreAt_modCore (Core.modTile_id _ _ _))).trans ((Core.modTile_overrun _ _ _).trans hover')
    have hidx : ∀ k : Core, ({ k.tile (n + idx) with full := false } : Tile).idx = n + idx := fun k => k.tile_idx _
    rw [hstep]
    refine ⟨?_, fun j hj => ?_, fun j hj => ?_⟩
    · rw [State.modCore, Core.modTile_eq, hrest]
      exact ⟨_, rfl⟩
    · by_cases hjn : j = n
      · rw [hjn, Nat.add_comm idx n]
        refine (Core.tile_modTile_self (hidx _)).trans ?_
        rw [hout (n + idx) (by omega)]
      · exact (Core.tile_modTile_other (hidx _) (by omega)).trans (hin j (by omega))
    · exact (Core.tile_modTile_other (hidx _) (by omega)).trans (hout j (by omega))

theorem State.actives_eq (s : State) (m : BitVec 3) : s.actives m = Claims.activeBelow s m s.core.st.vl :=
  List.filter_congr fun i hi => by
    rw [State.active, decide_eq_true (List.mem_range.mp hi), Bool.true_and]
    rfl

/-- R207, R211: a TLDF whose checks pass and that nothing holds back takes its step on the tags. -/
theorem tldf_goes {s : State} {d a : BitVec 5} {m : BitVec 3} {n : Nat} (hc : Claims.Clean s [a]) (hq : Claims.Quiet s) (hr : Claims.VReady s [m]) (h : Claims.ownTile s a n) (hvl : 0 < s.core.st.vl) :
    exec (.tldf d a m) s = s.tldfGo d a m (256 * n) (Claims.tilesOf s) (min (Claims.tilesOf s) ((s.core.st.allotSize - (256 * n - s.core.st.allotBase)) / 256)) := by
  have hw : 0 < s.w := Nat.two_pow_pos _
  have hpos : Claims.tilesOf s ≠ 0 := by
    have := Nat.mul_pos hvl hw
    unfold Claims.tilesOf
    omega
  rw [show exec (.tldf d a m) s = execTldf d a m s from rfl, execTldf, State.vrun_ready hr hc rfl, State.withTile, State.tileOff_ownTile h windowXlat_permits_load]
  simp only [Strand.watchers_calm hq.toCalm, State.acqWait_calm hq.toCalm, State.unacked_calm hq.toCalm, State.lockedAt_nil h.1]
  exact if_neg hpos

/-- R211: the strand's VL and its register after TLDF has read tiles from n on. -/
def State.tldfLoaded (s : State) (d : BitVec 5) (m : BitVec 3) (n vl : Nat) : State :=
  (Claims.withSt s { s.core.st with vl := vl }).putV d ((Claims.activeBelow s m vl).map (fun i =>
    ⟨i * s.w, s.w, readNat s.core.pad (256 * n + i * s.w) s.w, s.core.padPsnIn (256 * n + i * s.w) s.w⟩))

/-- Settles O32: the run of full tiles (Core.fullRun_eq) decides between the wait of tileWait_cases and a load that empties them (State.emptyTiles_spec). -/
theorem tldfLoadsFullTiles : Obligations.TldfLoadsFullTiles := by
  intro s d a m n f hc hq hr hk h hover hvl k ready hkpos hfk hready hnext vl
  have hrun : s.core.fullRun n k = f := Core.fullRun_eq hfk hready hnext
  have hexec := tldf_goes (d := d) hc hq hr h hvl
  have hn : 256 * n / 256 = n := Nat.mul_div_cancel_left n (by decide)
  rw [State.tldfGo, hn] at hexec
  change exec (.tldf d a m) s = if s.core.fullRun n k = 0 then _ else _ at hexec
  rw [hrun] at hexec
  refine ⟨fun hf => ?_, fun hf => (tileWait_cases (a := a) hk (hexec.trans (if_pos hf))).1, fun hf => (tileWait_cases (a := a) hk (hexec.trans (if_pos hf))).2⟩
  rw [if_neg (Nat.ne_of_gt hf)] at hexec
  have hvlOf : (if f < Claims.tilesOf s then s.modSt (fun t => { t with vl := f * 256 / s.w }) else s) = Claims.withSt s { s.core.st with vl := vl } := by
    unfold vl
    split <;> rfl
  rw [hvlOf] at hexec
  dsimp only at hexec
  rw [State.actives_eq] at hexec
  obtain ⟨⟨l, hrest⟩, hin, hout⟩ := State.emptyTiles_spec (s := s.tldfLoaded d m n vl) hover n f
  change exec (.tldf d a m) s = .next ((s.tldfLoaded d m n vl).emptyTiles n f).finishQ at hexec
  rw [State.finishQ_eq] at hexec
  refine ⟨_, hexec, ?_, hin, hout, ?_⟩
  · rw [hrest]
    rfl
  · rw [hrest]
    rfl

end Sys2Proof.Machine
end

section
/-!
PROOFS. Elements packed side by side into one number (R58, R213): its digits, and the bits of a byte mask made the same way.
-/
namespace Sys2Proof.Machine

/-- Digits of base B put side by side: digit i is f i where p picks it, else 0. -/
def packed (p : Nat → Bool) (f : Nat → Nat) (B : Nat) : Nat → Nat
  | 0 => 0
  | n + 1 => packed p f B n + if p n then f n * B ^ n else 0

theorem packed_lt {p : Nat → Bool} {f : Nat → Nat} {B : Nat} (hf : ∀ i, f i < B) (n : Nat) : packed p f B n < B ^ n := by
  induction n with
  | zero => exact Nat.one_pos
  | succ n ih =>
    have hmul : f n * B ^ n + B ^ n ≤ B ^ (n + 1) := by
      rw [Nat.pow_succ, Nat.mul_comm _ B, ← Nat.succ_mul]
      exact Nat.mul_le_mul_right _ (hf n)
    rw [packed]
    split <;> omega

theorem packed_digit {p : Nat → Bool} {f : Nat → Nat} {B : Nat} (hf : ∀ i, f i < B) (n i : Nat) : packed p f B n / B ^ i % B = if i < n ∧ p i = true then f i else 0 := by
  have hB : 0 < B := Nat.zero_lt_of_lt (hf 0)
  induction n with
  | zero => simp [packed]
  | succ n ih =>
    have hlt := packed_lt (p := p) hf n
    have hadd : packed p f B (n + 1) = packed p f B n + (if p n then f n else 0) * B ^ n := by
      rw [packed]
      split <;> simp
    rw [hadd]
    rcases Nat.lt_trichotomy i n with h | rfl | h
    · obtain ⟨k, rfl⟩ := Nat.exists_eq_add_of_lt h
      rw [show i + k + 1 = i + (k + 1) by omega, Nat.pow_add, ← Nat.mul_assoc, Nat.mul_right_comm, Nat.add_mul_div_right _ _ (Nat.pow_pos hB), Nat.pow_succ, ← Nat.mul_assoc, Nat.add_mul_mod_self_right,
        ← Nat.add_assoc i k 1, ih]
      simp [show i < i + k + 1 by omega, show i < i + k + 1 + 1 by omega]
    · rw [Nat.add_mul_div_right _ _ (Nat.pow_pos hB), Nat.div_eq_of_lt hlt, Nat.zero_add, Nat.mod_eq_of_lt (by split <;> [exact hf i; exact hB])]
      simp
    · have hle : packed p f B (n + 1) < B ^ i := Nat.lt_of_lt_of_le (packed_lt hf (n + 1)) (Nat.pow_le_pow_right hB h)
      rw [← hadd, Nat.div_eq_of_lt hle, Nat.zero_mod, if_neg (by omega)]

/-- A mask packed from runs of w bits. -/
theorem packed_ones_testBit {p : Nat → Bool} {w : Nat} (hw : 0 < w) (n k : Nat) : (packed p (fun _ => 2 ^ w - 1) (2 ^ w) n).testBit k = decide (k / w < n ∧ p (k / w) = true) := by
  have hone : ∀ _ : Nat, 2 ^ w - 1 < 2 ^ w := fun _ => Nat.sub_lt (Nat.two_pow_pos w) Nat.one_pos
  have hdigit := congrArg (Nat.testBit · (k % w)) (packed_digit (p := p) hone n (k / w))
  have hk : k % w + w * (k / w) = k := Nat.mod_add_div k w
  simp only [← Nat.pow_mul, Nat.testBit_mod_two_pow, Nat.testBit_div_two_pow, hk, decide_eq_true (Nat.mod_lt k hw), Bool.true_and] at hdigit
  rw [hdigit]
  split
  next h => rw [Nat.testBit_two_pow_sub_one, decide_eq_true (Nat.mod_lt k hw), decide_eq_true h]
  next h => rw [Nat.zero_testBit, decide_eq_false h]

/-- R213: the elements that a tile takes from a register whose elements all lie in its first 256 bytes. -/
theorem State.tileImage_first {s : State} {d : BitVec 5} {m : BitVec 3} (hfit : s.core.st.vl * s.w ≤ 256) :
    (s.tileImage d m 0).1 = packed (s.active m) (fun i => s.el d s.w i) (256 ^ s.w) s.core.st.vl
    ∧ (s.tileImage d m 0).2.1 = packed (s.active m) (fun _ => 2 ^ s.w - 1) (2 ^ s.w) s.core.st.vl := by
  have hw : 0 < s.w := Nat.two_pow_pos _
  unfold State.tileImage State.actives
  rw [show s.vl = s.core.st.vl from rfl]
  generalize s.core.st.vl = n at hfit ⊢
  induction n with
  | zero => exact ⟨rfl, rfl⟩
  | succ n ih =>
    have hlt : n * s.w < 256 := by rw [Nat.succ_mul] at hfit; omega
    have hgroup : eg s.w n = 0 := Nat.div_eq_of_lt hlt
    obtain ⟨hdata, hmask⟩ := ih (Nat.le_of_lt hlt)
    rw [List.range_succ, List.filter_append, List.foldl_append, packed, packed, ← hdata, ← hmask]
    by_cases hn : s.active m n = true
    · have hpow : ∀ b : Nat, b ^ (n * s.w % 256) = (b ^ s.w) ^ n := fun b => by rw [Nat.mod_eq_of_lt hlt, Nat.mul_comm, Nat.pow_mul]
      simp [hn, hgroup, hpow]
    · simp [hn]

theorem State.el_lt_bytes (s : State) (v : BitVec 5) (i : Nat) : s.el v s.w i < 256 ^ s.w := by
  have h := s.el_lt v i
  rwa [State.sewBits, Nat.pow_mul] at h

theorem mem_activeBelow {s : State} {m : BitVec 3} {n i : Nat} : i ∈ Claims.activeBelow s m n ↔ i < n ∧ (m == 0 || (s.core.st.masks[m.toNat]).getLsbD i) = true := by
  rw [Claims.activeBelow, List.mem_filter, List.mem_range]

/-- An element below VL is active where its mask bit says so (R8). -/
theorem State.active_iff {s : State} {m : BitVec 3} {i : Nat} : s.active m i = true ↔ i ∈ Claims.activeBelow s m s.core.st.vl := by
  rw [mem_activeBelow, State.active, Bool.and_eq_true, decide_eq_true_iff]
  rfl

/-- R213: each active element stands in the tile's bytes at its place. -/
theorem State.tileImage_el {s : State} {d : BitVec 5} {m : BitVec 3} (hfit : s.core.st.vl * s.w ≤ 256) {i : Nat} (hi : i ∈ Claims.activeBelow s m s.core.st.vl) :
    (BitVec.ofNat 2048 (s.tileImage d m 0).1).toNat / 256 ^ (i * s.w) % 256 ^ s.w = s.el d s.w i := by
  have hlt : packed (s.active m) (fun i => s.el d s.w i) (256 ^ s.w) s.core.st.vl < 2 ^ 2048 := by
    refine Nat.lt_of_lt_of_le (packed_lt (s.el_lt_bytes d) _) ?_
    rw [show (256 : Nat) = 2 ^ 8 from rfl, ← Nat.pow_mul, ← Nat.pow_mul, Nat.mul_comm s.w, Nat.pow_le_pow_iff_right (by decide)]
    omega
  rw [(State.tileImage_first hfit).1, BitVec.toNat_ofNat, Nat.mod_eq_of_lt hlt, Nat.mul_comm i, Nat.pow_mul, packed_digit (s.el_lt_bytes d), if_pos ⟨(mem_activeBelow.mp hi).1, State.active_iff.mpr hi⟩]

/-- R213: the byte mask holds the bytes of the active elements. -/
theorem State.tileImage_mask {s : State} {d : BitVec 5} {m : BitVec 3} (hfit : s.core.st.vl * s.w ≤ 256) {k : Nat} (hk : k < 256) :
    (BitVec.ofNat 256 (s.tileImage d m 0).2.1).getLsbD k = decide (∃ i ∈ Claims.activeBelow s m s.core.st.vl, i * s.w ≤ k ∧ k < (i + 1) * s.w) := by
  have hw : 0 < s.w := Nat.two_pow_pos _
  have hdiv : ∀ i, (i * s.w ≤ k ∧ k < (i + 1) * s.w) ↔ k / s.w = i := fun i => by
    rw [Nat.div_eq_iff hw, Nat.succ_mul, Nat.mul_comm i]
    omega
  rw [BitVec.getLsbD_ofNat, decide_eq_true hk, Bool.true_and, (State.tileImage_first hfit).2, packed_ones_testBit hw]
  refine decide_eq_decide.mpr ?_
  simp only [hdiv, exists_eq_right']
  rw [State.active_iff]
  exact ⟨fun h => h.2, fun h => ⟨(mem_activeBelow.mp h).1, h⟩⟩

end Sys2Proof.Machine
end

section
/-!
PROOFS. TileStoresSend: what TSTF and TCMB send to a tile of a strand of this device (R213, R216), and their fault bit where the address leads nowhere (R199, R205).
-/
namespace Sys2Proof.Machine

/-- R231, R233: with no transfer accepted and no range recorded, an entry is free. -/
theorem State.engineRoom_calm {s : State} (h : Claims.Calm s) {n : Nat} (hn : n ≤ 16) : s.engineRoom n = true := by
  simp [State.engineRoom, h.xfers, h.locks, Config.copiesMax, Config.lockEntries, hn]

theorem State.ownStored_quiet {s : State} (h : Claims.Quiet s) (lo hi : Nat) : s.ownStored lo hi = false := by
  simp [State.ownStored, h.sb, Strand.heldOps_calm h.toCalm]

/-- The transfer of one tile or contribution as it is accepted, with its fault bit where its address leads nowhere (R205, R213, R216). -/
def State.tileXfer (s : State) (kind : Nat) (f : BitVec 3) (bad : Bool) : Xfer := { s.newXfer kind 256 f.toNat (if bad then 1 else 0) with failed := bad }

/-- What an accepted tile store does once its arrival has been given to fillGo. -/
def State.tileSent (s : State) (id : Nat) : Option State → Out
  | none => .next s
  | some u => .next (u.finishIfDone id).finishQ

/-- R213: a TSTF of one tile that nothing holds back. -/
theorem tstf_one {s : State} {d a : BitVec 5} {m f : BitVec 3} {dest : FillAt} (hc : Claims.Clean s [a]) (hr : Claims.VReady s [m]) (hq : Claims.Quiet s) (hone : Claims.tilesOf s = 1)
    (hto : s.fillAt (s.reg a) true = dest) (hheld : dest ≠ .held) (hown : s.ownTiles [dest] = (0, 0)) :
    exec (.tstf d a m f) s = s.tileSent s.nextId ((s.addXfer (s.tileXfer 3 f (dest == .fails))).fillGo dest
      (newArrival false s.nextId 0 (s.tileImage d m 0).2.1 (s.tileImage d m 0).1 (s.tileImage d m 0).2.2 (s.reg a))) := by
  have hn : ceilDiv (s.vl * s.w) 256 = 1 := hone
  have hbase : s.reg a + BitVec.ofNat 64 (256 * 0) = s.reg a := by simp
  have hats : (List.range 1).map (fun t => s.fillAt (s.reg a + BitVec.ofNat 64 (256 * t)) true) = [dest] := by
    rw [show List.range 1 = [0] from rfl, List.map_singleton, hbase, hto]
  have hgo : ([dest].contains .held || !s.engineRoom 1 || s.lockedAt 0 0 true || s.acqWait || s.ownStored 0 0) = false := by
    rw [State.engineRoom_calm hq.toCalm (by decide), State.lockedAt_nil hq.locks, State.acqWait_calm hq.toCalm, State.ownStored_quiet hq]
    simpa using hheld.symm
  have hfb : (List.range 1).foldl (fun (b : BitVec 16) t => if [dest][t]? == some .fails then b ||| (1#16 <<< t) else b) 0#16 = if dest == .fails then 1 else 0 := by
    rw [show List.range 1 = [0] from rfl]
    rfl
  have hfailed : ((if dest == .fails then 1 else 0 : BitVec 16) != 0) = (dest == .fails) := by cases dest == .fails <;> rfl
  rw [show exec (.tstf d a m f) s = execTstf d a m f s from rfl, execTstf, State.vrun_ready hr hc rfl]
  simp only [hn, hats, hown]
  rw [if_neg (by simpa using hgo), hfb, hfailed]
  change s.tileSent s.nextId ((s.addXfer (s.tileXfer 3 f (dest == .fails))).fillGo dest (newArrival false s.nextId 0 _ _ _ (s.reg a + BitVec.ofNat 64 (256 * 0)))) = _
  rw [hbase]
  rfl

/-- R216: a TCMB that nothing holds back. -/
theorem tcmb_one {s : State} {d a b : BitVec 5} {m f : BitVec 3} {dest : FillAt} (hc : Claims.Clean s [a, b]) (hr : Claims.VReady s [m]) (hq : Claims.Quiet s)
    (hto : s.fillAt (s.reg a) false = dest) (hheld : dest ≠ .held) :
    exec (.tcmb d a b m f) s = s.tileSent s.nextId ((s.addXfer (s.tileXfer 4 f (dest == .fails))).fillGo dest
      (newArrival true s.nextId (bits (s.reg b).toNat 3 0) (2 ^ 256 - 1) (s.tileOfReg d).1 (s.tileOfReg d).2 (s.reg a))) := by
  rw [show exec (.tcmb d a b m f) s = execTcmb d a b m f s from rfl, execTcmb, State.vrun_ready hr hc rfl, hto]
  simp only [beq_eq_false_iff_ne.mpr hheld, State.engineRoom_calm hq.toCalm (by decide : 0 ≤ 16), State.acqWait_calm hq.toCalm]
  rfl

/-- The only transfer changed. -/
theorem State.modXfer_only {s : State} (hx : s.xfers = []) (x : Xfer) (f : Xfer → Xfer) : (s.addXfer x).modXfer x.id f = { s with xfers := [f x], nextId := s.nextId + 1 } := by
  simp [State.modXfer, State.addXfer, hx, mapIf]

theorem State.xfer?_only {s : State} (hx : s.xfers = []) (x : Xfer) : (s.addXfer x).xfer? x.id = some x := by
  simp [State.xfer?, State.addXfer, hx]

/-- An arrival sent to a tile of this device, by an accepted transfer that waits for it. -/
theorem State.fillGo_here {s : State} (hx : s.xfers = []) (x : Xfer) (g r o : Nat) {a : Arrival} (ha : a.xfer = x.id) (hdev : a.toDev = 0) :
    let e : Arrival := { a with unit := s.core.id, gang := g, rank := r, off := o, asid := s.asid, seq := s.stamp }
    (s.addXfer x).fillGo (.here g r o) a = some { s with xfers := [{ x with waiting := x.waiting + 1 }], nextId := s.nextId + 1, fills := if a.combine then s.fills else s.fills ++ [e], combines := if a.combine then s.combines ++ [e] else s.combines } := by
  intro e
  have hmod := State.modXfer_only hx x (fun x => { x with waiting := x.waiting + 1 })
  cases hk : a.combine <;> simp only [State.fillGo, ha, hmod, State.sendArrival, e, hk, hdev, bne_self_eq_false, Bool.false_eq_true, if_true, if_false] <;> rfl

/-- R205, R213, R216: the arrival is on its way to a tile of this device, its transfer waits for it, and the strand goes on. -/
theorem tileSent_here {s : State} (hx : s.xfers = []) (kind : Nat) (f : BitVec 3) (g r o : Nat) {a : Arrival} (ha : a.xfer = s.nextId) (hdev : a.toDev = 0) :
    let e : Arrival := { a with unit := s.core.id, gang := g, rank := r, off := o, asid := s.asid, seq := s.stamp }
    s.tileSent s.nextId ((s.addXfer (s.tileXfer kind f false)).fillGo (.here g r o) a)
      = .next (Claims.withSt { s with xfers := [{ s.tileXfer kind f false with waiting := 1 }], nextId := s.nextId + 1,
                                      fills := if a.combine then s.fills else s.fills ++ [e], combines := if a.combine then s.combines ++ [e] else s.combines } (Claims.doneQ s.core.st)) := by
  intro e
  rw [State.fillGo_here hx _ g r o (ha.trans rfl) hdev, State.tileSent, State.finishQ_eq]
  simp [State.finishIfDone, State.xfer?, State.tileXfer, State.newXfer]
  rfl

/-- R231, R233: the only transfer, of the strand in the slot, completes with its fault mask and no token. -/
theorem State.xferFinish_only {s : State} (hl : s.core.locks = []) (hslot : Claims.slotIs s s.core.st.gang s.core.st.rank) {x : Xfer} (hx : s.xfers = [x]) (hk : x.kind ≠ 5) (hh : x.handle = none)
    (hg : x.gang = s.core.st.gang) (hr : x.rank = s.core.st.rank) : s.xferFinish x = { s with xfers := [], core := (s.putM (BitVec.ofNat 3 x.mf) x.bits).core } := by
  have hunlock : s.unlock x true = s := by
    rw [State.unlock, hg, hr, State.strand?_slot hslot]
    refine (State.modCoreAt_self rfl rfl).trans ?_
    change ({ s with core := { s.core with locks := s.core.locks.filter _ } } : State) = s
    rw [hl, List.filter_nil, ← hl]
  have hpkts : mapIf (fun p => decide (x.kind = 5) && p.id == x.packet) (fun p => { p with phase := 2 }) s.pkts = s.pkts := mapIf_eq_self fun p _ => by simp [hk]
  simp only [State.xferFinish, hh, Option.isNone_none, hunlock, hg, hr, State.modStrand_slot hslot, State.modSt_xfers, State.modSt_pkts, hpkts, hx]
  simp
  rfl

/-- R199, R205: the strand goes on, the fault mask has bit 0 set, and no transfer is left. -/
theorem tileSent_fails {s : State} (hx : s.xfers = []) (hl : s.core.locks = []) (hslot : Claims.slotIs s s.core.st.gang s.core.st.rank) {kind : Nat} (hkind : kind = 3 ∨ kind = 4) (f : BitVec 3) (a : Arrival) :
    ∃ u, s.tileSent s.nextId ((s.addXfer (s.tileXfer kind f true)).fillGo .fails a) = .next u ∧ u.xfers = [] ∧ u.fills = s.fills ∧ u.combines = s.combines ∧ u.core.st = Claims.doneQ (s.putM f [(0, true)]).core.st := by
  let x := s.tileXfer kind f true
  let v : State := { s.addXfer x with xfers := [], core := (s.putM (BitVec.ofNat 3 x.mf) x.bits).core }
  have hdone : (s.addXfer x).finishIfDone s.nextId = v := by
    rw [State.finishIfDone, show s.nextId = x.id from rfl, State.xfer?_only hx]
    refine State.xferFinish_only (s := s.addXfer x) (x := x) hl hslot ?_ ?_ rfl rfl rfl
    · simp [State.addXfer, hx]
    · rcases hkind with h | h <;> simp [x, State.tileXfer, State.newXfer, h]
  have hbits : x.bits = [(0, true)] := by
    rcases hkind with h | h <;> subst h <;> simp [Xfer.bits, x, State.tileXfer, State.newXfer]
  have hf : BitVec.ofNat 3 x.mf = f := (BitVec.ofNat_toNat ..).trans f.setWidth_eq
  refine ⟨v.finishQ, ?_, ?_⟩
  · rw [← hdone]
    rfl
  · rw [State.finishQ_eq]
    refine ⟨rfl, rfl, rfl, ?_⟩
    rw [← hbits, ← hf]
    rfl

theorem State.ownTiles_other {s : State} {g r o : Nat} (h : r ≠ s.core.st.rank) : s.ownTiles [.here g r o] = (0, 0) := by
  simp [State.ownTiles, h]

theorem Claims.fits_of_tilesOf_one {s : State} (h : Claims.tilesOf s = 1) : s.core.st.vl * s.w ≤ 256 := by
  have : (s.core.st.vl * s.w + 255) / 256 = 1 := h
  omega

theorem vGet_lt (img : VImg) (o n : Nat) : vGet img o n < 2 ^ (8 * n) := Nat.mod_lt _ (Nat.two_pow_pos _)

/-- R213: a one-tile TSTF to another rank of this device. -/
theorem tstf_sends {s : State} {d a : BitVec 5} {m f : BitVec 3} (hc : Claims.Clean s [a]) (hr : Claims.VReady s [m]) (hq : Claims.Quiet s) {g r o : Nat}
    (hone : Claims.tilesOf s = 1) (hto : s.fillAt (s.reg a) true = .here g r o) (hother : r ≠ s.core.st.rank) :
    ∃ t x e, exec (.tstf d a m f) s = .next t ∧ t.core.st = Claims.doneQ s.core.st ∧ t.xfers = [x] ∧ Claims.isXfer s x 3 256 f ∧ x.waiting = 1
      ∧ t.fills = s.fills ++ [e] ∧ e.gang = g ∧ e.rank = r ∧ e.off = o ∧ e.last = true ∧ e.combine = false ∧ e.xfer = x.id ∧ e.slot = 0 ∧ e.unit = s.core.id ∧ e.rest = []
      ∧ (∀ i ∈ Claims.activeBelow s m s.core.st.vl, e.data.toNat / 256 ^ (i * s.w) % 256 ^ s.w = s.el d s.w i)
      ∧ (∀ k, k < 256 → e.mask.getLsbD k = decide (∃ i ∈ Claims.activeBelow s m s.core.st.vl, i * s.w ≤ k ∧ k < (i + 1) * s.w))
      ∧ t = { s with core := t.core, xfers := t.xfers, fills := t.fills, nextId := s.nextId + 1 } ∧ t.core = { s.core with st := t.core.st } := by
  have hfit := Claims.fits_of_tilesOf_one hone
  rw [tstf_one hc hr hq hone hto (by simp) (State.ownTiles_other hother)]
  exact ⟨_, _, _, tileSent_here hq.xfers 3 f g r o rfl rfl, rfl, rfl, ⟨rfl, rfl, rfl, rfl, rfl, rfl, rfl, rfl, rfl, rfl⟩, rfl, rfl, rfl, rfl, rfl, rfl, rfl, rfl, rfl, rfl, rfl,
    fun i hi => State.tileImage_el hfit hi, fun k hk => State.tileImage_mask hfit hk, rfl, rfl⟩

/-- R216: a TCMB to a rank of this device. -/
theorem tcmb_sends {s : State} {d a b : BitVec 5} {m f : BitVec 3} (hc : Claims.Clean s [a, b]) (hr : Claims.VReady s [m]) (hq : Claims.Quiet s) {g r o : Nat}
    (hto : s.fillAt (s.reg a) false = .here g r o) :
    ∃ t x e, exec (.tcmb d a b m f) s = .next t ∧ t.core.st = Claims.doneQ s.core.st ∧ t.xfers = [x] ∧ Claims.isXfer s x 4 256 f ∧ x.waiting = 1
      ∧ t.combines = s.combines ++ [e] ∧ e.gang = g ∧ e.rank = r ∧ e.off = o ∧ e.combine = true ∧ e.xfer = x.id ∧ e.slot = (s.reg b).toNat % 16 ∧ e.unit = s.core.id
      ∧ e.absent = false ∧ e.data.toNat = vGet (s.vimg d.toNat) 0 256
      ∧ t = { s with core := t.core, xfers := t.xfers, combines := t.combines, nextId := s.nextId + 1 } ∧ t.core = { s.core with st := t.core.st } := by
  rw [tcmb_one hc hr hq hto (by simp)]
  refine ⟨_, _, _, tileSent_here hq.xfers 4 f g r o rfl rfl, rfl, rfl, ⟨rfl, rfl, rfl, rfl, rfl, rfl, rfl, rfl, rfl, rfl⟩, rfl, rfl, rfl, rfl, rfl, rfl, rfl, ?_, rfl, rfl, ?_, rfl, rfl⟩
  · simp [newArrival, bits]
  · exact (BitVec.toNat_ofNat ..).trans (Nat.mod_eq_of_lt (vGet_lt _ 0 256))

/-- Settles O33: nothing holds the tile back, so the instruction is its one arrival given to a tile of this device, or its transfer failed and complete. -/
theorem tileStoresSend : Obligations.TileStoresSend := by
  intro s d a b m f hc hr hq _
  have hca : Claims.Clean s [a] := Claims.Clean.mono hc (by simp)
  refine ⟨fun g r o hone hto hother => tstf_sends hca hr hq hone hto hother, fun g r o hto => tcmb_sends hc hr hq hto, fun g hg hcore hrun hrest => ?_⟩
  have hslot : Claims.slotIs s s.core.st.gang s.core.st.rank := ⟨⟨g, hg, hcore⟩, rfl, rfl, by simp [hrun], by simp [hrest]⟩
  refine ⟨fun hone hto => ?_, fun hto => ?_⟩
  · beta_reduce
    rw [tstf_one hca hr hq hone hto (by simp) rfl]
    exact tileSent_fails hq.xfers hq.locks hslot (.inl rfl) f _
  · beta_reduce
    rw [tcmb_one hc hr hq hto (by simp)]
    exact tileSent_fails hq.xfers hq.locks hslot (.inr rfl) f _

end Sys2Proof.Machine
end

section
/-!
PROOFS. VectorStoresWrite and ScatterAccumulates fail in device memory: their places are asked to be distinct, not apart. A walk gives only frames of whole pages (leafXlat), but the statements do not ask it of the translations that the TLB holds: two frames 4 bytes apart give two aligned elements of 8 bytes distinct places that overlap, and no memory then holds both.
-/
namespace Sys2Proof.Machine

/-- A number read from memory, in two parts. -/
theorem readNat_append (m : Memory) (a j k : Nat) : readNat m a (j + k) = readNat m a j + 256 ^ j * readNat m (a + j) k := by
  induction j generalizing a with
  | zero => simp [readNat]
  | succ j ih =>
    rw [Nat.succ_add, readNat, readNat, ih, Nat.pow_succ, Nat.add_right_comm a 1 j]
    ring_nf

/-- Eight zero bytes from 0 leave none for the low half of a number of eight bytes from 4. -/
theorem overlap_reads {m : Memory} (h : readNat m 0 8 = 0) : readNat m 4 8 ≠ 2 ^ 64 - 1 := by
  have low : readNat m 0 8 = readNat m 0 4 + 256 ^ 4 * readNat m 4 4 := readNat_append m 0 4 4
  have high : readNat m 4 8 = readNat m 4 4 + 256 ^ 4 * readNat m 8 4 := readNat_append m 4 4 4
  omega

/-- Page number `page` of 64 KiB with its bytes from `frame` on. -/
def crossedPage (page frame : Nat) : Xlat :=
  { asid := 0, page := page, big := false, frame := frame, dev := 0, capacity := false, key := 0, u := true, x := false, w := true, r := true }

/-- Its VL is 2 and its elements have 8 bytes: v0 holds 0 and all ones, v1 the byte offsets 0 and 65536. -/
def crossedStrand : Strand :=
  { Strand.empty with
    status := .running, kvtype := 3, vl := 2
    v := (Strand.empty.v.set 0 (BitVec.ofNat 32768 ((2 ^ 64 - 1) * 2 ^ 64))).set 1 (BitVec.ofNat 32768 (65536 * 2 ^ 64)) }

/-- The counterexample: pages 0 and 1 begin at bytes 0 and 4 of memory. -/
def crossed : State :=
  { State.reset with hbmQ := 4, core := { Core.fresh 0 with phase := .run, st := crossedStrand, tlb := [crossedPage 0 0, crossedPage 1 4] } }

/-- Where the two elements lie. -/
def crossedAt (i : Nat) : Nat := 4 * i

theorem crossed_els : Claims.els crossed 0 = [0, 1] := by decide +kernel

theorem crossed_ready : Claims.VReady crossed [0] where
  legal := by decide +kernel
  typed := by unfold Claims.kSound; decide +kernel
  sound := fun m hm => .inl (List.mem_singleton.mp hm)
  some_ := fun m hm => .inl (List.mem_singleton.mp hm)

theorem crossed_quiet : Claims.Quiet crossed := ⟨by constructor <;> decide +kernel, rfl⟩

theorem crossed_clean : Claims.Clean crossed [0] := fun _ hr => .inl (List.mem_singleton.mp hr)

theorem crossed_index : Claims.idxReady crossed 1 none 0 := by
  unfold Claims.idxReady
  decide +kernel

theorem crossed_inMem : Claims.inMem crossed (Claims.indexVa crossed 0 1) crossedAt crossed.w (Claims.els crossed 0) false true := by
  rw [crossed_els]
  intro i hi
  refine ⟨0, crossedPage i (4 * i), ?_⟩
  unfold Claims.inLine Claims.mayUse
  revert i
  decide +kernel

theorem crossed_distinct : ((Claims.els crossed 0).map crossedAt).Nodup := by decide +kernel

/-- No memory holds element 0 at its place and element 1 at its own. -/
theorem crossed_not_scattered {m : Memory} {v : Nat → Nat} (h0 : v 0 = 0) (h1 : v 1 = 2 ^ 64 - 1) : ¬ Claims.scattered crossed.mem m (Claims.els crossed 0) crossedAt crossed.w v := by
  rintro ⟨hread, -⟩
  rw [crossed_els] at hread
  exact overlap_reads ((hread 0 (by simp)).trans h0) ((hread 1 (by simp)).trans h1)

/-- Refutes O25: VSTX of two elements whose places overlap cannot leave both in memory. -/
theorem not_vectorStoresWrite : ¬ Obligations.VectorStoresWrite := by
  intro h
  obtain ⟨-, inMemory⟩ := h crossed 0 0 (.vstx 0 0 1 0 0) _ (.vstx 0 1 0 crossed_clean crossed_index) crossed_ready crossed_quiet rfl rfl rfl (by decide +kernel)
  obtain ⟨t, -, -, -, hscattered⟩ := inMemory crossedAt crossed_inMem crossed_distinct (by decide +kernel) (fun ⟨_, _, _, hi⟩ => nomatch hi)
  exact crossed_not_scattered (by decide +kernel) (by decide +kernel) hscattered

/-- Refutes O26: VSCA's sums at two places that overlap cannot both stand in memory. -/
theorem not_scatterAccumulates : ¬ Obligations.ScatterAccumulates := by
  intro h
  obtain ⟨-, inMemory⟩ := h crossed 0 0 1 0 0 crossed_ready crossed_quiet crossed_clean rfl rfl crossed_index (by decide) (by decide +kernel) (by decide +kernel)
  obtain ⟨t, -, -, -, hscattered⟩ := inMemory crossedAt crossed_inMem crossed_distinct (by unfold Claims.soundAt; decide +kernel)
  exact crossed_not_scattered (by decide +kernel) (by decide +kernel) hscattered

end Sys2Proof.Machine
end

section
/-!
PROOFS. PeerFormsFault fails for a VSTXP that resumes at a later group (R262, R391): the elements below that group count as written by it, and a granule that they cover whole loses its poison, although every element from that group on fails.
-/
namespace Sys2Proof.Machine

/-- A task of one core with one strand and 4 KiB of scratchpad. -/
def peerTask : Task := { smallTask with spad := 4096 }

/-- Elements 0 to 7 of VSTXP lie at bytes 0 to 63 of the strand's own scratchpad, elements 8 to 31 at byte 0, and element 32, the only one of group 1, at no peer address; an ERET named group 1. -/
def peerStrand : Strand :=
  { Strand.empty with
    status := .running, gang := 1, allotSize := 4096, kvtype := 3, vl := 33, resFirst := some 1
    v := (Strand.empty.v.set 1 (BitVec.ofNat 32768 ((List.range 8).foldl (fun x i => x + 8 * i * 2 ^ (64 * i)) 0))).set 2 (BitVec.ofNat 32768 (2 ^ 63)) }

/-- The counterexample: granule 0 of the scratchpad is poisoned. -/
def peerResumed : State :=
  { State.reset with
    gangs := [{ Gang.fresh 1 0 peerTask with state := .placed, cores := [0] }]
    core := { Core.fresh 0 with phase := .run, st := peerStrand, padPsn := [0] } }

/-- The poisoned granules of the scratchpad of the core in turn where the instruction went on. -/
def poisonLeft : Out → Option (List Nat)
  | .next t => some t.core.padPsn
  | _ => none

theorem peerResumed_els : Claims.els peerResumed 0 = [32] := by decide +kernel

theorem peerResumed_ready : Claims.VReady peerResumed [0] where
  legal := by decide +kernel
  typed := by unfold Claims.kSound; decide +kernel
  sound := fun _ hm => .inl (List.mem_singleton.mp hm)
  some_ := fun _ hm => .inl (List.mem_singleton.mp hm)

theorem peerResumed_quiet : Claims.Quiet peerResumed := ⟨by constructor <;> decide +kernel, rfl⟩

theorem peerResumed_clean : Claims.Clean peerResumed [0] := fun _ hr => .inl (List.mem_singleton.mp hr)

theorem peerResumed_index : Claims.idxReady peerResumed 1 (some 3) 0 := by
  unfold Claims.idxReady
  decide +kernel

theorem peerResumed_fails : ∀ i ∈ Claims.els peerResumed 0, peerResumed.peerAt (peerResumed.reg 0 + peerResumed.idxVal 1 i) peerResumed.w peerResumed.w = .fails := by decide +kernel

/-- The resumed VSTXP takes the poison of granule 0 away. -/
theorem peerResumed_clears : poisonLeft (exec (.vstxp 3 0 1 0 0 0) peerResumed) = some [] := by decide +kernel

/-- Refutes O27: no element from the resumed group on reaches a scratchpad, yet granule 0 is not left as it was. -/
theorem not_peerFormsFault : ¬ Obligations.PeerFormsFault := by
  intro h
  obtain ⟨allFail, -⟩ := h peerResumed 3 0 1 0 0 0 peerResumed_ready peerResumed_quiet peerResumed_clean rfl rfl peerResumed_index
  obtain ⟨-, store⟩ := allFail peerResumed_fails
  have keeps := store (by decide +kernel)
  have left : poisonLeft (exec (.vstxp 3 0 1 0 0 0) peerResumed) = some [0] := by rw [keeps]; decide +kernel
  rw [peerResumed_clears] at left
  exact absurd left (by decide)

end Sys2Proof.Machine
end

section
/-!
PROOFS. TileArrivals: a whole tile written (R79, R214), what an arrival leaves at the tile tag unit, and the events FILL, FILL_RETRY, COMBINE and FILL_END.
-/
namespace Sys2Proof.Machine

/-! ## A whole tile written -/

/-- The first c granules of data from granule b of a memory on. -/
def putGranules (m : Memory) (b data c : Nat) : Memory :=
  (List.range c).foldl (fun m g => writeNat m (64 * (b + g)) 64 (data / 2 ^ (512 * g) % 2 ^ 512)) m

theorem putGranules_succ (m : Memory) (b data c : Nat) : putGranules m b data (c + 1) = writeNat (putGranules m b data c) (64 * (b + c)) 64 (data / 2 ^ (512 * c) % 2 ^ 512) := by
  rw [putGranules, List.range_succ, List.foldl_append]
  rfl

theorem readNat_putGranules (m : Memory) (b data c : Nat) : readNat (putGranules m b data c) (64 * b) (64 * c) = data % 256 ^ (64 * c) := by
  have hpow : ∀ n, (256 : Nat) ^ (64 * n) = 2 ^ (512 * n) := fun n => by rw [show (256 : Nat) = 2 ^ 8 from rfl, ← Nat.pow_mul, ← Nat.mul_assoc]
  rw [hpow]
  induction c with
  | zero => simp [readNat, Nat.mod_one]
  | succ c ih =>
    rw [putGranules_succ, Nat.mul_succ, readNat_append, readNat_writeNat_out _ _ _ _ _ _ (by omega), ih, ← Nat.mul_add, readNat_writeNat, hpow, show (256 : Nat) ^ 64 = 2 ^ 512 from hpow 1,
      Nat.mod_mod, Nat.mul_succ, Nat.pow_add, Nat.mod_mul]

theorem readByte_putGranules_out (m : Memory) (b data c : Nat) {k : Nat} (h : k < 64 * b ∨ 64 * b + 64 * c ≤ k) : readByte (putGranules m b data c) k = readByte m k := by
  induction c with
  | zero => rfl
  | succ c ih => rw [putGranules_succ, readByte_writeNat_out _ _ _ _ _ (by omega), ih (by omega)]

theorem Core.padGran_whole (k : Core) (g v : Nat) (psn : Bool) : (k.padGran g (2 ^ 64 - 1) v psn).pad = writeNat k.pad (64 * g) 64 v := rfl

/-- R79: a tile written under a full mask. -/
theorem Core.tileWrite_pad (k : Core) (n data psn : Nat) : (k.tileWrite n (2 ^ 256 - 1) data psn).pad = putGranules k.pad (4 * n) data 4 := by
  have hmask : ∀ g ∈ List.range 4, (2 ^ 256 - 1) / 2 ^ (64 * g) % 2 ^ 64 = 2 ^ 64 - 1 := by decide
  unfold Core.tileWrite putGranules
  revert hmask
  generalize List.range 4 = l
  intro hmask
  induction l generalizing k with
  | nil => rfl
  | cons g r ih =>
    have hg := hmask g (List.mem_cons_self ..)
    rw [List.foldl_cons, List.foldl_cons, ih _ (fun x hx => hmask x (List.mem_cons_of_mem _ hx))]
    simp only [hg]
    rfl

/-- R79: nothing of a core changes but the scratchpad's bytes and their poison. -/
theorem Core.tileWrite_eq (k : Core) (n mask data psn : Nat) : k.tileWrite n mask data psn = { k with pad := (k.tileWrite n mask data psn).pad, padPsn := (k.tileWrite n mask data psn).padPsn } := by
  unfold Core.tileWrite
  generalize List.range 4 = l
  induction l generalizing k with
  | nil => rfl
  | cons g r ih =>
    rw [List.foldl_cons]
    refine (ih _).trans ?_
    dsimp only
    split <;> rfl

@[simp] theorem Core.tileWrite_id (k : Core) (n mask data psn : Nat) : (k.tileWrite n mask data psn).id = k.id := by rw [k.tileWrite_eq]
theorem Core.tileWrite_tile (k : Core) (n mask data psn m : Nat) : (k.tileWrite n mask data psn).tile m = k.tile m := Core.tile_congr (by rw [k.tileWrite_eq]) m

/-! ## What an arrival leaves (R214, R216) -/

/-- What the tile tag unit of the core in turn works on: its scratchpad's bytes, its tiles, and the arrivals on their way. -/
structure TagSide where
  pad : Memory
  tiles : List Tile
  fills : List Arrival
  combines : List Arrival
  retries : List Arrival

def State.tagSide (s : State) : TagSide := ⟨s.core.pad, s.core.tiles, s.fills, s.combines, s.retries⟩

theorem State.tagSide_xfers (s : State) (xs : List Xfer) : State.tagSide { s with xfers := xs } = s.tagSide := rfl

/-- The tag unit of a state whose core in turn has changed. -/
theorem State.modCoreAt_tagSide {s : State} {f : Core → Core} (hid : (f s.core).id = s.core.id) :
    (s.modCoreAt s.core.id f).tagSide = { s.tagSide with pad := (f s.core).pad, tiles := (f s.core).tiles } := by
  rw [State.modCoreAt_self rfl hid]
  rfl

theorem State.toToken_tagSide {s : State} {m : TokMsg} (hm : m.kind = 2) (asid : Nat) : (s.toToken m asid).tagSide = s.tagSide := by
  unfold State.toToken
  simp only [hm]
  exact ite_keeps rfl (ite_keeps rfl rfl)

theorem State.tileArrival_tagSide (s : State) (c : Nat) (g : Tile) : (s.tileArrival c g).tagSide = s.tagSide := by
  unfold State.tileArrival
  split
  · exact State.toToken_tagSide rfl _
  · rfl

/-- R210: the waiters and the bound token learn of a full tile, whose tag unit is as it was. -/
theorem State.becameFull_tagSide {s : State} {c : Nat} (hc : s.core.id = c) (n : Nat) : (s.becameFull c n).tagSide = s.tagSide := by
  subst hc
  rw [State.becameFull, State.tileArrival_tagSide, State.wakeTile, State.wakeIf, State.modCoreAt_tagSide rfl]
  rfl

/-- The sender's answer to an arrival that has landed changes its transfer alone (R361). -/
theorem State.fillAnswer_landed (s : State) (a : Arrival) (x : Nat) : ∃ xs, s.fillAnswer a 0 x = { s with xfers := xs } := by
  unfold State.fillAnswer
  extract_lets others
  split
  · exact ⟨_, rfl⟩
  · repeat' split
    all_goals exact ⟨_, rfl⟩

/-- R361: a whole arrival of this device that has landed is answered at its transfer. -/
theorem State.arrivalDone_landed {s : State} {a : Arrival} (hto : a.toDev = 0) (hfrom : a.fromDev = 0) (halso : a.also = []) (hrest : a.rest = []) : ∃ xs, s.arrivalDone a 0 = { s with xfers := xs } := by
  obtain ⟨xs, hx⟩ := s.fillAnswer_landed a a.xfer
  refine ⟨xs, ?_⟩
  rw [← hx]
  simp [State.arrivalDone, hfrom, halso, State.nextRun, hrest, State.endRun, hto]

/-- A core with a whole-tile fill in its tile n, full and owned by no fill (R79, R214). -/
def Core.fillTile (k : Core) (n : Nat) (a : Arrival) : Core :=
  (k.tileWrite n a.mask.toNat a.data.toNat a.psn.toNat).modTile n (fun t => { t with full := true, owner := none })

@[simp] theorem Core.fillTile_id (k : Core) (n : Nat) (a : Arrival) : (k.fillTile n a).id = k.id := by simp [Core.fillTile]

theorem Core.fillTile_tile (k : Core) (n : Nat) (a : Arrival) : (k.fillTile n a).tile n = { k.tile n with full := true, owner := none } := by
  rw [Core.fillTile, Core.tile_modTile_self (by simp), k.tileWrite_tile]

theorem Core.fillTile_pad (k : Core) (n : Nat) {a : Arrival} (hmask : a.mask = BitVec.allOnes 256) : (k.fillTile n a).pad = putGranules k.pad (4 * n) a.data.toNat 4 := by
  rw [Core.fillTile, Core.modTile_pad, hmask, BitVec.toNat_allOnes, Core.tileWrite_pad]

/-- R214: the tag unit of the core in turn after the last beat of a fill of this device. -/
theorem State.landFill_tagSide {s : State} {a : Arrival} {n : Nat} (hto : a.toDev = 0) (hfrom : a.fromDev = 0) (halso : a.also = []) (hrest : a.rest = []) (hlast : a.last = true) :
    (s.landFill s.core.id n a).tagSide = { s.tagSide with pad := (s.core.fillTile n a).pad, tiles := (s.core.fillTile n a).tiles } := by
  have hland : s.landFill s.core.id n a = ((s.modCore (fun k => k.fillTile n a)).becameFull s.core.id n).arrivalDone a 0 := by
    simp only [State.landFill, hlast, if_true]
    rw [State.modCoreAt_self rfl (by simp)]
    simp only [Core.fillTile]
  obtain ⟨xs, hx⟩ := State.arrivalDone_landed (s := (s.modCore (fun k => k.fillTile n a)).becameFull s.core.id n) hto hfrom halso hrest
  rw [hland, hx, State.tagSide_xfers, State.becameFull_tagSide (by simp)]
  rfl

/-- A core whose tile n holds a contribution more and waits for one less (R216). -/
def Core.holdSlot (k : Core) (n : Nat) (a : Arrival) : Core :=
  k.modTile n (fun t => { t with slots := t.slots ++ [⟨a.slot, a.absent, a.data, a.psn⟩], cnt := t.cnt - 1 })

theorem Core.holdSlot_tile (k : Core) (n : Nat) (a : Arrival) :
    (k.holdSlot n a).tile n = { k.tile n with slots := (k.tile n).slots ++ [⟨a.slot, a.absent, a.data, a.psn⟩], cnt := (k.tile n).cnt - 1 } :=
  Core.tile_modTile_self (by simp)

/-- R216: a contribution that its armed tile holds, in the sender's empty slot. -/
theorem State.contribute_held {s : State} {a : Arrival} {n : Nat} (hto : a.toDev = 0) (hfrom : a.fromDev = 0) (halso : a.also = []) (hrest : a.rest = [])
    (harmed : (s.core.tile n).armed = true) (hslot : a.slot < (s.core.tile n).cnt0) (hfree : ∀ x ∈ (s.core.tile n).slots, x.k ≠ a.slot) :
    ∃ xs, s.contribute s.core.id n a = some (({ s.modCore (fun k => k.holdSlot n a) with xfers := xs }).tileCombineNow s.core.id n) := by
  obtain ⟨xs, hx⟩ := State.arrivalDone_landed (s := s.modCore (fun k => k.holdSlot n a)) hto hfrom halso hrest
  refine ⟨xs, ?_⟩
  have hbusy : (decide ((s.core.tile n).cnt0 ≤ a.slot) || (s.core.tile n).slots.any (fun x => x.k == a.slot)) = false := by
    simpa using ⟨hslot, hfree⟩
  rw [← hx, State.contribute, State.coreAt_self]
  dsimp only
  rw [harmed, if_neg (by simp), hbusy, if_neg (by simp), State.modCoreAt_self rfl (Core.modTile_id ..)]
  rfl

/-- R217: the combine waits while contributions are missing. -/
theorem State.tileCombineNow_wait {s : State} {c n : Nat} (hc : s.core.id = c) (h : (s.core.tile n).cnt ≠ 0) : s.tileCombineNow c n = s := by
  subst hc
  rw [State.tileCombineNow, State.coreAt_self]
  exact if_pos (by simp [h])

/-- A core whose tile n has been combined into r (R217). -/
def Core.combineTile (k : Core) (n r p : Nat) (absent : BitVec 16) : Core :=
  (k.tileWrite n (2 ^ 256 - 1) r p).modTile n (fun t => { t with armed := false, op := 0, cnt := 0, cnt0 := 0, slots := [], absent := absent, full := true })

theorem Core.combineTile_tile (k : Core) (n r p : Nat) (absent : BitVec 16) :
    (k.combineTile n r p absent).tile n = { k.tile n with armed := false, op := 0, cnt := 0, cnt0 := 0, slots := [], absent := absent, full := true } := by
  rw [Core.combineTile, Core.tile_modTile_self (by simp), k.tileWrite_tile]

/-- R217: with the last contribution the tile is combined. -/
theorem State.tileCombineNow_last {s : State} {c n : Nat} (hc : s.core.id = c) (harmed : (s.core.tile n).armed = true) (h : (s.core.tile n).cnt = 0) :
    ∃ r p absent, (s.tileCombineNow c n).tagSide = { s.tagSide with pad := (s.core.combineTile n r p absent).pad, tiles := (s.core.combineTile n r p absent).tiles } := by
  subst hc
  rw [State.tileCombineNow, State.coreAt_self]
  dsimp only
  rw [if_neg (by simp [harmed, h]), State.modCoreAt_self rfl (by simp), State.becameFull_tagSide (by simp)]
  exact ⟨_, _, _, rfl⟩

/-! ## The events -/

theorem State.strand?_of_targetOf {s : State} {a : Arrival} {c n : Nat} (h : s.targetOf a = .tile c n) : (s.strand? a.gang a.rank).map (·.1) = some c := by
  unfold State.targetOf at h
  dsimp only at h
  repeat' split at h
  all_goals simp_all

/-- R14: the only fill or contribution on its way, which finds its tile, may land. -/
theorem State.landable_only {s : State} {l : List Arrival} {a : Arrival} {n : Nat} (hl : l = [a]) (h : s.targetOf a = .tile s.core.id n) (hfirst : s.foremost a.unit s.core.id a.seq = true) : s.landable l = [a] := by
  subst hl
  simp [State.landable, h, State.strand?_of_targetOf h, hfirst]

/-- A fill that its tile on the core in turn takes. -/
theorem State.arriveAt_fill {s : State} {a : Arrival} {n : Nat} (hcomb : a.combine = false) (hto : s.targetOf a = .tile s.core.id n) (hadmits : (s.core.tile n).admits a = true) :
    s.arriveAt a = some (s.landFill s.core.id n a) := by
  rw [State.arriveAt, hto]
  dsimp only
  rw [hcomb, if_neg (by simp), State.coreAt_self, if_pos hadmits]

theorem State.arriveAt_combine {s t : State} {a : Arrival} {n : Nat} (hcomb : a.combine = true) (hto : s.targetOf a = .tile s.core.id n) (h : s.contribute s.core.id n a = some t) : s.arriveAt a = some t := by
  rw [State.arriveAt, hto]
  dsimp only
  rw [hcomb, if_pos rfl, h]

/-- FILL of the only fill, at a tile of the core in turn that takes it. -/
theorem exec_fill {s : State} {a : Arrival} {n : Nat} (hpick : s.pick = 0) (hfills : s.fills = [a]) (hcomb : a.combine = false) (hto : s.targetOf a = .tile s.core.id n)
    (hfirst : s.foremost a.unit s.core.id a.seq = true) (hadmits : (s.core.tile n).admits a = true) : exec .fill s = .next (State.landFill { s with fills := [] } s.core.id n a) := by
  have harrive : State.arriveAt { s with fills := s.fills.erase a } a = some (State.landFill { s with fills := [] } s.core.id n a) := by
    rw [hfills, List.erase_cons_head]
    exact State.arriveAt_fill hcomb hto hadmits
  rw [show exec .fill s = s.event s.evFill from rfl, State.event, State.evFill, State.landable_only hfills hto hfirst, nth_head (f := fun b => State.arriveAt { s with fills := s.fills.erase b } b) hpick harrive]
  rfl

/-- COMBINE of the only contribution, at a tile of the core in turn that holds it. -/
theorem exec_combine {s t : State} {a : Arrival} {n : Nat} (hpick : s.pick = 0) (hcombines : s.combines = [a]) (hcomb : a.combine = true) (hto : s.targetOf a = .tile s.core.id n)
    (hfirst : s.foremost a.unit s.core.id a.seq = true) (h : State.contribute { s with combines := [] } s.core.id n a = some t) : exec .combine s = .next t := by
  have harrive : State.arriveAt { s with combines := s.combines.erase a } a = some t := by
    rw [hcombines, List.erase_cons_head]
    exact State.arriveAt_combine hcomb hto h
  rw [show exec .combine s = s.event s.evCombine from rfl, State.event, State.evCombine, State.landable_only hcombines hto hfirst, nth_head (f := fun b => State.arriveAt { s with combines := s.combines.erase b } b) hpick harrive]
  rfl

/-- FILL_RETRY of the only arrival that waits, a fill whose time has come. -/
theorem exec_fillRetry {s : State} {a : Arrival} {n : Nat} (hpick : s.pick = 0) (hretries : s.retries = [a]) (hdue : a.due ≤ s.now) (hender : a.isEnder = false) (hcast : a.isCast = false) (hdev : a.toDev = 0)
    (hcomb : a.combine = false) (hto : s.targetOf a = .tile s.core.id n) (hadmits : (s.core.tile n).admits a = true) : exec .fillRetry s = .next (State.landFill { s with retries := [] } s.core.id n a) := by
  have hretry : s.retry a = some (State.landFill { s with retries := [] } s.core.id n a) := by
    rw [State.retry, if_neg (Nat.not_lt.mpr hdue), hender, if_neg (by simp), hcast, if_neg (by simp), if_pos hdev, hretries, List.erase_cons_head]
    exact State.arriveAt_fill hcomb hto hadmits
  rw [show exec .fillRetry s = s.event s.evRetry from rfl, State.event, State.evRetry, hretries, nth_head hpick hretry]
  rfl

/-- FILL_END of a fill that owns the only tile with a record, of the only core, where nothing waits. -/
theorem exec_fillEnd {s : State} {o : Nat × Nat} {g : Tile} (hpick : s.pick = 0) (hends : s.fillEnds = [o]) (hothers : s.others = []) (hqueue : s.core.overrun = []) (htiles : s.core.tiles = [g]) {n : Nat} (hidx : g.idx = n) (howner : g.owner = some o) :
    exec .fillEnd s = .next (State.modCore { s with fillEnds := [] } (fun k => k.modTile n (fun t => { t with owner := none }))) := by
  subst hidx
  have hend : s.evFillEnd = some (State.endFill { s with fillEnds := [] } o) := by
    simp [State.evFillEnd, hends, hpick]
  rw [show exec .fillEnd s = s.event s.evFillEnd from rfl, State.event, hend, State.endFill]
  simp only [State.allCores, hothers, htiles, List.foldl_cons, List.foldl_nil, List.filter_cons, howner, beq_self_eq_true, if_true, List.filter_nil]
  rw [State.modCoreAt_self rfl (Core.modTile_id ..), State.letIn_none]
  · rfl
  · rw [State.coreAt_modCore (by simp)]
    simpa using hqueue

/-! ## The obligation -/

/-- What the tag unit holds after a whole-tile fill has landed. -/
theorem fillTile_landed {s t : State} {a : Arrival} {n : Nat} (hmask : a.mask = BitVec.allOnes 256)
    (hpad : t.core.pad = (s.core.fillTile n a).pad) (htiles : t.core.tiles = (s.core.fillTile n a).tiles) :
    Claims.tileHolds t n a.data.toNat ∧ t.core.tile n = { s.core.tile n with full := true, owner := none }
      ∧ ∀ k, k < 256 * n ∨ 256 * n + 256 ≤ k → readByte t.core.pad k = readByte s.core.pad k := by
  rw [Claims.tileHolds, hpad, Core.fillTile_pad _ n hmask, Core.tile_congr htiles n, Core.fillTile_tile]
  refine ⟨?_, rfl, fun k hk => readByte_putGranules_out _ _ _ _ (by omega)⟩
  have h := readNat_putGranules s.core.pad (4 * n) a.data.toNat 4
  rw [← Nat.mul_assoc] at h
  exact h

/-- Settles O40: each event is its arrival at the tile of the core in turn, whose tag unit alone it changes. -/
theorem tileArrivals : Obligations.TileArrivals := by
  intro s a n hpick g hdev hfrom halso hrest
  refine ⟨fun hcomb hmask hlast harmed hfull howner => ⟨fun hfills hto hfirst => ?fill, fun hretries hdue hcast hto => ?retry⟩,
    fun hcomb hcombines hto hfirst harmed hslot hfree => ?combine, fun o hends hothers hqueue htiles hidx howner => ?ends⟩
  case fill =>
    have hadmits : (s.core.tile n).admits a = true := by simp [Tile.admits, show (s.core.tile n).owner = none from howner, show (s.core.tile n).full = false from hfull, show (s.core.tile n).armed = false from harmed]
    have hside := State.landFill_tagSide (s := { s with fills := [] }) (n := n) hdev hfrom halso hrest hlast
    obtain ⟨hholds, htile, hkeep⟩ := fillTile_landed (s := s) hmask (congrArg TagSide.pad hside) (congrArg TagSide.tiles hside)
    exact ⟨_, exec_fill hpick hfills hcomb hto hfirst hadmits, congrArg TagSide.fills hside, hholds, htile, hkeep⟩
  case retry =>
    have hadmits : (s.core.tile n).admits a = true := by simp [Tile.admits, show (s.core.tile n).owner = none from howner, show (s.core.tile n).full = false from hfull, show (s.core.tile n).armed = false from harmed]
    have hside := State.landFill_tagSide (s := { s with retries := [] }) (n := n) hdev hfrom halso hrest hlast
    obtain ⟨hholds, htile, -⟩ := fillTile_landed (s := s) hmask (congrArg TagSide.pad hside) (congrArg TagSide.tiles hside)
    refine ⟨_, exec_fillRetry hpick hretries hdue ?_ ?_ hdev hcomb hto hadmits, congrArg TagSide.retries hside, hholds, htile⟩
    · simp [Arrival.isEnder, hlast]
    · rw [Arrival.isCast, bits_toNat]
      simpa using hcast
  case combine =>
    obtain ⟨xs, hheld⟩ := State.contribute_held (s := { s with combines := [] }) hdev hfrom halso hrest harmed hslot hfree
    have hexec := exec_combine hpick hcombines hcomb hto hfirst hheld
    have htile := s.core.holdSlot_tile n a
    refine ⟨fun hcnt => ?more, fun hcnt => ?last⟩
    case more =>
      rw [State.tileCombineNow_wait (by simp [Core.holdSlot]) (by rw [State.modCore_core, htile]; exact Nat.sub_ne_zero_of_lt hcnt)] at hexec
      exact ⟨_, hexec, rfl, htile, Core.modTile_pad ..⟩
    case last =>
      have hzero : ((s.core.holdSlot n a).tile n).cnt = 0 := by rw [htile]; exact Nat.sub_eq_zero_of_le (Nat.le_of_eq hcnt)
      have harmed' : ((s.core.holdSlot n a).tile n).armed = true := by rw [htile]; exact harmed
      obtain ⟨r, p, absent, hside⟩ := State.tileCombineNow_last (s := { State.modCore { s with combines := [] } (fun k => k.holdSlot n a) with xfers := xs }) (c := s.core.id) (Core.modTile_id ..) harmed' hzero
      refine ⟨_, hexec, congrArg TagSide.combines hside, ?_⟩
      rw [Core.tile_congr (congrArg TagSide.tiles hside) n, Core.combineTile_tile]
      exact ⟨rfl, rfl, rfl, rfl, rfl⟩
  case ends =>
    refine ⟨_, exec_fillEnd hpick hends hothers hqueue htiles hidx howner, rfl, ?_, Core.modTile_pad ..⟩
    rw [State.modCore_core, Core.tile_modTile_self (Core.tile_idx ..)]

end Sys2Proof.Machine
end

section
/-!
PROOFS. Reading lines of flat HBM moves no byte of it: what an allocation in L2 or a write-back to an HBM cache frame writes lies in the capacity tier (R278, R279, R284).
-/
namespace Sys2Proof.Machine

/-- The bytes below the capacity tier are those of a memory, and no memory error is logged. -/
def State.FlatIs (m : Memory) (s : State) : Prop := s.meEn = false ∧ ∀ k, k < capBase → readByte s.mem k = readByte m k

section
variable {m : Memory} {s : State}

theorem State.FlatIs.ite {c : Prop} [Decidable c] {a b : State} (ha : a.FlatIs m) (hb : b.FlatIs m) : (if c then a else b).FlatIs m := by
  split
  · exact ha
  · exact hb

theorem State.FlatIs.putLine {line : Nat} (h : s.FlatIs m) (hcap : capBase ≤ 64 * line) (v : Nat) : (s.putLine line v).FlatIs m :=
  ⟨h.1, fun k hk => (readByte_writeNat_out _ _ _ _ _ (.inl (by omega))).trans (h.2 k hk)⟩

theorem State.FlatIs.logErr (h : s.FlatIs m) (asid key holder kind d1 : Nat) : (s.logErr asid key holder kind d1).FlatIs m := by
  unfold State.logErr
  rw [if_pos (by simp [h.1])]
  exact h

theorem State.FlatIs.portWrite (h : s.FlatIs m) (line key v : Nat) (psn : Bool) (writer : Nat) : (s.portWrite line key v psn writer).FlatIs m := by
  unfold State.portWrite
  refine .ite (h.logErr _ _ _ _ _) ?_
  split
  · exact h.logErr _ _ _ _ _
  · exact h

/-- A frame holds a line of the capacity tier (R284). -/
theorem State.capBase_le_frameLine (s : State) (f : Frame) : capBase ≤ 64 * s.frameLine f := by
  have hbase : capBase = 64 * 0x4000000000 := by decide
  unfold State.frameLine
  dsimp only
  omega

theorem State.FlatIs.frameDrop (h : s.FlatIs m) (f : Frame) (wb : Bool) : (s.frameDrop f wb).FlatIs m := by
  unfold State.frameDrop State.frameWriteBack
  extract_lets line s1 s2
  have h1 : s1.FlatIs m := .ite (h.portWrite _ _ _ _ _) h
  exact .ite h1 (State.FlatIs.putLine (s := s2) h1 (s.capBase_le_frameLine f) 0)

theorem State.FlatIs.frameTake (h : s.FlatIs m) (line key : Nat) (psn : Bool) (writer : Nat) : (s.frameTake line key psn writer).FlatIs m := by
  unfold State.frameTake
  dsimp only
  change State.FlatIs m (match s.frameAt line with | some f => if s.frameIs f line key then s else s.frameDrop f true | none => s)
  split
  · exact .ite h (h.frameDrop _ _)
  · exact h

theorem State.FlatIs.putCap {line : Nat} (h : s.FlatIs m) (hcap : capBase ≤ 64 * line) (key v : Nat) (psn : Bool) (writer : Nat) : (s.putCap line key v psn writer).FlatIs m :=
  .ite ((h.frameTake _ _ _ _).putLine hcap _) ((h.portWrite _ _ _ _ _).putLine hcap _)

theorem State.FlatIs.dropL2 (h : s.FlatIs m) (l : L2Line) (wb : Bool) : (s.dropL2 l wb).FlatIs m := by
  unfold State.dropL2
  extract_lets s1 s2
  have h2 : s2.FlatIs m := h
  split
  · exact .ite h2 h2
  next hcap =>
    have hcap : capBase ≤ 64 * l.line := by simpa [isCap] using hcap
    exact .ite (h2.putCap hcap _ _ _ _) (.ite h2 (h2.putLine hcap _))

theorem State.FlatIs.makeRoom (h : s.FlatIs m) (line : Nat) : (s.makeRoom line).FlatIs m := by
  unfold State.makeRoom
  refine .ite h ?_
  split
  · exact h.dropL2 _ _
  · exact h

/-- R279: a line of flat HBM read, and put in L2 where that is asked. -/
theorem State.FlatIs.readLine {line : Nat} (h : s.FlatIs m) (hflat : isCap (64 * line) = false) (key : Nat) (alloc : Bool) (asid : Nat) : (s.readLine line key alloc asid).FlatIs m := by
  unfold State.readLine
  rw [hflat, if_neg Bool.false_ne_true]
  split
  · exact h
  · exact .ite (h.makeRoom line) h

end

/-- A byte of flat HBM lies below the capacity tier (R271, R283). -/
theorem lt_capBase_of_inLine {s : State} {pa n : Nat} (h : Claims.inLine s pa n) : pa + n ≤ capBase := by
  obtain ⟨-, -, hq, hle, -⟩ := h
  have : s.hbmQ * 192 * 2 ^ 30 ≤ 4 * 192 * 2 ^ 30 := by omega
  exact hle.trans (this.trans (by decide))

theorem not_isCap_of_inLine {s : State} {pa n : Nat} (h : Claims.inLine s pa n) : isCap pa = false ∧ isCap (64 * (pa / 64)) = false := by
  have hlt := lt_capBase_of_inLine h
  have hn := h.1
  simp only [isCap, decide_eq_false_iff_not]
  omega

/-- An access inside one line touches that line only. -/
theorem lines_of_inLine {pa n : Nat} (hn : 0 < n) (hfit : pa % 64 + n ≤ 64) : (List.range ((pa + n + 63) / 64 - pa / 64)).map (· + pa / 64) = [pa / 64] := by
  rw [show (pa + n + 63) / 64 - pa / 64 = 1 by omega]
  simp

/-- What a read inside one line of flat HBM finds (R78, R278). -/
theorem State.peek_inLine {s : State} {pa n : Nat} (h : Claims.inLine s pa n) (key : Nat) : s.peek pa key n = (readNat s.mem pa n, if s.linePsn (pa / 64) then some (64 * (pa / 64)) else none) := by
  obtain ⟨hn, hfit, -⟩ := id h
  rw [State.peek, (not_isCap_of_inLine h).1]
  dsimp only
  rw [Bool.not_false, if_pos rfl, lines_of_inLine hn hfit]
  cases hp : s.linePsn (pa / 64) <;> simp [hp]

end Sys2Proof.Machine
end

section
/-!
PROOFS. VectorLoadsRead: R195's checks pass for every active element, so that the load takes them all up at once and reads each at its place.
-/
namespace Sys2Proof.Machine

/-! ## The checks and what they leave -/

/-- The elements of an access with their places and translations. -/
def vels (grp : Nat → Nat) (va : Nat → Word) (pl : Nat → Place) (xl : Nat → Xlat) (es : List Nat) : List VEl := es.map (fun i => ⟨i, grp i, va i, pl i, xl i⟩)

theorem scanEls_ok {chk : Nat → ECheck} {grp : Nat → Nat} {va : Nat → Word} {pl : Nat → Place} {xl : Nat → Xlat} {es : List Nat} (h : ∀ i ∈ es, chk i = .ok (pl i) (xl i)) :
    scanEls chk grp va es = ⟨vels grp va pl xl es, none, false⟩ := by
  induction es with
  | nil => rfl
  | cons i r ih =>
    rw [scanEls, h i (List.mem_cons_self ..), ih (fun j hj => h j (List.mem_cons_of_mem _ hj))]
    rfl

/-- R391, R439: with every element on this device, all groups are taken up at once. -/
theorem State.part_near {s : State} {m : BitVec 3} {chk : Nat → ECheck} {va : Nat → Word} {pl : Nat → Place} {xl : Nat → Xlat} (hprog : s.core.st.prog = none)
    (h : ∀ i ∈ Claims.els s m, chk i = .ok (pl i) (xl i)) (hnear : ∀ i ∈ Claims.els s m, (pl i).far = false) :
    s.part m chk va = ⟨⟨vels (eg s.w) va pl xl (Claims.els s m), none, false⟩, none⟩ := by
  have hfar : (vels (eg s.w) va pl xl (Claims.els s m)).any (fun e => e.p.far) = false := by
    simpa [vels] using hnear
  rw [State.part, hprog, State.fromStart, State.els_eq, scanEls_ok h]
  exact if_pos (by simp [VScan.kept, hfar])

/-- R195: an element that passes checks 2 to 5. -/
theorem State.vchk_load {s : State} {va : Nat → Word} {idx : Option (BitVec 5)} {i : Nat} {p : Place} {x : Xlat} (hq : Claims.Quiet s) (hidx : ∀ b ∈ idx, s.idxPsn b i = false)
    (halign : (va i).toNat % s.w = 0) (hx : s.xlate (va i) s.w = .at p x) (hperm : x.permits .load s.core.st.kMode = true) (hctl : p.isCtl = false) :
    s.vchk .load wLoad va idx (fun _ => false) i = .ok p x := by
  have hplace : s.elCheck .load wLoad (va i) s.w false = .ok p x := by
    rw [State.elCheck, halign, hx]
    simp [hperm, hctl, Strand.watchers_calm hq.toCalm]
  cases idx with
  | none => exact hplace
  | some b => exact (if_neg (by simp [hidx b rfl])).trans hplace

/-- A load of elements on this device that nothing holds back. -/
theorem State.vloadGo_near {s : State} {d : BitVec 5} {m : BitVec 3} {alloc ff : Bool} {els : List VEl} (hprog : s.core.st.prog = none) (hnear : ∀ e ∈ els, e.p.far = false)
    (hwait : s.elsWait els s.w false true = false) :
    s.vloadGo d m alloc ff ⟨⟨els, none, false⟩, none⟩
      = .next (((s.useAll els).readAll els alloc).putV d (els.map (fun e => ⟨e.i * s.w, s.w, (s.fetchEl e s.w).1, (s.fetchEl e s.w).2⟩))).finishQ := by
  have hmissing : s.missing els = [] := by
    rw [State.missing, List.filter_eq_nil_iff]
    intro e he
    simp [hnear e he]
  have hlost : s.lostStop ⟨els, none, false⟩ = ⟨els, none, false⟩ := by
    rw [State.lostStop, VScan.kept, List.find?_eq_none.mpr (fun e he => by simp [hnear e he])]
  simp [State.vloadGo, hprog, VScan.kept, hwait, hmissing, hlost, State.goOn, State.endGroups]

/-- R162, R233, R296, R482: nothing outstanding holds an element back that lies in the own scratchpad or in memory. -/
theorem State.elsWait_quiet {s : State} {els : List VEl} (hq : Claims.Quiet s) (hpl : ∀ e ∈ els, ∀ g r c o, e.p ≠ .peer g r c o) (n : Nat) (write read : Bool) : s.elsWait els n write read = false := by
  have hcalm := hq.toCalm
  rw [State.elsWait, State.acqWait_calm hcalm, State.unacked_calm hcalm, Bool.false_or, Bool.false_or, List.any_eq_false]
  intro e he
  have hlocked : s.locked e.p n write = false := by
    unfold State.locked
    split
    · rw [State.lockedAt_nil hcalm.locks, hcalm.held.1]
      rfl
    · rfl
  have hheld : s.placeHeld e.p = false := by
    unfold State.placeHeld
    split
    · simp [State.lineHeld, hcalm.invals]
    · rfl
  have hpeer : s.peerBusy e.p = false := by
    unfold State.peerBusy
    split
    next g r c o h => exact absurd h (hpl e he g r c o)
    · rfl
  simp [hlocked, hheld, hpeer]

/-! ## The instructions -/

theorem State.addrUnit_eq (s : State) (a : BitVec 5) (i : Nat) : s.addrUnit a i = Claims.unitVa s a i := by
  rw [Claims.unitVa, Claims.narrow, State.addrUnit, BitVec.ofInt_add, BitVec.ofInt_toInt, ← Int.natCast_mul, BitVec.ofInt_natCast]

theorem State.addrStride_eq (s : State) (a b : BitVec 5) (i : Nat) : s.addrStride a b i = Claims.strideVa s a b i := by
  rw [Claims.strideVa, Claims.narrow, State.addrStride, BitVec.ofInt_add, BitVec.ofInt_toInt, BitVec.ofInt_mul, BitVec.ofInt_toInt, BitVec.ofInt_natCast]

/-- R192 to R195, R198: a vector load that may start checks and reads its elements. -/
theorem exec_vload {s : State} {d : BitVec 5} {m : BitVec 3} {i : Instr} {va : Nat → Word} (hi : Claims.IsVLoad s d m i va) (hr : Claims.VReady s [m]) :
    ∃ alloc ff idx, (∀ j ∈ Claims.els s m, ∀ b ∈ idx, s.idxPsn b j = false) ∧ exec i s = s.vloadGo d m alloc ff (s.vscan m .load wLoad va idx (fun _ => false)) := by
  cases hi with
  | vld a h hc =>
    refine ⟨h == 1, false, none, by simp, ?_⟩
    rw [← funext (s.addrUnit_eq a)]
    exact State.vrun_ready hr hc rfl
  | vldff a h hc =>
    refine ⟨h == 1, true, none, by simp, ?_⟩
    rw [← funext (s.addrUnit_eq a)]
    exact State.vrun_ready hr hc rfl
  | vlds a b h hc =>
    refine ⟨h == 1, false, none, by simp, ?_⟩
    rw [← funext (s.addrStride_eq a b)]
    exact State.vrun_ready hr hc rfl
  | vldx a b h hc hidx =>
    refine ⟨h == 1, false, some b, ?_, State.vrun_ready hr hc hidx.1⟩
    rintro j hj _ ⟨⟩
    exact hidx.2 j hj

/-! ## Translations used and lines read (R276, R279) -/

theorem mem_of_mem_once {α : Type} [DecidableEq α] {l : List α} {x : α} (h : x ∈ once l) : x ∈ l := by
  induction l with
  | nil => exact h
  | cons a r ih =>
    rw [once] at h
    split at h
    · exact List.mem_cons.mpr (.inl (List.mem_singleton.mp h))
    next b t hb =>
      split at h
      · exact List.mem_cons_of_mem _ (ih (hb ▸ h))
      · exact (List.mem_cons.mp h).elim (fun hx => List.mem_cons.mpr (.inl hx)) (fun hx => List.mem_cons_of_mem _ (ih (hb ▸ hx)))

theorem mem_of_mem_firsts {α : Type} [DecidableEq α] {l : List α} {x : α} (h : x ∈ firsts l) : x ∈ l := by
  refine List.foldlRecOn (motive := fun r => ∀ y ∈ r, y ∈ l) l _ (fun y hy => absurd hy List.not_mem_nil) (fun r hr a ha y hy => ?_) x h
  split at hy
  · exact hr y hy
  · exact (List.mem_append.mp hy).elim (hr y) (fun h => List.mem_singleton.mp h ▸ ha)

/-- Nothing but the order of the TLB of the core in turn has changed. -/
def State.TlbMoved (s u : State) : Prop := ∃ l, u = { s with core := { s.core with tlb := l } } ∧ ∀ x ∈ s.core.tlb, x ∈ l

theorem State.useXlat_window (s : State) : s.useXlat windowXlat = s := if_pos (by simp)

theorem State.useXlat_moved {s u : State} {x : Xlat} (h : s.TlbMoved u) (hx : x = windowXlat ∨ x ∈ s.core.tlb) : s.TlbMoved (u.useXlat x) := by
  obtain ⟨l, rfl, hl⟩ := h
  rcases hx with rfl | hx
  · rw [State.useXlat_window]
    exact ⟨l, rfl, hl⟩
  · unfold State.useXlat
    split
    · exact ⟨l, rfl, hl⟩
    · rw [if_pos (by simpa using hl x hx)]
      refine ⟨x :: l.filter (· != x), rfl, fun y hy => ?_⟩
      by_cases hxy : y = x
      · exact List.mem_cons.mpr (.inl hxy)
      · exact List.mem_cons_of_mem _ (List.mem_filter.mpr ⟨hl y hy, by simpa using hxy⟩)

theorem State.useAll_moved {s : State} {els : List VEl} (h : ∀ e ∈ els, e.x = windowXlat ∨ e.x ∈ s.core.tlb) : s.TlbMoved (s.useAll els) := by
  refine List.foldlRecOn (motive := s.TlbMoved) _ _ ⟨_, rfl, fun _ hx => hx⟩ (fun u hu x hx => State.useXlat_moved hu ?_)
  obtain ⟨g, -, hx⟩ := List.mem_flatMap.mp hx
  obtain ⟨e, he, rfl⟩ := List.mem_map.mp (mem_of_mem_firsts hx)
  exact h e (List.mem_of_mem_filter he)

theorem State.useAll_window {s : State} {els : List VEl} (h : ∀ e ∈ els, e.x = windowXlat) : s.useAll els = s := by
  refine List.foldlRecOn (motive := fun u => u = s) _ _ rfl (fun u hu x hx => ?_)
  obtain ⟨g, -, hx⟩ := List.mem_flatMap.mp hx
  obtain ⟨e, he, rfl⟩ := List.mem_map.mp (mem_of_mem_firsts hx)
  rw [h e (List.mem_of_mem_filter he), State.useXlat_window, hu]

theorem State.readAll_none {s : State} {els : List VEl} (h : ∀ e ∈ els, ∃ o, e.p = .local_ o) (alloc : Bool) : s.readAll els alloc = s := by
  refine List.foldlRecOn (motive := fun u => u = s) _ _ rfl (fun u _ l hl => ?_)
  obtain ⟨e, he, hel⟩ := List.mem_filterMap.mp (mem_of_mem_once hl)
  obtain ⟨o, ho⟩ := h e he
  rw [ho] at hel
  cases hel

theorem State.readAll_sansMem (s : State) (els : List VEl) (alloc : Bool) : (s.readAll els alloc).sansMem = s.sansMem :=
  sansMem_foldl (fun s _ => s.readLine_sansMem _ _ _ _) _ s

theorem State.FlatIs.readAll {mm : Memory} {s : State} {els : List VEl} (h : s.FlatIs mm) (hflat : ∀ e ∈ els, ∃ pa key, e.p = .slice pa key ∧ isCap (64 * (pa / 64)) = false) (alloc : Bool) : (s.readAll els alloc).FlatIs mm := by
  refine List.foldlRecOn (motive := State.FlatIs mm) _ _ h (fun u hu l hl => hu.readLine ?_ _ _ _)
  obtain ⟨e, he, hel⟩ := List.mem_filterMap.mp (mem_of_mem_once hl)
  obtain ⟨pa, key, hp, hcap⟩ := hflat e he
  rw [hp] at hel
  cases hel
  exact hcap

/-! ## The obligation -/

@[simp] theorem State.addFlags_zero (s : State) : s.addFlags 0 = s := by
  simp [State.addFlags, orFlags]

/-- A vector load whose elements pass their checks, each in the own scratchpad or in this device's memory. -/
theorem vload_near {s : State} {d : BitVec 5} {m : BitVec 3} {i : Instr} {va : Nat → Word} (hi : Claims.IsVLoad s d m i va) (hr : Claims.VReady s [m]) (hq : Claims.Quiet s) (hprog : s.core.st.prog = none)
    {pl : Nat → Place} {xl : Nat → Xlat} (halign : ∀ j ∈ Claims.els s m, (va j).toNat % s.w = 0) (hx : ∀ j ∈ Claims.els s m, s.xlate (va j) s.w = .at (pl j) (xl j))
    (hperm : ∀ j ∈ Claims.els s m, (xl j).permits .load s.core.st.kMode = true) (hpl : ∀ j, (∃ o, pl j = .local_ o) ∨ ∃ pa key, pl j = .slice pa key) :
    let els := vels (eg s.w) va pl xl (Claims.els s m)
    ∃ alloc, exec i s = .next (((s.useAll els).readAll els alloc).putV d (els.map (fun e => ⟨e.i * s.w, s.w, (s.fetchEl e s.w).1, (s.fetchEl e s.w).2⟩))).finishQ := by
  intro els
  obtain ⟨alloc, ff, idx, hidx, hexec⟩ := exec_vload hi hr
  have hown : ∀ j, (pl j).far = false ∧ (pl j).isCtl = false ∧ ∀ g r c o, pl j ≠ .peer g r c o := fun j => by
    rcases hpl j with ⟨o, h⟩ | ⟨pa, key, h⟩ <;> rw [h] <;> exact ⟨rfl, rfl, fun _ _ _ _ h => nomatch h⟩
  have hels : ∀ e ∈ els, ∃ j, e.p = pl j := fun e he => by
    obtain ⟨j, -, rfl⟩ := List.mem_map.mp he
    exact ⟨j, rfl⟩
  have hnear : ∀ e ∈ els, e.p.far = false := fun e he => by
    obtain ⟨j, hj⟩ := hels e he
    exact hj ▸ (hown j).1
  have hwait : s.elsWait els s.w false true = false := State.elsWait_quiet hq (fun e he => by
    obtain ⟨j, hj⟩ := hels e he
    exact hj ▸ (hown j).2.2) _ _ _
  refine ⟨alloc, ?_⟩
  rw [hexec, State.vscan, State.part_near hprog (fun j hj => State.vchk_load hq (hidx j hj) (halign j hj) (hx j hj) (hperm j hj) (hown j).2.1) (fun j _ => (hown j).1), State.vloadGo_near hprog hnear hwait]

/-- The scratchpad window begins at a multiple of every element width (R268). -/
theorem State.window_aligned (s : State) : 0x70000000000000 % s.w = 0 := by
  have hsew : kSew s.core.st.kvtype ≤ 7 := Nat.le_of_lt_succ (Nat.mod_lt _ (by decide))
  exact Nat.mod_eq_zero_of_dvd ((Nat.pow_dvd_pow 2 hsew).trans (by decide))

/-- R192, R197: elements that lie aligned in the own scratchpad. -/
theorem vload_pad {s : State} {d : BitVec 5} {m : BitVec 3} {i : Instr} {va : Nat → Word} (hi : Claims.IsVLoad s d m i va) (hr : Claims.VReady s [m]) (hq : Claims.Quiet s) (hprog : s.core.st.prog = none)
    {off : Nat → Nat} (hpad : Claims.inPad s va off s.w (Claims.els s m)) :
    exec i s = .next (Claims.vWrote s d ((Claims.els s m).map (fun i =>
      ⟨i * s.w, s.w, readNat s.core.pad (s.core.st.allotBase + off i) s.w, s.core.padPsnIn (s.core.st.allotBase + off i) s.w⟩)) 0) := by
  obtain ⟨alloc, hexec⟩ := vload_near hi hr hq hprog (pl := fun j => .local_ (s.core.st.allotBase + off j)) (xl := fun _ => windowXlat)
    (fun j hj => by rw [(hpad j hj).1.1, Nat.add_mod, s.window_aligned, (hpad j hj).2]; exact Nat.zero_mod _)
    (fun j hj => State.xlate_ownPad (hpad j hj).1 _) (fun _ _ => windowXlat_permits_load _) (fun _ => .inl ⟨_, rfl⟩)
  rw [hexec, vels, State.useAll_window (List.forall_mem_map.mpr fun _ _ => rfl), State.readAll_none (List.forall_mem_map.mpr fun _ _ => ⟨_, rfl⟩), Claims.vWrote, State.addFlags_zero, List.map_map]
  rfl

/-- R278: the value and poison of an element inside a line of flat HBM. -/
theorem State.fetchEl_inLine {s : State} {e : VEl} {pa key n : Nat} (hp : e.p = .slice pa key) (h : Claims.inLine s pa n) : s.fetchEl e n = (readNat s.mem pa n, s.linePsn (pa / 64)) := by
  rw [State.fetchEl, hp, State.look, State.peek_inLine h]
  cases s.linePsn (pa / 64) <;> rfl

/-- R276, R279: what a load has used and read leaves every byte of flat HBM. -/
theorem State.flatKept_readAll {s u : State} (hu : s.TlbMoved u) {els : List VEl} (h : ∀ e ∈ els, ∃ pa key, e.p = .slice pa key ∧ Claims.inLine s pa s.w) (alloc : Bool) : Claims.flatKept s (u.readAll els alloc) := by
  obtain ⟨l, rfl, -⟩ := hu
  match els, h with
  | [], _ => exact fun _ _ => rfl
  | e :: r, h =>
    obtain ⟨_, _, -, -, -, -, -, hlog⟩ := h e (List.mem_cons_self ..)
    have hflat : State.FlatIs s.mem { s with core := { s.core with tlb := l } } := ⟨hlog, fun _ _ => rfl⟩
    refine (hflat.readAll (fun e he => ?_) alloc).2
    obtain ⟨pa, key, hp, hline⟩ := h e he
    exact ⟨pa, key, hp, (not_isCap_of_inLine hline).2⟩

/-- What a write of vd leaves in the strand depends on the strand alone. -/
theorem State.putV_finishQ_st {s u : State} (h : u.core.st = s.core.st) (d : BitVec 5) (ws : List VWrite) : (u.putV d ws).finishQ.core.st = (Claims.vWrote s d ws 0).core.st := by
  rw [Claims.vWrote, State.addFlags_zero, State.finishQ_eq, State.finishQ_eq]
  change Claims.doneQ (u.core.st.putV d.toNat ws) = Claims.doneQ (s.core.st.putV d.toNat ws)
  rw [h]

/-- R192, R198: elements that lie in flat HBM of this device. -/
theorem vload_mem {s : State} {d : BitVec 5} {m : BitVec 3} {i : Instr} {va : Nat → Word} (hi : Claims.IsVLoad s d m i va) (hr : Claims.VReady s [m]) (hq : Claims.Quiet s) (hprog : s.core.st.prog = none)
    {pa : Nat → Nat} (hmem : Claims.inMem s va pa s.w (Claims.els s m) true false) :
    ∃ t, exec i s = .next t ∧ Claims.flatKept s t
      ∧ t.core.st = (Claims.vWrote s d ((Claims.els s m).map (fun i => ⟨i * s.w, s.w, readNat s.mem (pa i) s.w, s.linePsn (pa i / 64)⟩)) 0).core.st := by
  have : Nonempty Xlat := ⟨windowXlat⟩
  choose! key xl hx htlb hread _ huse halign hline using hmem
  obtain ⟨alloc, hexec⟩ := vload_near hi hr hq hprog (pl := fun j => .slice (pa j) (key j)) (xl := xl) halign hx
    (fun j hj => (permits_iff (xl j) (rd := true) (wr := false) rfl _).mpr ⟨hread j hj, nofun, huse j hj⟩) (fun _ => .inr ⟨_, _, rfl⟩)
  let els := vels (eg s.w) va (fun j => .slice (pa j) (key j)) xl (Claims.els s m)
  have hused : s.TlbMoved (s.useAll els) := State.useAll_moved (List.forall_mem_map.mpr fun j hj => .inr (htlb j hj))
  have hvals : els.map (fun e => (⟨e.i * s.w, s.w, (s.fetchEl e s.w).1, (s.fetchEl e s.w).2⟩ : VWrite))
      = (Claims.els s m).map (fun i => ⟨i * s.w, s.w, readNat s.mem (pa i) s.w, s.linePsn (pa i / 64)⟩) := by
    refine (List.map_map ..).trans (List.map_congr_left fun j hj => ?_)
    rw [Function.comp_apply, State.fetchEl_inLine rfl (hline j hj)]
  refine ⟨_, hexec, ?kept, ?strand⟩
  case kept =>
    exact State.flatKept_readAll hused (els := els) (List.forall_mem_map.mpr fun j hj => ⟨_, _, rfl, hline j hj⟩) alloc
  case strand =>
    have hst : ((s.useAll els).readAll els alloc).core.st = s.core.st := by
      obtain ⟨l, hl, -⟩ := hused
      rw [State.core_of_sansMem (State.readAll_sansMem _ els alloc), hl]
    rw [← hvals]
    exact State.putV_finishQ_st hst d _

/-- Settles O24: the load takes all its elements up at once, and each one's place gives its bytes and its poison. -/
theorem vectorLoadsRead : Obligations.VectorLoadsRead := by
  intro s d m i va hi hr hq _ hprog
  exact ⟨fun off hpad => vload_pad hi hr hq hprog hpad, fun pa hmem => vload_mem hi hr hq hprog hmem⟩

end Sys2Proof.Machine
end

section
/-!
PROOFS. SidAndKrd: SID's selectors (R241), and what KRD reads of each register that the mode may reach (R70, R263).
-/
namespace Sys2Proof.Machine

/-- A scalar instruction that writes v to s[d] and goes on. -/
theorem State.finish_setReg (s : State) (d : BitVec 5) (v : Word) : (s.setReg d v).finish = Claims.wrote s d v := by
  rw [State.finish_eq, State.setReg_eq]
  unfold Claims.wrote Claims.scalarAfter Claims.stepped
  split <;> rfl

/-- R412: an instruction that reads K-registers and then writes v to s[d] completes, or traps where an error has struck one of them. -/
theorem State.given_chkK_wrote (s : State) (ks : List Nat) (d : BitVec 5) (v : Word) :
    (Claims.kSound s ks → s.given (s.chkK ks) (.next (s.setReg d v).finish) = .next (Claims.wrote s d v))
    ∧ (¬ Claims.kSound s ks → s.given (s.chkK ks) (.next (s.setReg d v).finish) = .next (s.trap 0x09 0 0)) := by
  refine ⟨fun h => ?_, fun h => ?_⟩
  · rw [State.chkK_sound h, State.given_ok, State.finish_setReg]
  · rw [State.chkK_struck h, State.given_trap]
    rfl

theorem kSound_singleton (s : State) (k : Nat) : Claims.kSound s [k] ↔ Claims.struck s k = false := by
  simp [Claims.kSound]

/-- R241: SID reads the K-register of its selector and writes the selector's value. -/
theorem exec_sid {s : State} {g : Gang} (hg : s.myGang = some g) {p : BitVec 4 × Nat × List Nat} (hp : p ∈ Claims.sidTable s g) (d : BitVec 5) :
    exec (.sid d p.1) s = s.given (s.chkK p.2.2) (.next (s.setReg d (BitVec.ofNat 64 p.2.1)).finish) := by
  have hasid : s.asid = g.kasid := by rw [State.asid, hg]; rfl
  have hsize : (s.myGang.map (·.size)).getD 0 = g.task.c * g.task.s := by rw [hg]; rfl
  fin_cases hp
  · rfl
  · rw [← hsize]; rfl
  · rfl
  · rfl
  · rw [← hasid]; rfl

/-- R71, R406: the number of a register that the mode may reach passes. -/
theorem State.kCheck_reach {s : State} {k : Nat} (h : Claims.kReach s k) : s.kCheck k = .ok := by
  have huser : (k ∈ [1, 2, 3, 4, 5] ∨ (8 ≤ k ∧ k ≤ 0x14) ∨ (0x40 ≤ k ∧ k < 0x60)) → kAccess k = 1 := fun h => if_pos (by simpa [or_assoc] using h)
  have hsuper : ((0x100 ≤ k ∧ k ≤ 0x106) ∨ (0x110 ≤ k ∧ k ≤ 0x112)) → kAccess k = 2 := fun h => by
    rw [kAccess, if_neg (by simp; omega), if_pos (by simpa using h)]
  rcases h with h | h | h | ⟨hm, h⟩
  · simp [State.kCheck, huser (.inl h)]
  · simp [State.kCheck, huser (.inr (.inl h))]
  · simp [State.kCheck, huser (.inr (.inr h))]
  · simp [State.kCheck, hsuper h, show s.core.st.kMode = true from hm]

/-- R263, R412: KRD of such a register. -/
theorem exec_krd {s : State} {k : BitVec 12} (h : Claims.kReach s k.toNat) (d : BitVec 5) :
    exec (.krd d k) s = s.given (s.chkK [k.toNat]) (.next (s.setReg d (s.kRead k.toNat)).finish) := by
  change s.given ((s.kCheck k.toNat).andThen _) _ = _
  rw [State.kCheck_reach h, Chk.andThen_ok]

/-- R70: the registers of which one copy serves the gang. -/
theorem State.kRead_gang {s : State} {g : Gang} (hg : s.myGang = some g) (k : BitVec 12) :
    (k = 0x00D → s.kRead k.toNat = BitVec.ofNat 64 g.task.prio) ∧ (k = 0x014 → s.kRead k.toNat = g.kutvec) ∧ (k = 0x105 → s.kRead k.toNat = g.kstvec)
    ∧ (k = 0x110 → s.kRead k.toNat = BitVec.ofNat 64 g.kasid) ∧ (k = 0x111 → s.kRead k.toNat = BitVec.ofNat 64 g.kptbase) ∧ (k = 0x112 → s.kRead k.toNat = BitVec.ofNat 64 g.kfrec) := by
  refine ⟨?_, ?_, ?_, ?_, ?_, ?_⟩ <;> rintro rfl <;> simp [State.kRead, hg]

/-- R68, R70: the four K-registers of watch register n. -/
theorem State.kRead_watch (s : State) (k : Nat) (n : Fin 8) :
    (k = 0x40 + 4 * n → s.kRead k = s.core.st.watch[n].ctl) ∧ (k = 0x41 + 4 * n → s.kRead k = s.core.st.watch[n].base)
    ∧ (k = 0x42 + 4 * n → s.kRead k = s.core.st.watch[n].lim) ∧ (k = 0x43 + 4 * n → s.kRead k = s.core.st.watch[n].str) := by
  refine ⟨?_, ?_, ?_, ?_⟩ <;> rintro rfl <;> fin_cases n <;> rfl

/-- Settles O3: SID and KRD are one check of a K-register and one write; what KRD writes is read off its table. -/
theorem sidAndKrd : Obligations.SidAndKrd := by
  refine ⟨fun s d g hg p hp => ?_, fun s d k hk hsound => ?_, fun s d k hk hstruck => ?_⟩
  · rw [exec_sid hg hp]
    exact s.given_chkK_wrote p.2.2 d _
  · refine ⟨s.kRead k.toNat, ?_, ?_⟩
    · rw [exec_krd hk]
      exact (s.given_chkK_wrote _ d _).1 ((kSound_singleton s _).mpr hsound)
    · refine ⟨?_, ?_, ?_, ?_, fun _ hg => State.kRead_gang hg k, ?_, ?_, ?_, ?_, ?_, ?_, ?_, ?_, ?_, ?_, ?_, ?_, ?_, ?_, ?_, ?_, ?_, s.kRead_watch k.toNat⟩ <;> rintro rfl <;> rfl
  · rw [exec_krd hk]
    exact (s.given_chkK_wrote _ d _).2 (by rw [kSound_singleton, hstruck]; exact Bool.noConfusion)

end Sys2Proof.Machine
end

section
/-!
PROOFS. CopiesEnterQueue: what a copy is checked for before it enters the vector queue (R220, R221), and a CPYG's group (R235).
-/
namespace Sys2Proof.Machine

/-- R220, R221, R235: what a copy with clean operands is checked for, in its order. -/
theorem State.copyEntry_clean {s : State} {kind : Nat} {rs : List (BitVec 5)} {d t : BitVec 5} {k : Out} (hc : Claims.Clean s rs) (hq : s.core.st.vq = none) :
    s.copyEntry kind rs d t k =
      if kind = 0 ∧ (s.reg d).extractLsb' 32 32 ≠ 0 ∨ kind = 2 ∧ (s.reg d).extractLsb' 44 20 ≠ 0 then .next (s.trap 0x02 0 0)
      else if t ≠ 0 ∧ isHandle (s.handle t) = false then .next (s.trap 0x0C ((s.handle t).setWidth 64) 0)
      else if kind = 2 ∧ s.enrolled ((s.reg d).extractLsb' 32 12).toNat s.core.st.gang s.core.st.rank = false then
        .next (s.trap 0x0F (BitVec.ofNat 64 ((s.reg d).extractLsb' 32 12).toNat) 0)
      else k := by
  have hres (hi lo : Nat) : bits (s.reg d).toNat hi lo != 0 ↔ (s.reg d).extractLsb' lo (hi + 1 - lo) ≠ 0 := by
    rw [bits_toNat, bne_iff_ne]
    exact not_congr ⟨fun h => BitVec.eq_of_toNat_eq h, fun h => by rw [h]; rfl⟩
  have hlen : bits (s.reg d).toNat 63 32 != 0 ↔ (s.reg d).extractLsb' 32 32 ≠ 0 := hres 63 32
  have hopnd : bits (s.reg d).toNat 63 44 != 0 ↔ (s.reg d).extractLsb' 44 20 ≠ 0 := hres 63 44
  have hnum : bits (s.reg d).toNat 43 32 = ((s.reg d).extractLsb' 32 12).toNat := bits_toNat _ 43 32
  rw [State.copyEntry, State.chkRegs_clean hc, State.given_ok]
  simp only [hnum, hq, Bool.or_eq_true, Bool.and_eq_true, beq_iff_eq, bne_iff_ne, Bool.not_eq_true', hlen, hopnd, Option.isSome_none, Bool.false_eq_true, if_false, State.handle]
  congr

/-- R220: a copy enters the vector queue where its length word is well formed, its token is a handle or s0, and its group has the strand. -/
theorem State.copyEntry_enters {s : State} {kind : Nat} {rs : List (BitVec 5)} {d t : BitVec 5} {k : Out} (hc : Claims.Clean s rs) (hq : s.core.st.vq = none)
    (ht : t = 0 ∨ isHandle (s.handle t) = true) (h0 : kind = 0 → (s.reg d).extractLsb' 32 32 = 0)
    (h2 : kind = 2 → (s.reg d).extractLsb' 44 20 = 0 ∧ s.enrolled ((s.reg d).extractLsb' 32 12).toNat s.core.st.gang s.core.st.rank = true) :
    s.copyEntry kind rs d t k = k := by
  have hform : ¬ (kind = 0 ∧ (s.reg d).extractLsb' 32 32 ≠ 0 ∨ kind = 2 ∧ (s.reg d).extractLsb' 44 20 ≠ 0) := by
    rintro (⟨hk, hne⟩ | ⟨hk, hne⟩)
    · exact hne (h0 hk)
    · exact hne (h2 hk).1
  have htok : ¬ (t ≠ 0 ∧ isHandle (s.handle t) = false) := fun h => ht.elim h.1 (by simp [h.2])
  have hgroup : ¬ (kind = 2 ∧ s.enrolled ((s.reg d).extractLsb' 32 12).toNat s.core.st.gang s.core.st.rank = false) := by
    rintro ⟨hk, hout⟩
    rw [(h2 hk).2] at hout
    exact Bool.noConfusion hout
  rw [State.copyEntry_clean hc hq, if_neg hform, if_neg htok, if_neg hgroup]

/-- The group of a number is the only one of the list that has it. -/
theorem State.group?_unique {s : State} {x : Group} (hx : x ∈ s.groups) (hone : ∀ y ∈ s.groups, y.g = x.g → y = x) : s.group? x.g = some x := by
  have hsome : (s.group? x.g).isSome := List.find?_isSome.2 ⟨x, hx, by simp⟩
  obtain ⟨y, hy⟩ := Option.isSome_iff_exists.1 hsome
  rw [hy, hone y (List.mem_of_find?_eq_some hy) (by simpa using List.find?_some hy)]

theorem State.enrolled_unique {s : State} {x : Group} (hx : x ∈ s.groups) (hone : ∀ y ∈ s.groups, y.g = x.g → y = x) (gang rank : Nat) :
    s.enrolled x.g gang rank = x.members.contains (gang, rank) := by
  rw [State.enrolled, State.group?_unique hx hone]

theorem State.enrolled_noGroup {s : State} {g : Nat} (h : ∀ x ∈ s.groups, x.g ≠ g) (gang rank : Nat) : s.enrolled g gang rank = false := by
  have hnone : s.group? g = none := List.find?_eq_none.2 (fun x hx => by simpa using h x hx)
  rw [State.enrolled, hnone]

/-- R220: the queue's entry holds the operands as they are when the copy enters it. -/
theorem State.queueCopy_eq (s : State) (kind : Nat) (d a b : BitVec 5) (f : BitVec 3) (t : BitVec 5) (pitch : Word) :
    s.queueCopy kind d a b f t pitch = Claims.withSt s { s.core.st with
      vq := some ⟨s.core.st.pc, kind, s.reg a, s.reg b, s.reg d, pitch, if t = 0 then none else some (s.handle t), f.toNat⟩ } := rfl

theorem exec_cpy (s : State) (d a b : BitVec 5) (f : BitVec 3) (t : BitVec 5) :
    exec (.cpy d a b f t) s = s.copyEntry 0 [d, a, b, t] d t (.next (s.queueCopy 0 d a b f t 0)) := rfl

theorem exec_cpy2d (s : State) (d a b : BitVec 5) (f : BitVec 3) (t : BitVec 5) :
    exec (.cpy2d d a b f t) s = s.copyEntry 1 [d, d + 1, a, b, t] d t (.next (s.queueCopy 1 d a b f t (s.reg (d + 1)))) := rfl

theorem exec_cpyg (s : State) (d a b t : BitVec 5) :
    exec (.cpyg d a b t) s = s.copyEntry 2 [d, a, b, t] d t (.next (s.queueCopy 2 d a b 0 t 0)) := rfl

/-- Settles O35: each copy enters the queue through the one check of R220, and each trap is one branch of it. -/
theorem copiesEnterQueue : Obligations.CopiesEnterQueue := by
  unfold Obligations.CopiesEnterQueue
  intro s d a b t f h e g enrolled hq
  have hh : h = s.handle t := (State.handle_eq s t).symm
  clear_value h
  subst hh
  refine ⟨fun ht => ⟨fun hc hlen => ?_, fun hc => ?_, fun hc hres hen => ?_, fun hc hres hno => ?_⟩, fun hc hlen => ?_, fun hc hlen ht hh => ?_⟩
  · rw [exec_cpy, State.copyEntry_enters hc hq ht (fun _ => hlen) (by simp), State.queueCopy_eq]
  · rw [exec_cpy2d, State.copyEntry_enters hc hq ht (by simp) (by simp), State.queueCopy_eq]
  · obtain ⟨x, hx, hxg, hone, hmem⟩ := hen
    have hin : s.enrolled g s.core.st.gang s.core.st.rank = true := by
      rw [← hxg, State.enrolled_unique hx (fun y hy hyg => hone y hy (hyg.trans hxg))]
      simpa using hmem
    rw [exec_cpyg, State.copyEntry_enters hc hq ht (by simp) (fun _ => ⟨hres, hin⟩), State.queueCopy_eq]
    rfl
  · have htok : ¬ (t ≠ 0 ∧ isHandle (s.handle t) = false) := fun h => ht.elim h.1 (by simp [h.2])
    rw [exec_cpyg, State.copyEntry_clean hc hq, if_neg (by simp [hres]), if_neg htok, if_pos ⟨rfl, State.enrolled_noGroup hno _ _⟩]
  · rw [exec_cpy, State.copyEntry_clean hc hq, if_pos (.inl ⟨rfl, hlen⟩)]
  · rw [exec_cpy, State.copyEntry_clean hc hq, if_neg (by simp [hlen]), if_pos ⟨ht, hh⟩]

end Sys2Proof.Machine
end

section
/-!
PROOFS. GroupAndStrandInstructions: group changes (R234), barrier arrivals (R237), the spawn intake (R239) and a strand's exit (R240).
-/
namespace Sys2Proof.Machine

/-- The gang of the strand in the slot, where no other gang of the list has its number. -/
theorem State.myGang_only {s : State} {g : Gang} (h : Claims.onlyGang s g) : s.myGang = some g := by
  rw [State.myGang, State.gang?, h.1, List.find?_cons_of_pos (by simpa using h.2)]

theorem State.gang?_modGang_only {s : State} {g : Gang} (h : s.gangs = [g]) {f : Gang → Gang} (hf : (f g).id = g.id) : (s.modGang g.id f).gang? g.id = some (f g) := by
  rw [State.gang?, State.modGang_only h, List.find?_cons_of_pos (by simpa using hf)]

/-- R437: with nothing outstanding and no note, what waits for a release goes on. -/
theorem State.afterRelease_quiet {s : State} (h : Claims.Quiet s) (hn : s.core.st.notes = 0) (scope : Nat) (k : Out) : s.afterRelease scope k = k := by
  have hrel : s.released scope = true := State.performed_of_quiet h 31 scope
  rw [State.afterRelease, hn, if_neg (by decide), if_pos hrel]

/-! ## Group changes -/

/-- R234: the number of the group, s[a] + imm in twelve bits. -/
theorem groupNumber (x : Word) (i : BitVec 12) : (x + i.setWidth 64).toNat % 4096 = (x.toNat + i.toNat) % 4096 := by
  rw [BitVec.toNat_add, BitVec.toNat_setWidth]
  omega

/-- R234: a change that has not been asked for goes to the command processor. -/
theorem State.groupChange_asks {s : State} {join : Bool} {a : BitVec 5} {i : BitVec 12} (hc : Claims.Clean s [a]) (hg : s.groups = [])
    (ha : s.core.st.answers = []) (hq : s.core.st.asked = false) :
    s.groupChange join a i = .next { Claims.withSt s { s.core.st with asked := true, askedAt := s.now } with
      groupReqs := s.groupReqs ++ [⟨join, ((s.reg a).toNat + i.toNat) % 4096, s.core.st.gang, s.core.st.rank⟩] } := by
  have hnone : s.group? (((s.reg a).toNat + i.toNat) % 4096) = none := by rw [State.group?, hg, List.find?_nil]
  have hno : s.core.st.answers.head? = none := by rw [ha, List.head?_nil]
  rw [State.groupChange, State.chkRegs_clean hc, State.given_ok, groupNumber]
  simp only [hno, hq, hnone, Bool.false_eq_true, if_false]
  rfl

/-- R234: acknowledged with status 0, it completes. -/
theorem State.groupChange_acknowledged {s : State} {join : Bool} {a : BitVec 5} {i : BitVec 12} (hc : Claims.Clean s [a]) {x : Answer}
    (ha : s.core.st.answers = [x]) (hx : x.status = 0) : s.groupChange join a i = .next (Claims.withSt s (Claims.stepped s.core.st)) := by
  rw [State.groupChange, State.chkRegs_clean hc, State.given_ok]
  simp only [ha, hx, List.head?_cons, bne_self_eq_false, Bool.false_eq_true, if_false]
  rfl

/-! ## Arrivals at a barrier -/

/-- R345: an arrival changes the gang's arrivals and the order of its cores. -/
theorem Gang.arrive_eq (g : Gang) (rank : Nat) (h : Option (BitVec 32)) :
    ∃ order, g.arrive rank h = { g with arrived := g.arrived ++ [⟨rank, h⟩], coreOrder := order } := ⟨_, rfl⟩

/-- R237: a phase in which a rank that counts has not arrived is not done. -/
theorem Gang.phaseDone_missing {g : Gang} {r : Nat} (hr : r < g.size) (hout : g.out r = false) (hno : ∀ x ∈ g.arrived, x.rank ≠ r) : g.phaseDone = false := by
  have hnot : g.arrived.any (fun x => x.rank == r) = false := by simpa using hno
  have hall : (List.range g.size).all (fun r => g.out r || g.arrived.any (fun a => a.rank == r)) = false :=
    List.all_eq_false.2 ⟨r, List.mem_range.2 hr, by simp [hout, hnot]⟩
  rw [Gang.phaseDone, hall, Bool.and_false]

/-- The phase of a gang is not done by one arrival where another rank has still to come. -/
theorem Gang.phaseDone_arrive {g : Gang} {rank r : Nat} (ha : g.arrived = []) (hr : r < g.size) (hne : r ≠ rank) (hout : g.out r = false) (h : Option (BitVec 32)) :
    (g.arrive rank h).phaseDone = false := by
  obtain ⟨order, heq⟩ := g.arrive_eq rank h
  rw [heq]
  exact Gang.phaseDone_missing (r := r) hr hout (by simpa [ha] using hne.symm)

theorem Gang.out_eq_false {g : Gang} {r : Nat} (he : ∀ e ∈ g.exited, e.rank ≠ r) (hc : r ∉ g.contained) : g.out r = false := by
  have hexit : g.exited.any (fun e => e.rank == r) = false := by simpa using he
  simp [Gang.out, hexit, hc]

/-- A phase that is not done stays as it is. -/
theorem State.completePhase_open {s : State} {g : Gang} {gid : Nat} (hg : s.gang? gid = some g) (h : g.phaseDone = false) : s.completePhase gid = s := by
  simp [State.completePhase, hg, h]

/-- R36: an increment of an own token. -/
theorem State.toToken_raise {s : State} {r : BitVec 5} {k : Token} (h : Claims.ownHandle s r k) (asid : Nat) {m : TokMsg} (hm : m.handle = s.handle r) (hk : m.kind = 0) :
    s.toToken m asid = s.modCore (fun c => c.modToken k.slot (fun t => t.incr none)) := by
  obtain ⟨-, hdev, hcore, hslot⟩ := ownHandle_fields h
  rw [State.toToken, hm, hdev, hcore, hslot, hk, beq_self_eq_true, if_pos rfl, beq_self_eq_true, if_pos rfl]
  exact State.modCoreAt_self rfl rfl

/-- R225: pending is not at its limit. -/
theorem State.tokenFull_own {s : State} {r : BitVec 5} {k : Token} (h : Claims.ownHandle s r k) (hp : k.pend < 0xFFFF) : s.tokenFull (s.handle r) = false := by
  obtain ⟨-, -, hcore, hslot⟩ := ownHandle_fields h
  obtain ⟨-, -, -, -, hfind, -, -⟩ := h
  have hk : s.core.token? k.slot = some k := hfind
  simp [State.tokenFull, hcore, hslot, hk, hp]

/-- R237: BAR with an own token's handle. -/
theorem exec_bar_token {s : State} {a : BitVec 5} {g : Gang} {k : Token} (hc : Claims.Clean s [a]) (hq : Claims.Quiet s) (hone : Claims.onlyGang s g) (hn : s.core.st.notes = 0)
    (ha : g.arrived = []) (hk : Claims.ownHandle s a k) (h0 : s.handle a ≠ 0) (hp : k.pend < 0xFFFF) (hopen : ∀ h, (g.arrive s.core.st.rank h).phaseDone = false) :
    exec (.bar a) s = .next ((s.modCore (fun c => c.modToken k.slot (fun t => t.incr none))).modGang g.id (fun g => g.arrive s.core.st.rank (some (s.handle a)))).finishQ := by
  have hafter : ((s.modCore (fun c => c.modToken k.slot (fun t => t.incr none))).modGang g.id (fun g => g.arrive s.core.st.rank (some (s.handle a)))).gang? g.id
      = some (g.arrive s.core.st.rank (some (s.handle a))) := State.gang?_modGang_only hone.1 rfl
  change execBar a s = _
  rw [execBar, State.chkRegs_clean hc, State.given_ok]
  simp only [h0, if_false, State.ownToken_own hk, State.myGang_only hone, ha, List.any_nil, State.tokenFull_own hk hp, Bool.or_self, Bool.false_eq_true]
  rw [State.afterRelease_quiet hq hn, State.toToken_raise hk _ rfl rfl, State.completePhase_open hafter (hopen _)]

/-- R237: BAR with handle 0. -/
theorem exec_bar_wait {s : State} {a : BitVec 5} {g : Gang} (hc : Claims.Clean s [a]) (hq : Claims.Quiet s) (hone : Claims.onlyGang s g) (hn : s.core.st.notes = 0)
    (ha : g.arrived = []) (h0 : s.handle a = 0) (hu : Claims.maySuspend s.core.st) (hk : Claims.kSound s [3]) (hopen : ∀ h, (g.arrive s.core.st.rank h).phaseDone = false) :
    exec (.bar a) s = .next ((s.modGang g.id (fun g => g.arrive s.core.st.rank none)).suspend .barrier s.core.st.klm (s.core.st.pc + 4) s.core.st.pc) := by
  have huser : ¬ (s.core.st.kMode || s.core.st.uin) = true := fun h => inUser_of_maySuspend.1 h hu
  change execBar a s = _
  rw [execBar, State.chkRegs_clean hc, State.given_ok]
  simp only [h0, if_true, if_neg huser, State.myGang_only hone, ha, List.any_nil, Bool.false_eq_true, if_false]
  rw [State.afterRelease_quiet hq hn, hopen none, Bool.false_and, if_neg Bool.false_ne_true, State.chkK_sound hk, State.given_ok]

/-- An arrival leaves where images find room. -/
theorem State.findRoom_arrive (s : State) (gid rank : Nat) (h : Option (BitVec 32)) (k : Core) (t : Strand) (n : Nat) :
    (s.modGang gid (fun g => g.arrive rank h)).findRoom k t n = s.findRoom k t n := by
  have hruns : ∀ n, (s.modGang gid (fun g => g.arrive rank h)).saveRuns t n = s.saveRuns t n := by
    intro n
    have hfind : (s.modGang gid (fun g => g.arrive rank h)).gang? t.gang
        = (s.gang? t.gang).map (fun g => if g.id == gid then g.arrive rank h else g) := by
      refine find?_mapIf (fun x => ?_) s.gangs
      split <;> rfl
    rw [State.saveRuns, State.saveRuns, hfind]
    cases s.gang? t.gang with
    | none => rfl
    | some g =>
      dsimp only [Option.map_some]
      by_cases hg : (g.id == gid) = true
      · rw [if_pos hg]; rfl
      · rw [if_neg hg]
  unfold State.findRoom State.roomFor
  simp only [hruns]
  rfl

theorem State.suspend_gangs (s : State) (w : Wait) (live : Word) (pc wpc : Pc) : (s.suspend w live pc wpc).gangs = s.gangs := by
  have hspill (n : Nat) : (s.spill s.core.st n).gangs = s.gangs := State.gangs_of_sansMem (s.spill_sansMem _ _)
  unfold State.suspend
  dsimp only
  split
  next im _ => exact hspill im.saveKiB
  next => split <;> rfl

/-! ## SPAWN -/

/-- A read of n bytes is below 256^n. -/
theorem readNat_lt (m : Memory) (a n : Nat) : readNat m a n < 256 ^ n := by
  induction n generalizing a with
  | zero => exact Nat.one_pos
  | succ n ih =>
    have hbyte : (readByte m a).toNat < 256 := (readByte m a).isLt
    have hrest := ih (a + 1)
    rw [readNat, Nat.pow_succ]
    omega

/-- The upper bytes of a read. -/
theorem readNat_div (m : Memory) (a : Nat) {n j : Nat} (h : j ≤ n) : readNat m a n / 256 ^ j = readNat m (a + j) (n - j) := by
  have hsplit : readNat m a n = readNat m a j + 256 ^ j * readNat m (a + j) (n - j) := by
    rw [← readNat_append, Nat.add_sub_cancel' h]
  rw [hsplit, Nat.add_mul_div_left _ _ (Nat.pow_pos (by decide)), Nat.div_eq_of_lt (readNat_lt m a j), Nat.zero_add]

/-- A double word inside a longer read. -/
theorem dword_of_readNat (m : Memory) (a : Nat) {n j : Nat} (h : 8 * j + 8 ≤ n) : BitVec.ofNat 64 (readNat m a n / 2 ^ (64 * j)) = BitVec.ofNat 64 (readNat m (a + 8 * j) 8) := by
  have hrest : readNat m (a + 8 * j) (n - 8 * j) = readNat m (a + 8 * j) 8 + 2 ^ 64 * readNat m (a + 8 * j + 8) (n - 8 * j - 8) := by
    rw [show (2 : Nat) ^ 64 = 256 ^ 8 by norm_num, ← readNat_append, Nat.add_sub_cancel' (by omega)]
  have hpow : (2 : Nat) ^ (64 * j) = 256 ^ (8 * j) := by
    rw [show (256 : Nat) = 2 ^ 8 by norm_num, ← Nat.pow_mul, ← Nat.mul_assoc]
  apply BitVec.eq_of_toNat_eq
  rw [hpow, readNat_div m a (by omega), hrest, BitVec.toNat_ofNat, BitVec.toNat_ofNat, Nat.add_mul_mod_self_left]

/-- The packet at an offset of the own scratchpad, as SPAWN reads it. -/
def Core.packetAt (k : Core) (off : Nat) : List Word := (List.range 8).map (fun j => BitVec.ofNat 64 (readNat k.pad (off + 8 * j) 8))

/-- The packet of SPAWN that its first word sends to this device. -/
def State.spawnOf (s : State) (g : Gang) (d : BitVec 5) (ws : List Word) : Spawn :=
  ⟨ws, s.core.st.gang, s.core.st.rank, d.toNat, g.kasid, g.task.queue, g.task.prio, g.kptbase, g.homeStvec, 0, 0⟩

/-- R239: a clean packet in the own scratchpad is read as it stands. -/
theorem State.spawnRead_pad {s : State} {off : Nat} (hpsn : s.core.padPsnIn off 64 = false) (d : BitVec 5) (ea : Word) (x : Xlat) :
    s.spawnRead d ea (.local_ off) x = s.spawnGo d (Core.packetAt s.core off) := by
  have hpacket : (List.range 8).map (fun i => BitVec.ofNat 64 (readNat s.core.pad off 64 / 2 ^ (64 * i))) = Core.packetAt s.core off :=
    List.map_congr_left (fun j hj => dword_of_readNat _ _ (by have := List.mem_range.1 hj; omega))
  change (if s.core.padPsnIn off 64 then _ else s.spawnGo d ((List.range 8).map (fun i => BitVec.ofNat 64 (readNat s.core.pad off 64 / 2 ^ (64 * i))))) = _
  rw [hpsn, if_neg Bool.false_ne_true, hpacket]

/-- R239: with nothing of the strand outstanding, SPAWN of a packet in the own scratchpad. -/
theorem exec_spawn {s : State} {d a : BitVec 5} {o : Nat} (hc : Claims.Clean s [a]) (hq : Claims.Quiet s) (hn : s.core.st.notes = 0) (hpad : Claims.ownPad s (s.reg a) o)
    (ho : o % 64 = 0) (hpsn : s.core.padPsnIn (s.core.st.allotBase + o) 64 = false) :
    exec (.spawn d a) s = s.spawnGo d (Core.packetAt s.core (s.core.st.allotBase + o)) := by
  have halign : (s.reg a).toNat % 64 = 0 := by
    rw [hpad.1]
    omega
  change execSpawn d a s = _
  rw [execSpawn, State.chkRegs_clean hc, State.given_ok]
  simp only [halign, bne_self_eq_false, Bool.false_eq_true, if_false, State.xlate_ownPad hpad, windowXlat_permits_load, Bool.not_true, Bool.false_or, Place.isCtl]
  rw [State.afterRelease_quiet hq hn, State.spawnRead_pad hpsn]

/-- R239, R336: a packet for device 0 is taken into the intake of this one where it has room. -/
theorem State.spawnGo_here {s : State} {g : Gang} (h : s.myGang = some g) {d : BitVec 5} {ws : List Word} (hdev : bits (ws.headD 0).toNat 40 32 = 0) (hroom : s.intakeUsed < Config.intakeMax) :
    s.spawnGo d ws = .next (({ s with spawns := s.spawns ++ [State.spawnOf s g d ws] }).setMark d .pending).finish := by
  simp only [State.spawnGo, h, hdev, State.isHere, beq_self_eq_true, Bool.true_or, if_true, if_neg (Nat.not_le.2 hroom)]
  rfl

/-- R42: the register awaits its answer. -/
theorem Strand.setMark_eq {t : Strand} {d : BitVec 5} (h : d ≠ 0) (m : RegMark) : t.setMark d.toNat m = { t with marks := t.marks.set d.toNat m } := by
  have hd : d.toNat ≠ 0 := fun h0 => h (BitVec.eq_of_toNat_eq h0)
  have hset : t.marks.setIfInBounds d.toNat m = t.marks.set d.toNat m := setIfInBounds_eq_set t.marks d.toFin m
  rw [Strand.setMark, if_neg hd, hset]

/-! ## SEXIT -/

/-- A strand that is in no group leaves none. -/
theorem State.leaveAll_nil {s : State} (h : s.groups = []) (gang rank : Nat) : s.leaveAll gang rank = s := by
  rw [State.leaveAll, h]
  rfl

/-- R345: while no strand of the phase has arrived, no core has. -/
theorem Gang.ordered_of_arrived_nil {g : Gang} (h : g.arrived = []) : g.ordered = g := by
  unfold Gang.ordered
  extract_lets here whole new
  have hwhole (k : Nat) : whole k = false := by simp only [whole, h, List.any_nil, List.any_eq_false.2 (fun _ _ => Bool.false_ne_true), Bool.and_false]
  have hnew : new = [] := by simp [new, hwhole]
  rw [hnew, List.append_nil]

theorem Gang.phaseDone_nil {g : Gang} (h : g.arrived = []) : g.phaseDone = false := by
  simp [Gang.phaseDone, h]

/-- R240: the exit of a strand whose gang has no arrivals recorded. -/
theorem State.exitStrand_only {s : State} {g : Gang} (hone : Claims.onlyGang s g) (hgroups : s.groups = []) (ha : g.arrived = []) :
    s.exitStrand = (s.modGang g.id (fun g => ({ g with exited := g.exited ++ [⟨s.core.st.rank, s.core.st.pc, s.core.st.kMode, s.core.st.uin⟩] } : Gang).ordered)).vacate
      (fun t => { t with status := .exited, deferred := [], notes := 0, watchPass := false, wait := .none }) := by
  rw [State.exitStrand, State.leaveAll_nil hgroups, ← hone.2]
  refine State.completePhase_open (g := ({ g with exited := g.exited ++ [⟨s.core.st.rank, s.core.st.pc, s.core.st.kMode, s.core.st.uin⟩] } : Gang).ordered) ?_ ?_
  · exact State.gang?_modGang_only hone.1 rfl
  · exact Gang.phaseDone_nil (g := Gang.ordered _) ha

/-! ## The obligation -/

/-- Settles O36: each instruction by what its checks find where nothing is outstanding and the strand's gang is the only one. -/
theorem groupAndStrandInstructions : Obligations.GroupAndStrandInstructions := by
  unfold Obligations.GroupAndStrandInstructions
  intro s d a i g hc hq hone hn hgroups num t
  have hmine : s.myGang = some g := State.myGang_only hone
  refine ⟨fun ha hasked => ⟨State.groupChange_asks hc hgroups ha hasked, State.groupChange_asks hc hgroups ha hasked⟩,
    fun x ha hx => ⟨State.groupChange_acknowledged hc ha hx, State.groupChange_acknowledged hc ha hx⟩,
    fun ⟨r, hr, hne, hexit, hcont⟩ harr => ?_, fun o hpad ho hpsn hd hsp hspawned hdev => ?_, fun harr => ?_⟩
  · have hopen (h : Option (BitVec 32)) : (g.arrive t.rank h).phaseDone = false := Gang.phaseDone_arrive harr hr hne (Gang.out_eq_false hexit hcont) h
    rw [← State.handle_eq]
    refine ⟨fun k hk h0 hp hbad => ⟨_, exec_bar_token hc hq hone hn harr hk h0 hp hopen, ?_, ?_, ?_⟩, fun h0 hu hks hroom => ⟨_, exec_bar_wait hc hq hone hn harr h0 hu hks hopen, ?_, ?_⟩⟩
    · rw [State.finishQ_eq]
      rfl
    · have htok : Claims.tok s k.slot = some k := by
        obtain ⟨-, -, -, -, hfind, -, -⟩ := hk
        exact hfind
      have hincr : k.incr none = { k with pend := k.pend + 1 } := by simp [Token.incr, hbad]
      rw [State.finishQ_eq, ← hincr]
      exact Core.token?_modToken_same (k := s.core) (fun t => t.incr_slot none) htok
    · rw [State.finishQ_eq]
      exact ⟨_, State.modGang_only (s := s.modCore _) hone.1 _, by rw [Gang.arrive, Gang.ordered, harr]; rfl⟩
    · refine suspended_suspend (s := s.modGang g.id (fun g => g.arrive t.rank none)) ?_
      rw [Claims.hasRoom, State.findRoom_arrive]
      exact hroom
    · rw [State.suspend_gangs]
      exact ⟨_, State.modGang_only hone.1 _, by rw [Gang.arrive, Gang.ordered, harr]; rfl⟩
  · have hhere : bits ((Core.packetAt s.core (t.allotBase + o)).headD 0).toNat 40 32 = 0 := by
      have hhead : (Core.packetAt s.core (t.allotBase + o)).headD 0 = BitVec.ofNat 64 (readNat s.core.pad (t.allotBase + o) 8) := rfl
      have hlt : readNat s.core.pad (t.allotBase + o) 8 < 2 ^ 64 := readNat_lt _ _ 8
      rw [hhead, BitVec.toNat_ofNat, Nat.mod_eq_of_lt hlt]
      exact hdev
    have hroom : s.intakeUsed < Config.intakeMax := by
      rw [State.intakeUsed, hsp, hone.1]
      simp [hspawned, Config.intakeMax]
    refine ⟨_, State.spawnOf s g d (Core.packetAt s.core (t.allotBase + o)), (exec_spawn hc hq hn hpad ho hpsn).trans (State.spawnGo_here hmine hhere hroom), ?_, rfl, rfl, rfl, rfl, rfl, rfl, ?_⟩
    · change s.spawns ++ _ = _
      rw [hsp, List.nil_append]
    · rw [State.finish_eq]
      exact congrArg Claims.stepped (Strand.setMark_eq hd _)
  · have hexec : exec .sexit s = .next s.exitStrand := if_pos (State.performed_of_quiet hq 15 3)
    refine ⟨_, hexec, ?_⟩
    rw [State.exitStrand_only hone hgroups harr]
    refine ⟨rfl, rfl, rfl, rfl, ?_⟩
    refine (State.modGang_only hone.1 _).trans ?_
    exact congrArg (fun x => [x]) (Gang.ordered_of_arrived_nil harr)

end Sys2Proof.Machine
end

section
/-!
PROOFS. PorchAndGroups: pieces that wait at the porch for their group (R236), the fill that serves an entry (R282, R363), and the command processor's group changes (R234, R363).
-/
namespace Sys2Proof.Machine

/-! ## The tree of egress entries -/

theorem sublist_ite_nil {α : Type} {p : Prop} [Decidable p] {l m : List α} (h : l.Sublist m) : (if p then l else []).Sublist m := by
  split
  · exact h
  · exact m.nil_sublist

/-- R363: eastwards a fill reaches routers of its row in ascending order. -/
theorem State.alongRow_east (s : State) (g n r : Nat) : (s.alongRow g true n r).Sublist (List.range' r n) := by
  induction n generalizing r with
  | zero => exact List.Sublist.slnil
  | succ n ih =>
    rw [State.alongRow, List.range'_succ]
    exact (sublist_ite_nil (List.Sublist.refl [r])).append (sublist_ite_nil (ih (r + 1)))

/-- R363: westwards in descending order. -/
theorem State.alongRow_west (s : State) (g n r : Nat) (hn : n ≤ r + 1) : (s.alongRow g false n r).Sublist (List.range' (r + 1 - n) n).reverse := by
  induction n generalizing r with
  | zero => exact List.Sublist.slnil
  | succ n ih =>
    have hlow : r + 1 - (n + 1) + n = r := by omega
    rw [State.alongRow, List.range'_1_concat, List.reverse_append, hlow]
    refine (sublist_ite_nil (List.Sublist.refl [r])).append (sublist_ite_nil ?_)
    cases n with
    | zero => exact List.Sublist.slnil
    | succ n =>
      have hstart : r - 1 + 1 - (n + 1) = r + 1 - (n + 1 + 1) := by omega
      exact hstart ▸ ih (r - 1) (by omega)

/-- R363: in each row a fill from a hub die reaches a router once, and only routers of that row. -/
theorem State.alongRow_row (s : State) (g hub row : Nat) :
    (s.alongRow g (hub == 0) 9 (9 * row + (if hub = 0 then 0 else 8))).Nodup ∧ ∀ c ∈ s.alongRow g (hub == 0) 9 (9 * row + (if hub = 0 then 0 else 8)), c / 9 = row := by
  have hrow : ∀ c ∈ List.range' (9 * row) 9, c / 9 = row := fun c hc => by
    have := List.mem_range'_1.1 hc
    omega
  have hnodup : (List.range' (9 * row) 9).Nodup := List.nodup_range' _
  by_cases h : hub = 0
  · have hsub := s.alongRow_east g 9 (9 * row)
    simp only [h, beq_self_eq_true, if_true, Nat.add_zero]
    exact ⟨hsub.nodup hnodup, fun c hc => hrow c (hsub.subset hc)⟩
  · have hsub := s.alongRow_west g 9 (9 * row + 8) (by omega)
    simp only [h, beq_eq_false_iff_ne.mpr h, if_false]
    exact ⟨hsub.nodup (List.nodup_reverse.2 hnodup), fun c hc => hrow c (List.mem_reverse.1 (hsub.subset hc))⟩

/-- R363: a fill from a hub die reaches each core once. -/
theorem State.nodup_reached (s : State) (g hub : Nat) : (s.reached g hub).Nodup := by
  refine List.nodup_flatMap.2 ⟨fun row _ => (s.alongRow_row g hub row).1, List.nodup_range.imp (fun hne c hi hj => hne ?_)⟩
  rw [← (s.alongRow_row g hub _).2 c hi, (s.alongRow_row g hub _).2 c hj]

/-- A record that is picked at one key is picked once from keys without repetition. -/
theorem flatMap_key {α : Type} {ks : List Nat} (h : ks.Nodup) (k : Nat) (a : α) : ks.flatMap (fun c => if k == c then [a] else []) = if ks.contains k then [a] else [] := by
  induction ks with
  | nil => rfl
  | cons c r ih =>
    obtain ⟨hc, hr⟩ := List.nodup_cons.1 h
    rw [List.flatMap_cons, ih hr, List.contains_cons]
    by_cases hk : k = c
    · subst hk
      simp [hc]
    · simp [hk]

/-- R236, R363: a fill for one strand is sent to it once. -/
theorem State.inTree_single (s : State) (g hub : Nat) (m : Nat × Nat) : s.inTree g hub [m] = [m] := by
  have hkey := flatMap_key (s.nodup_reached g hub) (s.coreOf m.1 m.2) m
  unfold State.inTree
  extract_lets tree
  have hin : tree.flatMap (fun c => [m].filter (fun m => s.coreOf m.1 m.2 == c)) = if tree.contains (s.coreOf m.1 m.2) then [m] else [] := by
    rw [← hkey]
    congr
    funext c
    simp [List.filter_cons]
  rw [hin, List.filter_cons, List.filter_nil]
  cases tree.contains (s.coreOf m.1 m.2) <;> rfl

/-! ## Porch entries -/

/-- R234: the hold time of a group is 4,096 cycles where none is set. -/
theorem State.holdOf_eq (s : State) (g : Nat) : s.holdOf g = match s.holds.find? (fun h => h.1 == g) with | some h => h.2 | none => 4096 := by
  rw [State.holdOf]
  cases s.holds.find? (fun h => h.1 == g) <;> rfl

/-- R236: the entry that a piece opens. -/
def State.entryOf (s : State) (p : Piece) : Porch := ⟨p.src.slice, p.group, p.src, p.len, p.off, [(p.gang, p.rank, p.xfer)], s.now + s.holdOf p.group, false⟩

/-- R236: a strand enrolled in an entry's group has not asked for the piece. -/
theorem State.allArrived_missing {s : State} {p : Porch} {x : Group} {m : Nat × Nat} (hx : s.group? p.group = some x) (hm : m ∈ x.members)
    (hno : ∀ y ∈ p.members, (y.1, y.2.1) ≠ m) : s.allArrived p = false := by
  have hmiss : p.members.any (fun y => y.1 == m.1 && y.2.1 == m.2) = false := List.any_eq_false.2 (fun y hy h => by
    rw [Bool.and_eq_true, beq_iff_eq, beq_iff_eq] at h
    exact hno y hy (Prod.ext h.1 h.2))
  simp only [State.allArrived, hx]
  exact List.all_eq_false.2 ⟨m, hm, by simp [hmiss]⟩

/-- R236: the first request for a piece opens an entry that waits for the other strands. -/
theorem State.arrivePiece_opens {s : State} {p : Piece} {x : Group} {m : Nat × Nat} (hporch : s.porch = []) (hx : s.group? p.group = some x) (hm : m ∈ x.members)
    (hne : m ≠ (p.gang, p.rank)) : s.arrivePiece p = some { s with porch := [State.entryOf s p] } := by
  have hwait : State.allArrived { s with porch := [State.entryOf s p] } (State.entryOf s p) = false :=
    State.allArrived_missing (x := x) hx hm (fun y hy => by
      rw [List.mem_singleton.1 hy]
      exact hne.symm)
  have htest : State.testPorch { s with porch := [State.entryOf s p] } (State.entryOf s p) = { s with porch := [State.entryOf s p] } := by
    rw [State.testPorch, hwait, Bool.and_false, Bool.false_and, if_neg Bool.false_ne_true]
  have hroom : ¬ Config.porchMax ≤ 0 := by decide
  simp only [State.arrivePiece, hporch, List.filter_nil, List.isEmpty_nil, Bool.not_true, Bool.false_and, Bool.false_eq_true, if_false, List.find?_nil, List.countP_nil, hroom, List.nil_append]
  exact congrArg some htest

/-! ## Release -/

theorem State.fillMembers_porch (s : State) (members : List (Nat × Nat × Nat)) (group slice off data psn : Nat) :
    (s.fillMembers members group slice off data psn).porch = s.porch := by
  unfold State.fillMembers
  refine foldl_keeps (p := State.porch) (fun u m => ?_) _ s
  split <;> rfl

theorem State.porch_of_sansMem {s t : State} (h : t.sansMem = s.sansMem) : t.porch = s.porch := by
  change t.sansMem.porch = s.sansMem.porch
  rw [h]

theorem State.fills_of_sansMem {s t : State} (h : t.sansMem = s.sansMem) : t.fills = s.fills := by
  change t.sansMem.fills = s.sansMem.fills
  rw [h]

theorem State.xfers_of_sansMem {s t : State} (h : t.sansMem = s.sansMem) : t.xfers = s.xfers := by
  change t.sansMem.xfers = s.sansMem.xfers
  rw [h]

/-- A piece of memory is served without a change of the porch. -/
theorem State.serve_porch {s : State} {p : Porch} {pa key : Nat} (hp : p.src = .mem pa key) : (s.serve p).porch = s.porch := by
  simp only [State.serve, hp]
  exact (foldl_keeps (p := State.porch) (fun u t => u.fillMembers_porch _ _ _ _ _ _) _ _).trans (State.porch_of_sansMem (s.readLines_sansMem _ _ _ _ _))

/-- R236: an entry whose hold has run out is released, and stays for one more hold time. -/
theorem State.expire_due {s : State} {p : Porch} {pa key : Nat} (hrel : p.released = false) (hdue : p.expiry ≤ s.now) (hp : p.src = .mem pa key) (hinv : s.invals = []) :
    s.expire p = some (s.release p) := by
  have hserv : s.servable p = true := by simp [State.servable, hp, hinv]
  simp [State.expire, hrel, hdue, hserv]

theorem State.release_porch {s : State} {p : Porch} {pa key : Nat} (hporch : s.porch = [p]) (hp : p.src = .mem pa key) :
    (s.release p).porch = [{ p with released := true, expiry := s.now + s.holdOf p.group }] := by
  change ((s.serve p).porch.map _) = _
  rw [State.serve_porch hp, hporch, List.map_singleton, beq_self_eq_true, if_pos rfl]

/-- R282: the fill that one strand's whole tile goes out as. -/
def State.fillOf (s : State) (gi ri x slice off data psn : Nat) : Arrival :=
  { newArrival false x 0 (2 ^ 256 - 1) data psn (BitVec.ofNat 64 (s.kdev * 2 ^ 48 + ri * 2 ^ 32 + off)) with
    gang := gi, rank := ri, off := off, also := [], unit := 300 + slice, seq := s.stamp }

/-- R282: a tile for the only strand of an entry, whose load goes on, is one fill. -/
theorem State.fillMembers_single {s : State} {gi ri x : Nat} {y : Xfer} (hx : s.xfer? x = some y) (hy : y.failed = false) (group slice off data psn : Nat) :
    s.fillMembers [(gi, ri, x)] group slice off data psn = { s with fills := s.fills ++ [State.fillOf s gi ri x slice off data psn] } := by
  have hlive : [(gi, ri, x)].filter (fun m => match s.xfer? m.2.2 with | some x => !x.failed | none => false) = [(gi, ri, x)] := by simp [hx, hy]
  have hstrands : [(gi, ri, x)].foldl (fun l m => withPair l (m.1, m.2.1)) [] = [(gi, ri)] := rfl
  unfold State.fillMembers
  extract_lets live
  have hl : live = [(gi, ri, x)] := hlive
  rw [hl, hstrands, State.inTree_single, List.foldl_cons, List.foldl_nil]
  simp only [List.filter_cons, List.filter_nil, beq_self_eq_true, Bool.and_self, if_true, List.map_cons, List.map_nil]
  rfl

/-- R236, R282: serving an entry of one tile and one strand. -/
theorem State.serve_single {s : State} {p : Porch} {pa key gi ri x : Nat} {y : Xfer} (hp : p.src = .mem pa key) (hm : p.members = [(gi, ri, x)]) (hlen : p.len = 256)
    (hx : s.xfer? x = some y) (hy : y.failed = false) :
    ∃ e, (s.serve p).fills = s.fills ++ [e] ∧ e.gang = gi ∧ e.rank = ri ∧ e.off = p.off ∧ e.xfer = x ∧ e.last = true ∧ ∀ i, i < 256 → e.mask.getLsbD i = true := by
  have htiles : List.range (256 / 256) = [0] := rfl
  simp only [State.serve, hp, hm, hlen, htiles, List.foldl_cons, List.foldl_nil]
  have hmem := s.readLines_sansMem pa key 256 true (((s.gang? gi).map (·.kasid)).getD 0)
  have hx' : (s.readLines pa key 256 true (((s.gang? gi).map (·.kasid)).getD 0)).xfer? x = some y := by
    rw [State.xfer?, State.xfers_of_sansMem hmem]
    exact hx
  rw [State.fillMembers_single hx' hy]
  refine ⟨_, congrArg (· ++ _) (State.fills_of_sansMem hmem), rfl, rfl, rfl, rfl, rfl, fun i hi => ?_⟩
  change (BitVec.ofNat 256 (2 ^ 256 - 1)).getLsbD i = true
  rw [BitVec.getLsbD_ofNat, Nat.testBit_two_pow_sub_one]
  simp [hi]

/-! ## Group changes -/

/-- A find by key over records that a function lists where its value is not 0. -/
theorem find?_listed (f : Nat → BitVec 5) (g : Nat) {n r : Nat} (hr : r < n) :
    (((List.range n).filterMap (fun k => if f k = 0 then none else some ((k, g), f k))).find? (fun e => e.1 == (r, g))) = if f r = 0 then none else some ((r, g), f r) := by
  rw [List.find?_filterMap]
  by_cases h : f r = 0
  · rw [if_pos h, Option.bind_eq_none_iff]
    intro k hk
    have hkey := List.find?_some hk
    by_cases hfk : f k = 0
    · rw [if_pos hfk]
    · rw [if_neg hfk, Option.any_some, beq_iff_eq] at hkey
      obtain rfl : k = r := congrArg (·.1) hkey
      exact absurd h hfk
  · have hfirst : (List.range n).find? (fun k => (if f k = 0 then none else some ((k, g), f k)).any (fun e => e.1 == (r, g))) = some r := by
      rw [List.find?_range_eq_some]
      refine ⟨by rw [if_neg h, Option.any_some, beq_self_eq_true], List.mem_range.2 hr, fun k hk => ?_⟩
      by_cases hfk : f k = 0
      · rw [if_pos hfk]; rfl
      · have hkr : ((k, g) == (r, g)) = false := beq_eq_false_iff_ne.mpr (fun e => hk.ne (congrArg (·.1) e))
        rw [if_neg hfk, Option.any_some, hkr]
        rfl
    rw [hfirst, Option.bind_some]

/-- R363: the egress entries of a group after the command processor has written them, for a group whose strands are all on one core. -/
theorem State.egressAt_writeEgress {s : State} {x : Group} {c : Nat} (hx : s.group? x.g = some x) (hc : s.groupCores x = [c]) {r : Nat} (hr : r < 288) :
    (s.writeEgress x.g).egressAt r x.g = portsTowards r c := by
  have hold : (s.egress.filter (fun e => e.1.2 != x.g)).find? (fun e => e.1 == (r, x.g)) = none := List.find?_eq_none.2 (fun e he h => by
    have hne : e.1.2 ≠ x.g := by simpa using (List.mem_filter.1 he).2
    exact hne (congrArg Prod.snd (beq_iff_eq.1 h)))
  have hnew := find?_listed (fun k => portsTowards k c) x.g hr
  have hentries : (s.writeEgress x.g).egress = s.egress.filter (fun e => e.1.2 != x.g)
      ++ (List.range 288).filterMap (fun k => if portsTowards k c = 0 then none else some ((k, x.g), portsTowards k c)) := by
    simp [State.writeEgress, hx, hc, Config.cores]
  rw [State.egressAt, hentries, List.find?_append, hold, Option.none_or, hnew]
  split
  next h => exact h.symm
  next => rfl

/-- R234: a group of one strand, which is in the slot, is on this core alone. -/
theorem State.groupCores_slot {s : State} {gi ri : Nat} (h : Claims.slotIs s gi ri) (g asid : Nat) : s.groupCores ⟨g, asid, [(gi, ri)]⟩ = [s.core.id] := by
  rw [State.groupCores, List.filterMap_cons, State.strand?_slot h, List.filterMap_nil]
  rfl

/-- R234: the answer of a group change to its strand, which waits in the slot. -/
def State.groupAnswered (s : State) : State := s.modSt (fun t => { t with answers := [⟨0, 0, false, 0⟩] })

theorem State.modStrand_asked {s : State} {gi ri : Nat} (h : Claims.slotIs s gi ri) (hask : s.core.st.asked = true) :
    s.modStrand gi ri (fun t => if t.asked then { t with answers := [⟨0, 0, false, 0⟩] } else t) = State.groupAnswered s := by
  rw [State.modStrand_slot h]
  simp only [State.groupAnswered, State.modSt, hask, if_true]

/-- R234: a GJOIN of a group that is not yet bound. -/
theorem State.ackGroup_join {s : State} {q : GroupReq} {g : Gang} (hj : q.join = true) (hslot : Claims.slotIs s q.gang q.rank) (hgang : s.gang? q.gang = some g)
    (hask : s.core.st.asked = true) (hnone : s.groups = []) :
    s.ackGroup q = some (State.groupAnswered (({ s with groupReqs := s.groupReqs.erase q } : State).joinGroup q.g g.kasid q.gang q.rank)) := by
  have hnew : s.group? q.g = none := by rw [State.group?, hnone, List.find?_nil]
  simp only [State.ackGroup, hnew, hj, hgang, Option.map_some, Option.getD_some, Bool.false_eq_true, if_false, if_true]
  exact congrArg some (State.modStrand_asked (s := State.joinGroup _ q.g g.kasid q.gang q.rank) hslot hask)

/-- R234: the group of a GJOIN that finds none bound. -/
theorem State.joinGroup_new {s : State} (h : s.groups = []) (g asid gang rank : Nat) :
    s.joinGroup g asid gang rank = ({ s with groups := [⟨g, asid, [(gang, rank)]⟩] } : State).writeEgress g := by
  have hnew : s.group? g = none := by rw [State.group?, h, List.find?_nil]
  simp only [State.joinGroup, hnew, h, List.nil_append]

/-- R234, R235: the last strand of the only group leaves it, while no piece waits. -/
theorem State.leaveGroup_last {s : State} {x : Group} {gang rank : Nat} (h : s.groups = [x]) (hm : x.members = [(gang, rank)]) (hporch : s.porch = []) :
    s.leaveGroup x.g gang rank = ({ s with groups := [] } : State).writeEgress x.g := by
  have hin : s.enrolled x.g gang rank = true := by
    rw [State.enrolled, State.group?, h, List.find?_cons_of_pos (by simp)]
    simp [hm]
  have hout : (mapIf (fun y : Group => y.g == x.g) (fun y => { y with members := y.members.filter (fun m => m != (gang, rank)) }) s.groups).filter (fun y => !y.members.isEmpty) = [] := by
    simp [h, mapIf, hm]
  simp only [State.leaveGroup, hin, Bool.not_true, Bool.false_eq_true, if_false]
  rw [hout, State.retest]
  change List.foldl _ _ (s.porch.filter _) = _
  rw [hporch]
  rfl

/-- R234: a GLEAVE that leaves nothing to wait for. -/
theorem State.ackGroup_leave {s : State} {q : GroupReq} {g : Gang} {x : Group} (hj : q.join = false) (hslot : Claims.slotIs s q.gang q.rank) (hgang : s.gang? q.gang = some g)
    (hask : s.core.st.asked = true) (hone : s.groups = [x]) (hx : x.g = q.g) (hm : x.members = [(q.gang, q.rank)]) (hasid : x.asid = g.kasid) (hfills : s.fills = []) (hporch : s.porch = []) :
    s.ackGroup q = some (State.groupAnswered (({ s with groupReqs := s.groupReqs.erase q, groups := [] } : State).writeEgress x.g)) := by
  have hfound : s.group? q.g = some x := by rw [State.group?, hone, List.find?_cons_of_pos (by simpa using hx)]
  have hlanded : ¬ (s.enrolled q.g q.gang q.rank && s.fills.any (fun a => a.gang == q.gang && a.rank == q.rank)) = true := by simp [hfills]
  have hleft : ({ s with groupReqs := s.groupReqs.erase q } : State).leaveGroup q.g q.gang q.rank = ({ s with groupReqs := s.groupReqs.erase q, groups := [] } : State).writeEgress x.g := by
    rw [← hx]
    exact State.leaveGroup_last (s := { s with groupReqs := s.groupReqs.erase q }) hone hm hporch
  simp only [State.ackGroup, hfound, hj, hgang, hasid, Option.map_some, Option.getD_some, Bool.false_eq_true, if_false, bne_self_eq_false, hlanded, hleft]
  exact congrArg some (State.modStrand_asked (s := State.writeEgress _ x.g) hslot hask)

/-- The answer of an event that finds its first occurrence. -/
theorem State.event_nth {α : Type} {s t : State} {f : α → Option State} {a : α} {l : List α} (hp : s.pick = 0) (h : f a = some t) : s.event (nth f s.pick (a :: l)) = .next t := by
  rw [nth_head hp h]
  rfl

/-- Settles O41: each event at the first of its list, by what opening, releasing, forgetting and acknowledging do. -/
theorem porchAndGroups : Obligations.PorchAndGroups := by
  unfold Obligations.PorchAndGroups
  intro s hp hold
  have hholds (g : Nat) : s.holdOf g = hold g := s.holdOf_eq g
  refine ⟨fun p r x m hpieces hporch hgroups hx hm hne => ?_, fun p pa key hporch hrel hdue hsrc hinv => ?_, fun p r hporch hrel hdue => ?_,
    fun q hreq hj hslot hask hgroups => ?_, fun q x hreq hj hslot hask hgroups hx hm hasid hfills hporch => ?_⟩
  · have hfound : s.group? p.group = some x := by rw [State.group?, hgroups, List.find?_cons_of_pos (by simpa using hx)]
    have hopens : State.arrivePiece { s with pieces := s.pieces.erase p } p = some { s with pieces := r, porch := [State.entryOf s p] } := by
      rw [hpieces, List.erase_cons_head]
      exact State.arrivePiece_opens (s := { s with pieces := r }) hporch hfound hm hne
    have hexec : exec .porchRequest s = .next { s with pieces := r, porch := [State.entryOf s p] } := by
      change s.event (nth _ s.pick s.pieces) = _
      rw [hpieces] at hopens ⊢
      exact State.event_nth hp hopens
    exact ⟨_, State.entryOf s p, hexec, rfl, rfl, rfl, congrArg (s.now + ·) (hholds p.group), rfl, rfl, rfl, rfl, rfl, rfl, rfl⟩
  · have hexec : exec .holdExpiry s = .next (s.release p) := by
      change s.event (nth _ s.pick s.porch) = _
      rw [hporch]
      exact State.event_nth hp (State.expire_due hrel hdue hsrc hinv)
    refine ⟨_, hexec, ?_, fun gi ri x y hmem hlen hx hy => State.serve_single hsrc hmem hlen hx hy⟩
    rw [State.release_porch hporch hsrc, hholds]
  · have hforget : s.forget p = some { s with porch := r } := by simp [State.forget, hrel, hdue, hporch]
    change s.event (nth _ s.pick s.porch) = _
    rw [hporch]
    exact State.event_nth hp hforget
  · obtain ⟨⟨g, hgang, -⟩, -⟩ := id hslot
    have hexec : exec .groupChangeAck s = .next (State.groupAnswered (({ s with groupReqs := s.groupReqs.erase q } : State).joinGroup q.g g.kasid q.gang q.rank)) := by
      change s.event (nth _ s.pick s.groupReqs) = _
      rw [hreq]
      exact State.event_nth hp (hreq ▸ State.ackGroup_join hj hslot hgang hask hgroups)
    rw [State.joinGroup_new (s := { s with groupReqs := s.groupReqs.erase q }) hgroups] at hexec
    refine ⟨_, ⟨q.g, g.kasid, [(q.gang, q.rank)]⟩, hexec, ?_, rfl, rfl, rfl, fun g' hg' => ?_, fun r hr => ?_, rfl⟩
    · change s.groupReqs.erase q = []
      rw [hreq, List.erase_cons_head]
    · rw [hgang] at hg'
      rw [Option.some.inj hg']
    · refine (State.egressAt_writeEgress (s := { s with groupReqs := s.groupReqs.erase q, groups := [⟨q.g, g.kasid, [(q.gang, q.rank)]⟩] }) (x := ⟨q.g, g.kasid, [(q.gang, q.rank)]⟩) (c := s.core.id) ?_ ?_ hr).trans ?_
      · exact List.find?_cons_of_pos (by simp)
      · exact State.groupCores_slot (s := { s with groupReqs := s.groupReqs.erase q, groups := [⟨q.g, g.kasid, [(q.gang, q.rank)]⟩] }) hslot q.g g.kasid
      · rw [portsTowards]
        simp only [bne_iff_ne]
  · obtain ⟨⟨g, hgang, -⟩, -⟩ := id hslot
    have hexec : exec .groupChangeAck s = .next (State.groupAnswered (({ s with groupReqs := s.groupReqs.erase q, groups := [] } : State).writeEgress x.g)) := by
      change s.event (nth _ s.pick s.groupReqs) = _
      rw [hreq]
      exact State.event_nth hp (hreq ▸ State.ackGroup_leave hj hslot hgang hask hgroups hx hm (hasid g hgang) hfills hporch)
    refine ⟨_, hexec, ?_, rfl, rfl⟩
    change s.groupReqs.erase q = []
    rw [hreq, List.erase_cons_head]

end Sys2Proof.Machine
end

section
/-!
PROOFS. Rules about the bytes of a core's scratchpad: what it reads after bytes have been put there (R79, R231).
-/
namespace Sys2Proof.Machine

/-- One byte of a longer read. -/
theorem byte_of_readNat (m : Memory) (a : Nat) {n j : Nat} (h : j < n) : BitVec.ofNat 8 (readNat m a n / 256 ^ j) = readByte m (a + j) := by
  have hrest : readNat m (a + j) (n - j) = (readByte m (a + j)).toNat + 256 * readNat m (a + j + 1) (n - j - 1) := by
    rw [← readNat, Nat.succ_eq_add_one, Nat.sub_add_cancel (by omega)]
  have hbyte : (readByte m (a + j)).toNat < 256 := (readByte m (a + j)).isLt
  apply BitVec.eq_of_toNat_eq
  rw [readNat_div m a (by omega), hrest, BitVec.toNat_ofNat, Nat.add_mul_mod_self_left, Nat.mod_eq_of_lt hbyte]

/-- A byte written alone. -/
theorem readByte_writeNat_one (m : Memory) (a v b : Nat) : readByte (writeNat m a 1 v) b = if b = a then BitVec.ofNat 8 v else readByte m b := by
  split
  next h =>
    have hin := readByte_writeNat_in m a 1 v 0 (by decide)
    rw [h]
    simpa using hin
  next h => exact readByte_writeNat_out m a 1 v b (by omega)

/-- R79: bytes written under a mask. -/
theorem readByte_writeMasked (m : Memory) (a n mask v b : Nat) :
    readByte (writeMasked m a n mask v) b = if a ≤ b ∧ b < a + n ∧ bit mask (b - a) = true then BitVec.ofNat 8 (v / 256 ^ (b - a)) else readByte m b := by
  induction n with
  | zero => simp only [Nat.add_zero]; rw [if_neg (by omega)]; rfl
  | succ n ih =>
    have hstep : writeMasked m a (n + 1) mask v = if bit mask n then writeNat (writeMasked m a n mask v) (a + n) 1 (v / 256 ^ n % 256) else writeMasked m a n mask v := by
      rw [writeMasked, List.range_succ, List.foldl_append]
      rfl
    have hbyte : BitVec.ofNat 8 (v / 256 ^ n % 256) = BitVec.ofNat 8 (v / 256 ^ n) := BitVec.eq_of_toNat_eq (by simp)
    rw [hstep, apply_ite (fun m => readByte m b), readByte_writeNat_one, ih]
    by_cases hb : b = a + n
    · subst hb
      simp [hbyte]
    · have hreach : (a ≤ b ∧ b < a + (n + 1) ∧ bit mask (b - a) = true) ↔ (a ≤ b ∧ b < a + n ∧ bit mask (b - a) = true) :=
        and_congr_right fun _ => and_congr_left fun _ => by omega
      simp only [hb, if_false, ite_self, hreach]

theorem bit_eq_testBit (x i : Nat) : bit x i = x.testBit i := by
  rw [bit, Nat.testBit_eq_decide_div_mod_eq]
  rfl

/-- The bits of a run of ones. -/
theorem bit_ones (n lo i : Nat) : bit ((2 ^ n - 1) * 2 ^ lo) i = true ↔ lo ≤ i ∧ i < lo + n := by
  rw [bit_eq_testBit, Nat.testBit_mul_two_pow, Nat.testBit_two_pow_sub_one]
  simp only [Bool.and_eq_true, decide_eq_true_eq]
  omega

/-- R79: what a granule of the scratchpad reads after bytes of it are written. -/
theorem Core.readByte_padGran (k : Core) (g mask v : Nat) (psn : Bool) (b : Nat) :
    readByte (k.padGran g mask v psn).pad b = if 64 * g ≤ b ∧ b < 64 * g + 64 ∧ bit mask (b - 64 * g) = true then BitVec.ofNat 8 (v / 256 ^ (b - 64 * g)) else readByte k.pad b := by
  by_cases hwhole : (mask % 2 ^ 64 == 2 ^ 64 - 1) = true
  · have hpad : (k.padGran g mask v psn).pad = writeNat k.pad (64 * g) 64 v := if_pos hwhole
    rw [hpad]
    by_cases hb : 64 * g ≤ b ∧ b < 64 * g + 64
    · obtain ⟨hlo, hhi⟩ := hb
      have hbit : bit mask (b - 64 * g) = true := by
        have hones : (mask % 2 ^ 64).testBit (b - 64 * g) = true := by
          rw [beq_iff_eq.1 hwhole, Nat.testBit_two_pow_sub_one]
          exact decide_eq_true (by omega)
        rw [Nat.testBit_mod_two_pow, Bool.and_eq_true] at hones
        rw [bit_eq_testBit, hones.2]
      have hin := readByte_writeNat_in k.pad (64 * g) 64 v (b - 64 * g) (by omega)
      rw [Nat.add_sub_cancel' hlo] at hin
      rw [if_pos ⟨hlo, hhi, hbit⟩, hin]
    · rw [if_neg (fun h => hb ⟨h.1, h.2.1⟩)]
      exact readByte_writeNat_out _ _ _ _ _ (by omega)
  · have hpad : (k.padGran g mask v psn).pad = writeMasked k.pad (64 * g) 64 mask v := if_neg hwhole
    rw [hpad, readByte_writeMasked]

/-- The part of a run of bytes that lies in a granule: its first byte and its end. -/
def granFrom (off g : Nat) : Nat := max off (64 * g)
def granTo (off n g : Nat) : Nat := min (off + n) (64 * g + 64)

/-- The bytes of a run that lie in a granule, written there. -/
def Core.granPut (off n v bad : Nat) (k : Core) (g : Nat) : Core :=
  k.padGran g ((2 ^ (granTo off n g - granFrom off g) - 1) * 2 ^ (granFrom off g - 64 * g))
    (v / 256 ^ (granFrom off g - off) % 256 ^ (granTo off n g - granFrom off g) * 256 ^ (granFrom off g - 64 * g))
    (bad / 2 ^ (granFrom off g - off) % 2 ^ (granTo off n g - granFrom off g) != 0)

theorem Core.padPut_eq_foldl (k : Core) (off n v bad : Nat) :
    k.padPut off n v bad = ((List.range ((off + n + 63) / 64 - off / 64)).map (· + off / 64)).foldl (Core.granPut off n v bad) k := rfl

theorem Core.padPut_id (k : Core) (off n v bad : Nat) : (k.padPut off n v bad).id = k.id := by
  rw [Core.padPut_eq_foldl]
  exact List.foldlRecOn (motive := fun c : Core => c.id = k.id) _ _ rfl (fun _ h _ _ => h)

/-- A byte of a granule's part of a value. -/
theorem ofNat_part (v : Nat) {lo len i : Nat} (hlo : lo ≤ i) (hi : i < lo + len) (skip : Nat) :
    BitVec.ofNat 8 (v / 256 ^ skip % 256 ^ len * 256 ^ lo / 256 ^ i) = BitVec.ofNat 8 (v / 256 ^ (skip + (i - lo))) := by
  have hshift (w : Nat) : w * 256 ^ lo / 256 ^ i = w / 256 ^ (i - lo) := by
    rw [show 256 ^ i = 256 ^ (i - lo) * 256 ^ lo by rw [← Nat.pow_add, Nat.sub_add_cancel hlo]]
    exact Nat.mul_div_mul_right _ _ (Nat.pow_pos (by decide))
  have hlen : 256 ^ len = 256 ^ (i - lo) * (256 ^ (len - (i - lo) - 1) * 256) := by
    rw [← Nat.pow_succ, ← Nat.pow_add]
    congr 1
    omega
  apply BitVec.eq_of_toNat_eq
  rw [hshift, hlen, Nat.mod_mul_right_div_self, Nat.div_div_eq_div_mul, ← Nat.pow_add, BitVec.toNat_ofNat, BitVec.toNat_ofNat]
  exact Nat.mod_mod_of_dvd _ (Nat.dvd_mul_left _ _)

theorem Core.readByte_granPut (k : Core) (off n v bad g b : Nat) :
    readByte (k.granPut off n v bad g).pad b = if granFrom off g ≤ b ∧ b < granTo off n g then BitVec.ofNat 8 (v / 256 ^ (b - off)) else readByte k.pad b := by
  rw [Core.granPut, Core.readByte_padGran]
  simp only [bit_ones]
  by_cases hb : granFrom off g ≤ b ∧ b < granTo off n g
  · have hfrom : off ≤ granFrom off g ∧ 64 * g ≤ granFrom off g := ⟨Nat.le_max_left _ _, Nat.le_max_right _ _⟩
    have hto : granTo off n g ≤ 64 * g + 64 := Nat.min_le_right _ _
    rw [if_pos (by omega), if_pos hb, ofNat_part v (by omega) (by omega)]
    congr 3
    omega
  · have hfrom : off ≤ granFrom off g ∧ 64 * g ≤ granFrom off g := ⟨Nat.le_max_left _ _, Nat.le_max_right _ _⟩
    rw [if_neg hb, if_neg (by omega)]

theorem Core.readByte_granPut_foldl (off n v bad b : Nat) (l : List Nat) (k : Core) :
    readByte (l.foldl (Core.granPut off n v bad) k).pad b = if ∃ g ∈ l, granFrom off g ≤ b ∧ b < granTo off n g then BitVec.ofNat 8 (v / 256 ^ (b - off)) else readByte k.pad b := by
  induction l generalizing k with
  | nil => simp
  | cons g l ih =>
    rw [List.foldl_cons, ih, Core.readByte_granPut]
    by_cases hg : granFrom off g ≤ b ∧ b < granTo off n g <;> simp [hg]

/-- What the scratchpad reads after n bytes have been put at an offset. -/
theorem Core.readByte_padPut (k : Core) (off n v bad b : Nat) :
    readByte (k.padPut off n v bad).pad b = if off ≤ b ∧ b < off + n then BitVec.ofNat 8 (v / 256 ^ (b - off)) else readByte k.pad b := by
  have hcover : (∃ g ∈ (List.range ((off + n + 63) / 64 - off / 64)).map (· + off / 64), granFrom off g ≤ b ∧ b < granTo off n g) ↔ off ≤ b ∧ b < off + n := by
    unfold granFrom granTo
    constructor
    · rintro ⟨g, -, h⟩
      omega
    · intro h
      refine ⟨b / 64, List.mem_map.2 ⟨b / 64 - off / 64, List.mem_range.2 (by omega), by omega⟩, by omega⟩
  rw [Core.padPut_eq_foldl, Core.readByte_granPut_foldl, if_congr hcover rfl rfl]

end Sys2Proof.Machine
end

section
/-!
PROOFS. Rules about the core of a number and the strands on it after one core's record changes (R27, R231).
-/
namespace Sys2Proof.Machine

theorem State.coreAt_putCore (s : State) (k : Core) (c : Nat) : (s.putCore k).coreAt c = if k.id = c then k else s.coreAt c := by
  unfold State.putCore
  by_cases hself : s.core.id = k.id
  · rw [if_pos hself]
    by_cases hc : k.id = c
    · rw [if_pos hc]
      exact if_pos hc
    · rw [if_neg hc]
      exact (if_neg hc).trans (if_neg (hself ▸ hc)).symm
  · rw [if_neg hself]
    by_cases hc : k.id = c
    · subst hc
      have hfind := find?_upsert_self (p := fun o : Core => o.id == k.id) (x := k) s.others (by simp)
      rw [if_pos rfl]
      refine (if_neg hself).trans ?_
      rw [hfind]
      rfl
    · have hfind := find?_upsert_other (p := fun o : Core => o.id == k.id) (q := fun o => o.id == c) (x := k) s.others (by simpa using hc)
        (fun y hy => beq_eq_false_iff_ne.mpr (fun h => hc ((beq_iff_eq.1 hy).symm.trans h)))
      rw [if_neg hc]
      unfold State.coreAt
      rw [hfind]

theorem State.coreAt_modCoreAt {f : Core → Core} (hid : ∀ k, (f k).id = k.id) (s : State) (c d : Nat) :
    (s.modCoreAt c f).coreAt d = if c = d then f (s.coreAt c) else s.coreAt d := by
  rw [State.modCoreAt, State.coreAt_putCore, hid, State.coreAt_id]

/-- What a change of a core leaves of each core stays so of the core in turn. -/
theorem State.modCoreAt_core {β : Type} {p : Core → β} {f : Core → Core} (hid : ∀ k, (f k).id = k.id) (hp : ∀ k, p (f k) = p k) (s : State) (c : Nat) :
    p (s.modCoreAt c f).core = p s.core := by
  unfold State.modCoreAt State.putCore
  split
  next h =>
    rw [hid, State.coreAt_id] at h
    subst h
    rw [State.coreAt_self]
    exact hp s.core
  next => rfl

/-- The device but for its cores. -/
def State.offCores (s : State) : State := { s with core := Core.fresh 0, others := [] }

theorem State.modCoreAt_offCores (s : State) (c : Nat) (f : Core → Core) : (s.modCoreAt c f).offCores = s.offCores := by
  unfold State.modCoreAt State.putCore
  exact ite_keeps (p := State.offCores) rfl rfl

theorem State.modStrand_offCores (s : State) (gi r : Nat) (f : Strand → Strand) : (s.modStrand gi r f).offCores = s.offCores := by
  unfold State.modStrand
  split
  · rfl
  · split
    · rfl
    · exact s.modCoreAt_offCores _ _

theorem State.unlock_offCores (s : State) (x : Xfer) (all : Bool) : (s.unlock x all).offCores = s.offCores := by
  unfold State.unlock
  split
  · rfl
  · exact s.modCoreAt_offCores _ _

/-- What of the core in turn a transfer's locks are not part of stays as they are taken away. -/
theorem State.unlock_pad (s : State) (x : Xfer) (all : Bool) : (s.unlock x all).core.pad = s.core.pad := by
  unfold State.unlock
  split
  · rfl
  · refine State.modCoreAt_core (p := Core.pad) ?_ ?_ s _ <;> exact fun _ => rfl

theorem State.gangs_of_offCores {s t : State} (h : t.offCores = s.offCores) : t.gangs = s.gangs := by
  have hg := congrArg State.gangs h
  exact hg

theorem State.xfers_of_offCores {s t : State} (h : t.offCores = s.offCores) : t.xfers = s.xfers := by
  have hx := congrArg State.xfers h
  exact hx

theorem State.mem_of_offCores {s t : State} (h : t.offCores = s.offCores) : t.mem = s.mem := by
  have hm := congrArg State.mem h
  exact hm

theorem State.tokMsgs_of_offCores {s t : State} (h : t.offCores = s.offCores) : t.tokMsgs = s.tokMsgs := by
  have ht := congrArg State.tokMsgs h
  exact ht

theorem State.kdev_of_offCores {s t : State} (h : t.offCores = s.offCores) : t.kdev = s.kdev := by
  have hk := congrArg State.kdev h
  exact hk

theorem State.stamp_of_offCores {s t : State} (h : t.offCores = s.offCores) : t.stamp = s.stamp := by
  have hs := congrArg State.stamp h
  exact hs

/-! ## The core of a strand -/

/-- A strand's core is where a core that its gang names has it. -/
theorem State.coreOf_congr {s t : State} {gi r : Nat} (hg : t.gangs = s.gangs) (hk : ∀ c, ((t.coreAt c).strand? gi r).isSome = ((s.coreAt c).strand? gi r).isSome) :
    t.coreOf gi r = s.coreOf gi r := by
  have hgang : t.gang? gi = s.gang? gi := by rw [State.gang?, State.gang?, hg]
  unfold State.coreOf State.strand?
  rw [hgang]
  cases s.gang? gi with
  | none => rfl
  | some g =>
    dsimp only
    cases g.coreOf r with
    | none => rfl
    | some c =>
      have hc := hk c
      dsimp only
      cases ht : (t.coreAt c).strand? gi r <;> cases hs : (s.coreAt c).strand? gi r <;> simp [ht, hs] at hc ⊢

theorem State.coreOf_modCoreAt {f : Core → Core} {gi r : Nat} (hid : ∀ k, (f k).id = k.id) (hf : ∀ k, ((f k).strand? gi r).isSome = (k.strand? gi r).isSome) (s : State) (c : Nat) :
    (s.modCoreAt c f).coreOf gi r = s.coreOf gi r := by
  refine State.coreOf_congr (State.gangs_of_offCores (s.modCoreAt_offCores c f)) (fun d => ?_)
  rw [State.coreAt_modCoreAt hid]
  split
  next h => rw [hf, h]
  next => rfl

theorem State.coreOf_unlock (s : State) (x : Xfer) (all : Bool) (gi r : Nat) : (s.unlock x all).coreOf gi r = s.coreOf gi r := by
  unfold State.unlock
  split
  · rfl
  · refine State.coreOf_modCoreAt ?_ ?_ s _ <;> exact fun _ => rfl

/-- A change that keeps each strand's number and status keeps who is on the core. -/
theorem Core.strand?_modStrand_isSome {f : Strand → Strand} (hf : ∀ t, (f t).gang = t.gang ∧ (f t).rank = t.rank ∧ (f t).status = t.status) (k : Core) (gi r gj q : Nat) :
    ((k.modStrand gi r f).strand? gj q).isSome = (k.strand? gj q).isSome := by
  have hmap : (k.modStrand gi r f).strand? gj q = (k.strand? gj q).map (fun t => if (t.gang == gi && t.rank == r && t.status != .none) = true then f t else t) := by
    refine find?_mapIf (p := fun t => t.gang == gj && t.rank == q && t.status != .none) (q := fun t => t.gang == gi && t.rank == r && t.status != .none) (fun t => ?_) (k.st :: k.rest)
    obtain ⟨hg, hr, hs⟩ := hf t
    split
    · rw [hg, hr, hs]
    · rfl
  rw [hmap, Option.isSome_map]

theorem State.coreOf_modStrand {f : Strand → Strand} (hf : ∀ t, (f t).gang = t.gang ∧ (f t).rank = t.rank ∧ (f t).status = t.status) (s : State) (gi r gj q : Nat) :
    (s.modStrand gi r f).coreOf gj q = s.coreOf gj q := by
  unfold State.modStrand
  split
  · rfl
  · split
    · rfl
    · refine State.coreOf_modCoreAt ?_ ?_ s _
      · exact fun _ => rfl
      · exact fun k => k.strand?_modStrand_isSome hf gi r gj q

end Sys2Proof.Machine
end

section
/-!
PROOFS. CopyEvents: acceptance of a copy inside the own scratchpad (R230, R231, R233), a run of a copy moved between scratchpads, and the completion of a transfer (R36, R231).
-/
namespace Sys2Proof.Machine

/-! ## A run moves -/

/-- R14: with no message on its way, none comes before a copy's bytes. -/
theorem State.coming_none {s : State} (htok : s.tokMsgs = []) (hrep : s.replies = []) (hfill : s.fills = []) (hcomb : s.combines = []) (unit c : Nat) : s.coming unit c = false := by
  simp [State.coming, State.flights, htok, hrep, hfill, hcomb]

/-- R231: the bytes of a run whose source is a scratchpad of this core. -/
theorem State.segRead_pad {s : State} {x : Xfer} {g : Seg} {gi ri o d : Nat} {c : Gang} (hsrc : g.src = .pad gi ri o) (hc : s.gang? gi = some c) (hplaced : c.state = .placed)
    (hat : s.peerIn c ri o g.len = .at gi ri s.core.id d) (hnone : ∀ unit k, s.coming unit k = false) :
    s.segRead x g = some (.ok (readNat s.core.pad d g.len, byBytes d g.len (fun q => s.core.padPsn.contains q), s)) := by
  have hgang : (if gi == x.gang && c.state == .parking then { c with state := .placed } else c) = c := by simp [hplaced]
  simp only [State.segRead, hsrc, hc]
  rw [hgang, hat]
  simp only [hnone, Bool.false_eq_true, if_false, State.coreAt_self, Core.padGet]

/-- R230: an address outside the peer window is no fill. -/
theorem Seg.fills_eq_false {g : Seg} (h : g.va.toNat / 2 ^ 44 ≠ 0x600) : g.fills = false := by
  rw [Seg.fills, Bool.and_eq_false_iff, beq_eq_false_iff_ne, beq_eq_false_iff_ne]
  unfold bits
  omega

/-- R231: the bytes of a run go to a scratchpad of this core. -/
theorem State.deliver_pad {s : State} {x : Xfer} {g : Seg} {gj rj p v bad : Nat} {u : Strand} (hdst : g.dst = .pad gj rj p) (hva : g.va.toNat / 2 ^ 44 ≠ 0x600)
    (hu : s.strand? gj rj = some (s.core.id, u)) (hplaced : ∀ h, s.gang? gj = some h → h.state = .placed) (hnone : ∀ unit k, s.coming unit k = false) :
    s.deliver x g v bad = some ((s.modCore (fun k => k.padPut (u.allotBase + p) g.len v bad)).segDone x g.len 0) := by
  have hid : (s.core.padPut (u.allotBase + p) g.len v bad).id = s.core.id := Core.padPut_id _ _ _ _ _
  have hput : s.modCoreAt s.core.id (fun k => k.padPut (u.allotBase + p) g.len v bad) = s.modCore (fun k => k.padPut (u.allotBase + p) g.len v bad) := State.modCoreAt_self rfl hid
  simp only [State.deliver, hdst, Seg.fills_eq_false hva, hu, hnone, Bool.or_false, Bool.false_eq_true, if_false, hput]
  cases h : s.gang? gj with
  | none => rfl
  | some q => simp [hplaced q h]

/-- R231: what a run that has moved leaves of a transfer that is the only one. -/
theorem State.segDone_only {s : State} {x : Xfer} (hx : s.xfers = [x]) (landed : Nat) :
    (s.segDone x landed 0).xfers = [{ x with segs := x.segs.drop 1, done := x.done + landed }] ∧ (s.segDone x landed 0).mem = s.mem ∧ (s.segDone x landed 0).core.pad = s.core.pad := by
  have hmod : (s.modXfer x.id (fun y => { y with segs := x.segs.drop 1, done := y.done + landed, waiting := y.waiting + 0 })).xfers
      = [{ x with segs := x.segs.drop 1, done := x.done + landed }] := by
    simp [State.modXfer, hx, mapIf]
  unfold State.segDone
  dsimp only
  split
  · have hoff := State.unlock_offCores (s.modXfer x.id (fun y => { y with segs := x.segs.drop 1, done := y.done + landed, waiting := y.waiting + 0 })) x false
    exact ⟨(State.xfers_of_offCores hoff).trans hmod, (State.mem_of_offCores hoff).trans rfl, State.unlock_pad _ _ _⟩
  · exact ⟨hmod, rfl, rfl⟩

/-- R231, R395: a transfer that waits for nothing and whose strand is not being stopped may take its next step. -/
theorem State.mayAdvance {s : State} {x : Xfer} (hw : x.waiting = 0) (hp : s.pieces = []) (hc : s.contains = []) :
    (x.waiting != 0 || s.pieces.any (fun p => p.xfer == x.id) || s.stopping x) = false := by
  simp [hw, hp, State.stopping, hc]

theorem State.advance_moves {s : State} {x : Xfer} {g : Seg} {gs : List Seg} (hw : x.waiting = 0) (hp : s.pieces = []) (hc : s.contains = []) (hx : x.segs = g :: gs) :
    s.advance x = s.moveSeg x g := by
  simp only [State.advance, State.mayAdvance hw hp hc, Bool.false_eq_true, if_false, hx]

theorem State.advance_completes {s : State} {x : Xfer} (hw : x.waiting = 0) (hp : s.pieces = []) (hc : s.contains = []) (hx : x.segs = []) (hinv : s.invals = []) :
    s.advance x = some (s.xferFinish x) := by
  simp only [State.advance, State.mayAdvance hw hp hc, hx, hinv, List.any_nil, Bool.false_eq_true, if_false]

/-! ## A transfer completes -/

theorem Strand.putM_same (t : Strand) (m : BitVec 3) (bs : List (Nat × Bool)) : (t.putM m bs).gang = t.gang ∧ (t.putM m bs).rank = t.rank ∧ (t.putM m bs).status = t.status := ⟨rfl, rfl, rfl⟩

/-- The device once a transfer's locks have retired and its fault mask is written. -/
def State.unlocked (s : State) (x : Xfer) : State := (s.unlock x x.handle.isNone).modStrand x.gang x.rank (fun t => t.putM (BitVec.ofNat 3 x.mf) x.bits)

theorem State.unlocked_offCores (s : State) (x : Xfer) : (s.unlocked x).offCores = s.offCores :=
  (State.modStrand_offCores _ _ _ _).trans (s.unlock_offCores _ _)

theorem State.coreOf_unlocked (s : State) (x : Xfer) (gi r : Nat) : (s.unlocked x).coreOf gi r = s.coreOf gi r :=
  (State.coreOf_modStrand (fun t => t.putM_same _ _) _ _ _ _ _).trans (s.coreOf_unlock _ _ _ _)

/-- The device once a transfer is off its list and its COPY packet is finished. -/
def State.delisted (s : State) (x : Xfer) : State :=
  { s.unlocked x with
    xfers := (s.unlocked x).xfers.filter (fun y => y.id != x.id)
    pkts := mapIf (fun p => x.kind = 5 && p.id == x.packet) (fun p => { p with phase := 2 }) (s.unlocked x).pkts }

/-- R36, R231: the message that a completed transfer sends to its token. -/
def State.completion (s : State) (x : Xfer) (h : BitVec 32) : TokMsg := ⟨1, h, x.amount, x.late, none, true, s.coreOf x.gang x.rank, 0, some x.id⟩

theorem State.xferFinish_eq (s : State) (x : Xfer) : s.xferFinish x = match x.handle with
    | none => s.delisted x
    | some h => (s.delisted x).toToken ((s.delisted x).completion x h) x.asid := rfl

theorem State.delisted_xfers {s : State} {x : Xfer} (h : s.xfers = [x]) : (s.delisted x).xfers = [] := by
  have hx : (s.unlocked x).xfers = [x] := (State.xfers_of_offCores (s.unlocked_offCores x)).trans h
  simp [State.delisted, hx]

theorem State.delisted_mem (s : State) (x : Xfer) : (s.delisted x).mem = s.mem := (State.mem_of_offCores (s.unlocked_offCores x)).trans rfl

theorem State.delisted_tokMsgs (s : State) (x : Xfer) : (s.delisted x).tokMsgs = s.tokMsgs := (State.tokMsgs_of_offCores (s.unlocked_offCores x)).trans rfl

theorem State.delisted_kdev (s : State) (x : Xfer) : (s.delisted x).kdev = s.kdev := (State.kdev_of_offCores (s.unlocked_offCores x)).trans rfl

theorem State.delisted_stamp (s : State) (x : Xfer) : (s.delisted x).stamp = s.stamp := (State.stamp_of_offCores (s.unlocked_offCores x)).trans rfl

theorem State.delisted_completion (s : State) (x : Xfer) (h : BitVec 32) : (s.delisted x).completion x h = s.completion x h := by
  have hcore : (s.delisted x).coreOf x.gang x.rank = s.coreOf x.gang x.rank := s.coreOf_unlocked x x.gang x.rank
  rw [State.completion, State.completion, hcore]

/-- R36: a completion goes to its token by a message. -/
theorem State.toToken_completion {s : State} {m : TokMsg} (hk : m.kind = 1) (asid : Nat) :
    (s.toToken m asid).xfers = s.xfers ∧ (s.toToken m asid).mem = s.mem ∧ (hDev m.handle = s.kdev → (s.toToken m asid).tokMsgs = s.tokMsgs ++ [{ m with seq := s.stamp }]) := by
  have hkind : ¬ (m.kind == 0) = true := by simp [hk]
  unfold State.toToken
  simp only [if_neg hkind]
  by_cases hdev : hDev m.handle = s.kdev
  · rw [if_pos (beq_iff_eq.2 hdev)]
    exact ⟨rfl, rfl, fun _ => rfl⟩
  · rw [if_neg (fun h => hdev (beq_iff_eq.1 h))]
    exact ⟨ite_keeps (p := State.xfers) rfl rfl, ite_keeps (p := State.mem) rfl rfl, fun h => absurd h hdev⟩

/-- R36, R231: what a transfer that is the only one leaves as it completes. -/
theorem State.xferFinish_done {s : State} {x : Xfer} (hx : s.xfers = [x]) :
    (s.xferFinish x).xfers = [] ∧ (s.xferFinish x).mem = s.mem ∧ (x.handle = none → (s.xferFinish x).tokMsgs = s.tokMsgs)
      ∧ ∀ h, x.handle = some h → hDev h = s.kdev → (s.xferFinish x).tokMsgs = s.tokMsgs ++ [{ s.completion x h with seq := s.stamp }] := by
  rw [State.xferFinish_eq]
  cases hh : x.handle with
  | none => exact ⟨State.delisted_xfers hx, s.delisted_mem x, fun _ => s.delisted_tokMsgs x, fun h he => absurd he.symm (Option.some_ne_none h)⟩
  | some h =>
    obtain ⟨hxfers, hmem, htok⟩ := State.toToken_completion (s := s.delisted x) (m := (s.delisted x).completion x h) rfl x.asid
    refine ⟨hxfers.trans (State.delisted_xfers hx), hmem.trans (s.delisted_mem x), fun he => absurd he (Option.some_ne_none h), fun h' he hdev => ?_⟩
    obtain rfl : h = h' := Option.some.inj he
    have hown : hDev ((s.delisted x).completion x h).handle = (s.delisted x).kdev := hdev.trans (s.delisted_kdev x).symm
    rw [htok hown, s.delisted_tokMsgs, s.delisted_completion, s.delisted_stamp]

/-! ## Acceptance of a copy inside the own scratchpad -/

/-- A row's side of n bytes at an offset of the own allotment (R230). -/
def RowSide.own (off n : Nat) : RowSide := ⟨0x70000000000000 + off, [⟨0x70000000000000 + off, n, windowXlat, .own off⟩], n, none⟩

/-- R230, R268: n bytes at an offset of the own allotment, inside the first 64 KiB, are one page of the local window. -/
theorem State.rowSpans_own {s : State} {off n : Nat} (hn : 0 < n) (hsize : off + n ≤ s.core.st.allotSize) (hpage : off + n ≤ 65536) (fuel : Nat) :
    s.rowSpans (fuel + 2) (0x70000000000000 + off) n = ⟨[⟨0x70000000000000 + off, n, windowXlat, .own off⟩], none⟩ := by
  have hspan : s.spanAt (0x70000000000000 + off) n = .ok ⟨0x70000000000000 + off, n, windowXlat, .own off⟩ := by
    have htop : ¬ 2 ^ 55 ≤ 0x70000000000000 + off := by omega
    have hwindow : bits (0x70000000000000 + off) 54 53 = 3 := by unfold bits; omega
    have hpeer : (bits (0x70000000000000 + off) 54 44 == 0x600) = false := beq_eq_false_iff_ne.mpr (by unfold bits; omega)
    have hlocal : (decide (0x70000000000000 ≤ 0x70000000000000 + off) && decide (0x70000000000000 + off < 0x70000000080000)) = true := by
      rw [Bool.and_eq_true, decide_eq_true_eq, decide_eq_true_eq]
      omega
    have hoff : 0x70000000000000 + off - 0x70000000000000 = off := by omega
    unfold State.spanAt
    simp only [if_neg htop, hwindow, bne_self_eq_false, hpeer, Bool.false_eq_true, if_false, hlocal, if_true, hoff, if_pos hsize]
  have hrun : min n (65536 - (0x70000000000000 + off) % 65536) = n := by omega
  have hrest : s.rowSpans (fuel + 1) (0x70000000000000 + off + n) (n - n) = ⟨[], none⟩ := by rw [Nat.sub_self]; rfl
  rw [State.rowSpans, if_neg (by omega)]
  simp only [hrun, hspan, hrest]

theorem State.sides_own {s : State} {off n : Nat} (hn : 0 < n) (hsize : off + n ≤ s.core.st.allotSize) (hpage : off + n ≤ 65536) (dest : Bool) :
    s.sides [0x70000000000000 + off] n dest = ⟨[RowSide.own off n], none⟩ := by
  have hbytes : spanBytes [⟨0x70000000000000 + off, n, windowXlat, .own off⟩] = n := Nat.zero_add n
  simp only [State.sides, State.rowSpans_own hn hsize hpage]
  simp [RowSide.own, Span.window, hbytes, State.rowPeer]

/-- R230 check 2: the own allotment may be read and written. -/
theorem State.sidePerm_own (s : State) {acc : Acc} (h : ∀ k, windowXlat.permits acc k = true) (off n : Nat) : s.sidePerm acc [RowSide.own off n] = none := by
  simp [State.sidePerm, RowSide.own, firstFail, h]

theorem State.ownRange_own (s : State) (off n len : Nat) : s.ownRange len [RowSide.own off n] = (off, off + n) := rfl

/-- R230 check 4: ranges of the own allotment that lie apart do not overlap. -/
theorem State.overlaps_own (s : State) {a b n : Nat} (h : a + n ≤ b ∨ b + n ≤ a) : s.overlaps [RowSide.own a n] [RowSide.own b n] = false := by
  have hphys (off : Nat) : [RowSide.own off n].flatMap s.physical = [(SpanAt.peer 0 s.core.id 0, s.core.st.allotBase + off, n)] := rfl
  have hapart : (decide (s.core.st.allotBase + a < s.core.st.allotBase + b + n) && decide (s.core.st.allotBase + b < s.core.st.allotBase + a + n)) = false := by
    rw [Bool.and_eq_false_iff, decide_eq_false_iff_not, decide_eq_false_iff_not]
    omega
  rw [State.overlaps, hphys, hphys]
  simpa using hapart

/-- R230 checks 3 to 5 for a copy inside the own allotment, with no watch register enabled. -/
theorem State.copyRest_own {s : State} {e : VqEntry} (hq : Claims.Quiet s) (hk : e.kind = 0) {a b n : Nat} (h : a + n ≤ b ∨ b + n ≤ a) :
    s.copyRest e n [RowSide.own a n] [RowSide.own b n] = none := by
  have hfill : filling [RowSide.own b n] = false := rfl
  have hwatch (k : WKind) (off : Nat) : s.sideWatch k n [RowSide.own off n] = none := by
    simp only [State.sideWatch, firstFail, Strand.watchers_calm hq.toCalm]
  simp [State.copyRest, hk, hfill, State.overlaps_own s h, hwatch]

/-- R276: the local window's translation is cached nowhere. -/
theorem State.useSpans_window {s : State} {l : List Span} (h : ∀ p ∈ l, p.x = windowXlat) : s.useSpans l = s := by
  have hall : ∀ x ∈ firsts (l.map (·.x)), x = windowXlat := fun x hx => by
    obtain ⟨p, hp, rfl⟩ := List.mem_map.1 (mem_of_mem_firsts hx)
    exact h p hp
  exact List.foldlRecOn (motive := fun u => u = s) _ _ rfl (fun u hu x hx => by rw [hu, hall x hx, State.useXlat_window])

/-- R231: a run of a row whose sides lie in the own allotment. -/
theorem rowSegs_own_ne_nil {a b n : Nat} (hn : 0 < n) (gang rank : Nat) : rowSegs (RowSide.own a n) (RowSide.own b n) false gang rank n (n + 1) 0 ≠ [] := by
  have hat (off : Nat) : (RowSide.own off n).sideAt gang rank 0 = some (.pad gang rank (off + (0x70000000000000 + off + 0 - (0x70000000000000 + off))), n - (0x70000000000000 + off + 0 - (0x70000000000000 + off))) := by
    have hskip : ¬ (RowSide.own off n).skip ≤ 0 := by
      change ¬ n ≤ 0
      omega
    have hfirst : (RowSide.own off n).spans.find? (fun p => decide (p.va ≤ (RowSide.own off n).va + 0) && decide ((RowSide.own off n).va + 0 < p.va + p.len))
        = some ⟨0x70000000000000 + off, n, windowXlat, .own off⟩ := List.find?_cons_of_pos (by simpa [RowSide.own] using hn)
    rw [RowSide.sideAt, if_neg hskip, hfirst]
    rfl
  rw [rowSegs, if_neg (by omega), hat, hat]
  exact List.cons_ne_nil _ _

/-- The transfer of a copy inside the own allotment as it is accepted (R231). -/
def State.padXfer (s : State) (e : VqEntry) (a b n : Nat) : Xfer :=
  { s.newXfer 0 n e.mf 0 with
    segs := rowSegs (RowSide.own a n) (RowSide.own b n) false s.core.st.gang s.core.st.rank n (n + 1) 0
    group := bits e.opnd.toNat 43 32
    base := b / 256
    va := e.dst }

/-- R233: the interlock entries of such a copy, source and destination. -/
def State.padLocks (s : State) (a b n : Nat) : List Lock :=
  [⟨s.nextId, s.core.st.gang, s.core.st.rank, a, a + n, false⟩, ⟨s.nextId, s.core.st.gang, s.core.st.rank, b, b + n, true⟩]

theorem State.lockRange_own {s : State} (hl : s.core.locks = []) {x : Xfer} (hid : x.id = s.nextId) {a b n : Nat} (hn : 0 < n) :
    ((s.addXfer x).lockRange s.nextId a (a + n) false).lockRange s.nextId b (b + n) true = (s.addXfer x).modCore (fun k => { k with locks := State.padLocks s a b n }) := by
  have hstands (k : Core) : State.standing { s.addXfer x with core := k } ⟨s.nextId, s.core.st.gang, s.core.st.rank, a, a + n, false⟩ = true := by
    simp [State.standing, State.addXfer, hid]
  have hfirst : (s.addXfer x).lockRange s.nextId a (a + n) false
      = (s.addXfer x).modCore (fun k => { k with locks := [⟨s.nextId, s.core.st.gang, s.core.st.rank, a, a + n, false⟩] }) := by
    have hnone : (s.addXfer x).core.locks = [] := hl
    rw [State.lockRange, if_neg (by omega), State.modCore, hnone]
    rfl
  rw [hfirst, State.lockRange, if_neg (by omega)]
  simp only [State.modCore, List.filter_cons, List.filter_nil, hstands, if_true]
  rfl

/-- A transfer with runs still to move is not complete. -/
theorem State.finishIfDone_busy {s : State} {id : Nat} {x : Xfer} (h : s.xfer? id = some x) (hx : x.segs ≠ []) : s.finishIfDone id = s := by
  simp [State.finishIfDone, h, hx]

/-- R231, R233: a copy inside the own allotment is accepted. -/
theorem State.acceptCopy_own {s : State} {e : VqEntry} {a b n : Nat} (hq : Claims.Quiet s) (hk : e.kind = 0) (hh : e.handle = none) (hn : 0 < n) :
    s.acceptCopy e n [RowSide.own a n] [RowSide.own b n] false
      = ((s.addXfer (State.padXfer s e a b n)).modCore (fun k => { k with locks := State.padLocks s a b n })).dequeue := by
  have hspans : s.useSpans (([RowSide.own a n] ++ [RowSide.own b n]).flatMap (·.spans)) = s := State.useSpans_window (by simp [RowSide.own])
  have hbusy : ((s.addXfer (State.padXfer s e a b n)).modCore (fun k => { k with locks := State.padLocks s a b n })).finishIfDone s.nextId
      = (s.addXfer (State.padXfer s e a b n)).modCore (fun k => { k with locks := State.padLocks s a b n }) :=
    State.finishIfDone_busy (x := State.padXfer s e a b n) (State.xfer?_only hq.xfers (State.padXfer s e a b n)) (rowSegs_own_ne_nil hn _ _)
  have hn0 : (n == 0) = false := beq_eq_false_iff_ne.mpr hn.ne'
  obtain ⟨pc, kind, src, dst, opnd, pitch, handle, mf⟩ := e
  obtain rfl : kind = 0 := hk
  obtain rfl : handle = none := hh
  unfold State.acceptCopy
  extract_lets t id window peer own1 own2 total segs s1 s2 y x s3 s4 s5 s6
  have hpeer : peer = false := by simp [peer, RowSide.own, hn0]
  have hs2 : s2 = s := hspans
  have hsegs : segs = (State.padXfer s ⟨pc, 0, src, dst, opnd, pitch, none, mf⟩ a b n).segs := List.append_nil _
  have hx : x = State.padXfer s ⟨pc, 0, src, dst, opnd, pitch, none, mf⟩ a b n := by
    change ({ s2.newXfer 0 (n * 1) mf 0 with segs := segs, hasPeer := peer && true, group := bits opnd.toNat 43 32, base := b / 256, va := dst } : Xfer) = _
    rw [hs2, hsegs, hpeer, Nat.mul_one]
    rfl
  have hlocked : s5 = (s.addXfer (State.padXfer s ⟨pc, 0, src, dst, opnd, pitch, none, mf⟩ a b n)).modCore (fun k => { k with locks := State.padLocks s a b n }) := by
    change ((s2.addXfer x).lockRange s.nextId a (a + n) false).lockRange s.nextId b (b + n) true = _
    rw [hs2, hx]
    exact State.lockRange_own hq.locks rfl hn
  change (s5.finishIfDone s.nextId).dequeue = _
  rw [hlocked, hbusy]

/-- R229: the rows of a copy of n bytes inside the own allotment. -/
theorem VqEntry.rows_padCopy {s : State} {e : VqEntry} {a b n : Nat} (h : Claims.padCopy s e a b n) : e.rows = ([(0x70000000000000 + a, 0x70000000000000 + b)], n) := by
  obtain ⟨hk, hsrc, hdst, hopnd, -, -, -, -, hpa, -, -⟩ := h
  have hlen : bits n 31 0 = n := by
    unfold bits
    omega
  simp [VqEntry.rows, hk, hsrc, hdst, hopnd, hlen]

/-- R230, R231: with nothing of the strand outstanding, a copy inside the own allotment is accepted at once. -/
theorem State.tryCopy_own {s : State} {e : VqEntry} {a b n : Nat} (hq : Claims.Quiet s) (h : Claims.padCopy s e a b n) :
    s.tryCopy e = some (((s.addXfer (State.padXfer s e a b n)).modCore (fun k => { k with locks := State.padLocks s a b n })).dequeue) := by
  have hrows := VqEntry.rows_padCopy h
  obtain ⟨hk, -, -, -, hh, hn, hsa, hsb, hpa, hpb, hapart⟩ := h
  have hroom : s.engineRoom ((if a < a + n && e.kind != 2 then 1 else 0) + (if b < b + n then 1 else 0)) = true :=
    State.engineRoom_calm hq.toCalm (by split <;> split <;> omega)
  have hempty : (n == 0 && e.kind != 2) = false := by simp [hn.ne']
  have hpeer (p : FillAt) : ([RowSide.own a n] ++ [RowSide.own b n]).any (fun r => r.peer == some p) = false := rfl
  simp only [State.tryCopy, hrows, List.isEmpty_cons, Bool.false_eq_true, if_false, hn.ne', List.map_cons, List.map_nil, State.sides_own hn hsa hpa, State.sides_own hn hsb hpb,
    State.sidePerm_own s windowXlat_permits_load, State.sidePerm_own s windowXlat_permits_store, hpeer, hempty, State.copyRest_own hq hk hapart, hh, State.ownRange_own, hroom,
    State.lockedAt_nil hq.locks, State.ownStored_quiet hq, State.acqWait_calm hq.toCalm, Bool.not_true, Bool.or_self, State.acceptCopy_own hq hk hh hn]

/-- Making the core in turn the core in turn. -/
theorem State.turnTo_self {s : State} {c : Nat} (h : s.core.id = c) : s.turnTo c = s := if_pos h

/-- R231: COPY_ACCEPT takes the copy at the head of the running strand's queue. -/
theorem exec_copyAccept {s t : State} {e : VqEntry} (hp : s.pick = 0) (hrun : s.core.phase = .run) (hst : s.core.st.status = .running) (hvq : s.core.st.vq = some e)
    (ht : s.tryCopy e = some t) (hid : t.core.id = s.core.id) : exec .copyAccept s = .next t := by
  have haccept : s.acceptAt s.core = some t := by
    simp only [State.acceptAt, hvq, hrun, hst, beq_self_eq_true, Bool.and_self, if_true, State.turnTo_self rfl, ht, Option.map_some, State.turnTo_self hid]
  have hev : s.evCopyAccept = some t := nth_head hp haccept
  change s.event s.evCopyAccept = _
  rw [hev]
  rfl

/-- R231: COPY_COMPLETE of the only transfer. -/
theorem exec_copyComplete {s t : State} {x : Xfer} (hp : s.pick = 0) (hx : s.xfers = [x]) (ht : s.advance x = some t) : exec .copyComplete s = .next t := by
  have hev : s.evCopyComplete = some t := by
    rw [State.evCopyComplete, hx]
    exact nth_head hp ht
  change s.event s.evCopyComplete = _
  rw [hev]
  rfl

/-- R231: the next run of a transfer between scratchpads of this core. -/
theorem State.moveSeg_pad {s : State} {x : Xfer} {g : Seg} {gi ri o d gj rj p : Nat} {c : Gang} {v : Strand} (hsrc : g.src = .pad gi ri o) (hdst : g.dst = .pad gj rj p)
    (hc : s.gang? gi = some c) (hplaced : c.state = .placed) (hat : s.peerIn c ri o g.len = .at gi ri s.core.id d) (hva : g.va.toNat / 2 ^ 44 ≠ 0x600)
    (hv : s.strand? gj rj = some (s.core.id, v)) (hgj : ∀ h, s.gang? gj = some h → h.state = .placed) (hnone : ∀ unit k, s.coming unit k = false) :
    ∃ bad, s.moveSeg x g = some ((s.modCore (fun k => k.padPut (v.allotBase + p) g.len (readNat s.core.pad d g.len) bad)).segDone x g.len 0) := by
  refine ⟨byBytes d g.len (fun q => s.core.padPsn.contains q), ?_⟩
  rw [← State.deliver_pad (x := x) hdst hva hv hgj hnone]
  simp only [State.moveSeg, State.segRead_pad (x := x) hsrc hc hplaced hat hnone, hsrc]

/-- Settles O39: acceptance through the checks of R230, a run through its read and its delivery, and completion through the transfer's last state. -/
theorem copyEvents : Obligations.CopyEvents := by
  unfold Obligations.CopyEvents
  intro s hp
  refine ⟨fun e a b n hrun hst hvq hcopy hq => ?_, fun x hx hw hpieces hcont => ⟨fun g gs gi ri o gj rj p c v d hsegs hsrc hdst hva htok hrep hfill hcomb hlen hc hplaced hat hv hgj => ?_, fun hsegs hinv => ?_⟩⟩
  · obtain ⟨-, -, -, -, -, hn, -⟩ := id hcopy
    have htry := State.tryCopy_own hq hcopy
    refine ⟨_, State.padXfer s e a b n, exec_copyAccept hp hrun hst hvq htry rfl, ?_, rfl, rfl, rfl, rfl, rfl, rfl, rfl, rfl, rowSegs_own_ne_nil hn _ _, ?_, ?_, rfl, rfl⟩
    · exact congrArg (· ++ [State.padXfer s e a b n]) hq.xfers
    · rfl
    · rw [State.dequeue, State.finishQ_eq]
      rfl
  · have hnone := State.coming_none htok hrep hfill hcomb
    obtain ⟨bad, hmove⟩ := State.moveSeg_pad (x := x) hsrc hdst hc hplaced hat hva hv hgj hnone
    have hstep : s.advance x = s.moveSeg x g := State.advance_moves hw hpieces hcont hsegs
    obtain ⟨hxfers, hmem, hpad⟩ := State.segDone_only (s := s.modCore (fun k => k.padPut (v.allotBase + p) g.len (readNat s.core.pad d g.len) bad)) hx g.len
    refine ⟨_, _, exec_copyComplete hp hx (hstep.trans hmove), hxfers, by rw [hsegs]; rfl, hmem, fun k hk => ?_, fun k hk => ?_⟩
    · rw [hpad]
      change readByte (s.core.padPut _ _ _ _).pad _ = _
      rw [Core.readByte_padPut, if_pos (by omega), Nat.add_sub_cancel_left, byte_of_readNat _ _ hk]
    · rw [hpad]
      change readByte (s.core.padPut _ _ _ _).pad _ = _
      rw [Core.readByte_padPut, if_neg (by omega)]
  · obtain ⟨hxfers, hmem, hfree, htoken⟩ := State.xferFinish_done hx
    refine ⟨_, exec_copyComplete hp hx (State.advance_completes hw hpieces hcont hsegs hinv), hxfers, hmem, hfree, fun h hh hdev => ?_⟩
    rw [htoken h hh ((hDev_eq h).trans hdev)]
    rfl

end Sys2Proof.Machine
end
